-- ==== Sys2Proof/Word.lean ====
section
/-! DEFINITION. The plain words of the model: bytes, addresses, ports, hosts, parts. -/

namespace Sys2Proof

/-- One byte of a frame, a buffer or a memory. -/
abbrev Byte := BitVec 8

/-- A 32-bit register value (R25). -/
abbrev Word := BitVec 32

/-- A MAC address; bits 47..40 are the first octet on the wire (R93). -/
abbrev Mac := BitVec 48

/-- The two hosts of the node (R49). -/
inductive HostId where
  | pcie
  | spi
  deriving DecidableEq, Repr

/-- The three parts this manual covers (R1, R6). -/
inductive Part where
  | zy9640
  | zy9630
  | zy9620
  deriving DecidableEq, Repr

/-- Part codes (R4). -/
def Part.code : Part → Nat
  | .zy9640 => 0x9640
  | .zy9630 => 0x9630
  | .zy9620 => 0x9620

/-- The two lines of the train (R30). -/
inductive Line where
  | a
  | b
  deriving DecidableEq, Repr

/-- The value of the LINE field of VER_CLASS (R105). -/
def Line.code : Line → Nat
  | .a => 1
  | .b => 2

/-- The four backbone ports (R6, R86). -/
inductive BPort where
  | laf
  | lar
  | lbf
  | lbr
  deriving DecidableEq, Repr

/-- All backbone ports in port-code order (R86). -/
def BPort.all : List BPort := [.laf, .lar, .lbf, .lbr]

/-- Index of a backbone port, 0 to 3, in the order of R259. -/
def BPort.idx : BPort → Nat
  | .laf => 0
  | .lar => 1
  | .lbf => 2
  | .lbr => 3

/-- Port codes 0x10 to 0x13 (R86). -/
def BPort.code (p : BPort) : Nat := 0x10 + p.idx

/-- The line a backbone port belongs to (R30). -/
def BPort.line : BPort → Line
  | .laf => .a
  | .lar => .a
  | .lbf => .b
  | .lbr => .b

/-- The two physical sides of a unit: the front pair LAF, LBF and the rear pair LAR, LBR. -/
inductive Side where
  | front
  | rear
  deriving DecidableEq, Repr

/-- The other side. -/
def Side.other : Side → Side
  | .front => .rear
  | .rear => .front

/-- The side a backbone port lies on. -/
def BPort.side : BPort → Side
  | .laf => .front
  | .lar => .rear
  | .lbf => .front
  | .lbr => .rear

/-- The port of a line on a side. -/
def BPort.mk' : Line → Side → BPort
  | .a, .front => .laf
  | .a, .rear => .lar
  | .b, .front => .lbf
  | .b, .rear => .lbr

/-- The port of the same line with the other role (R241). -/
def BPort.opposite : BPort → BPort
  | .laf => .lar
  | .lar => .laf
  | .lbf => .lbr
  | .lbr => .lbf

/-- The two ports of a side, line A first. -/
def Side.ports (sd : Side) : List BPort := [.mk' .a sd, .mk' .b sd]

/-- An Ethernet port of the node: a backbone port or one of CP0 to CP11 (R259). -/
inductive EPort where
  | bb (p : BPort)
  | car (n : Fin 12)
  deriving DecidableEq, Repr

/-- The code of an Ethernet port under R86. -/
def EPort.code : EPort → Nat
  | .bb p => p.code
  | .car n => n.val

/-- The number n of R259: LAF, LAR, LBF, LBR, then CP0 to CP11. -/
def EPort.num : EPort → Nat
  | .bb p => p.idx
  | .car n => 4 + n.val

/-- How the FCS of a received frame compares with the CRC-32 of the frame (R109, R110). -/
inductive Fcs where
  | good
  | marked
  | bad
  deriving DecidableEq, Repr

/-- The low 32 bits of a natural number as a register value. -/
def w32 (n : Nat) : Word := BitVec.ofNat 32 n

/-- A bit as a number. -/
def b2n (b : Bool) : Nat := if b then 1 else 0

/-- Units of 2^-16 ns in one ns (R126). -/
def unitsPerNs : Nat := 65536

end Sys2Proof
end

