-- ==== Sys2Proof/Syntax/Messages.lean ====
section
/-! DEFINITION. The messages and records that cross the block's boundary: management frames of the
backbone (R107, R136, R156, R174 to R178, R209, R292, R513), messages of the Creleber lane (R412 to
R417), the consist record (R194), commands and completions (R68, R77), descriptors (R352). -/

namespace Sys2Proof

/-- One 16-byte entry of the consist record (R194). -/
structure Entry where
  position : Nat
  reversed : Bool
  cabActive : Bool
  cabPresent : Bool
  twinned : Bool
  sActive : Bool
  innerCab : Bool
  part : Nat
  linkA : Bool
  linkB : Bool
  jumperA : Bool
  jumperB : Bool
  delayA : Nat
  delayB : Nat
  deriving DecidableEq, Repr

/-- The consist record: its header and one entry for each position (R194). -/
structure Record where
  epoch : Nat
  headRule : Nat
  truncated : Bool
  lineAWhole : Bool
  lineBWhole : Bool
  innerSeen : Bool
  crc : BitVec 32
  cutover : Nat
  entries : List Entry
  deriving DecidableEq, Repr

/-- What a unit hears of a management frame besides its body: the port and instant of arrival and the
general-frame header (R105, R111). -/
structure MgRx where
  port : BPort
  sfd : Nat
  fcs : Fcs
  length : Nat
  version : Nat
  line : Nat
  epoch : Nat
  hops : Nat
  seq : BitVec 16
  da : Mac
  sa : Mac
  deriving DecidableEq, Repr

/-- ECHO_REQ (R136). -/
structure EchoReq where
  probeId : BitVec 16
  port : Nat
  sync : BitVec 8
  position : Nat
  deriving DecidableEq, Repr

/-- ECHO_RESP (R136); times in units of 2^-16 ns, slew in units of 10^-12. -/
structure EchoResp where
  probeId : BitVec 16
  port : Nat
  sync : BitVec 8
  position : Nat
  uncert : Nat
  t2 : Nat
  t3 : Nat
  slew : Int
  deriving DecidableEq, Repr

/-- CAL_APPLY (R156). -/
structure CalApply where
  start : Nat
  step : Bool
  change : Int
  baseOffset : Int
  changeId : Nat
  deriving DecidableEq, Repr

/-- SV_HELLO (R175). -/
structure SvHello where
  origin : BitVec 32
  round : BitVec 16
  part : Nat
  cabActive : Bool
  cabPresent : Bool
  orient : Bool
  twin : Bool
  active : Bool
  pref : Bool
  settled : Bool
  full : Bool
  state : Nat
  port : Nat
  position : Nat
  peer : BitVec 32
  deriving DecidableEq, Repr

/-- The fields of a claim key (R176). -/
structure Key where
  active : Bool
  present : Bool
  nonce : BitVec 32
  front : Bool
  deriving DecidableEq, Repr

/-- SV_CLAIM (R176). -/
structure SvClaim where
  origin : BitVec 32
  round : BitVec 16
  part : Nat
  key : Key
  units : Nat
  deriving DecidableEq, Repr

/-- SV_COUNT (R177). -/
structure SvCount where
  headOrigin : BitVec 32
  round : BitVec 16
  next : Nat
  inVehicle : Bool
  headRule : Nat
  entries : List Entry
  deriving DecidableEq, Repr

/-- SV_RECORD (R178). -/
structure SvRecord where
  headOrigin : BitVec 32
  round : BitVec 16
  record : Record
  deriving DecidableEq, Repr

/-- SV_COMMIT (R178). -/
structure SvCommit where
  headOrigin : BitVec 32
  round : BitVec 16
  epoch : Nat
  hyper : Nat
  cutover : Nat
  cycle : Nat
  squeeze : Nat
  crc : BitVec 32
  deriving DecidableEq, Repr

/-- SV_LINK (R178): the position whose headward links changed and its new LINKS value. -/
structure SvLink where
  position : Nat
  links : BitVec 8
  deriving DecidableEq, Repr

/-- The common fields of a re-forming message (R209). -/
structure JnHead where
  origin : BitVec 32
  serial : BitVec 16
  epochOf : Nat
  posOf : Nat
  deriving DecidableEq, Repr

/-- JN_END (R209, R210). -/
structure JnEnd where
  head : JnHead
  key : Key
  last : Bool
  count : Nat
  deriving DecidableEq, Repr

/-- JN_OFFER (R209, R211). -/
structure JnOffer where
  head : JnHead
  units : Nat
  farKey : Key
  farLast : Bool
  couplerIsHead : Bool
  crc : BitVec 32
  cplDelayA : Nat
  cplDelayB : Nat
  entries : List Entry
  deriving DecidableEq, Repr

/-- JN_MERGE (R209, R215). -/
structure JnMerge where
  head : JnHead
  keeping : Bool
  reverse : Bool
  units : Nat
  record : Record
  deriving DecidableEq, Repr

/-- JN_TRACK, and JN_READY with its count of units passed (R209, R218, R219); `delta` in units of
2^-16 ns, `slope` in units of 10^-12. -/
structure JnTrack where
  head : JnHead
  at_ : Nat
  delta : Int
  slope : Int
  ready : Nat
  deriving DecidableEq, Repr

/-- JN_CUTOVER (R209, R220, R228, R230). -/
structure JnCutover where
  head : JnHead
  cause : Nat
  epoch : Nat
  hyper : Nat
  first : Nat
  last : Nat
  squeeze : Nat
  cutover : Nat
  cycle : Nat
  leap : Nat
  crc : BitVec 32
  calOffset : Int
  calSlew : Int
  deriving DecidableEq, Repr

/-- JN_BREAK (R209, R227). -/
structure JnBreak where
  head : JnHead
  headPos : Nat
  tailPos : Nat
  deriving DecidableEq, Repr

/-- JN_ABANDON (R209, R231). -/
structure JnAbandon where
  head : JnHead
  subject : BitVec 32
  deriving DecidableEq, Repr

/-- The declared fields of a stream contract, the parameters of STREAM_DECLARE (R260, R262). -/
structure Contract where
  srcPos : Nat
  srcPort : Nat
  flags : BitVec 8
  destCount : Nat
  maxlen : Nat
  fph : Nat
  deadline : Nat
  dests : List (Nat × Nat)
  deriving DecidableEq, Repr

/-- States of a stream context (R262). -/
inductive StreamState where
  | free
  | placed
  | held
  | loc
  | dead
  deriving DecidableEq, Repr

/-- The canonical form of a stream context, bytes 0 to 51 of its record (R262). -/
structure Canon where
  context : Nat
  state : StreamState
  contract : Contract
  serial : Nat
  cycOffset : Nat
  nSrc : Nat
  lines : BitVec 8
  served : BitVec 8
  srcIndex : List Nat
  deriving DecidableEq, Repr

/-- What a change to the contract set asks for (R292). -/
inductive PlanOp where
  | declare (c : Contract)
  | withdraw (context : Nat)
  | view (mask : BitVec 256)
  | repack
  | sync
  deriving DecidableEq, Repr

/-- PL_REQUEST (R292). -/
structure PlRequest where
  reqPos : Nat
  op : PlanOp
  reqId : Nat
  epoch : Nat
  deriving DecidableEq, Repr

/-- PL_RESULT (R292). -/
structure PlResult where
  reqPos : Nat
  op : Nat
  reqId : Nat
  outcome : Nat
  code : Nat
  codePos : Nat
  context : Nat
  serial : Nat
  swap : Nat
  deriving DecidableEq, Repr

/-- PL_CHANGE (R292); `target` is CONTEXT, or POSITION for VIEW. -/
structure PlChange where
  serial : Nat
  op : PlanOp
  epoch : Nat
  swap : Nat
  target : Nat
  deriving DecidableEq, Repr

/-- PL_DIGEST (R292). -/
structure PlDigest where
  position : Nat
  epoch : Nat
  lastSerial : Nat
  digest : BitVec 32
  planSilenced : Bool
  timeSilenced : Bool
  deriving DecidableEq, Repr

/-- PL_TALLY (R292). -/
structure PlTally where
  epoch : Nat
  agree : Nat
  lastSerial : Nat
  digest : BitVec 32
  agreeMap : BitVec 64
  reportMap : BitVec 64
  deriving DecidableEq, Repr

/-- The content of a PL_CONTRACT: a record or a selection (R292). -/
inductive PlItem where
  | record (c : Canon)
  | selection (position : Nat) (mask : BitVec 256)
  | nothing
  deriving DecidableEq, Repr

/-- PL_CONTRACT (R292). -/
structure PlContract where
  epochOf : Nat
  item : PlItem
  lastSerial : Nat
  index : Nat
  total : Nat
  deriving DecidableEq, Repr

/-- SL_VOTE (R513). -/
structure SlVote where
  sleepId : BitVec 16
  position : Nat
  rank : Nat
  ready : Bool
  reasons : BitVec 32
  deriving DecidableEq, Repr

/-- SL_INSTANT (R513). -/
structure SlInstant where
  sleepId : BitVec 16
  epoch : Nat
  instant : Nat
  deriving DecidableEq, Repr

/-- SL_VETO (R513). -/
structure SlVeto where
  sleepId : BitVec 16
  position : Nat
  rank : Nat
  reasons : BitVec 32
  deriving DecidableEq, Repr

/-- The management messages of the backbone (R107). -/
inductive MgMsg where
  | echoReq (m : EchoReq)
  | echoResp (m : EchoResp)
  | calApply (m : CalApply)
  | svHello (m : SvHello)
  | svClaim (m : SvClaim)
  | svCount (m : SvCount)
  | svRecord (m : SvRecord)
  | svCommit (m : SvCommit)
  | svRestart (round : BitVec 16)
  | svLink (m : SvLink)
  | jnEnd (m : JnEnd)
  | jnOffer (m : JnOffer)
  | jnMerge (m : JnMerge)
  | jnTrack (m : JnTrack)
  | jnReady (m : JnTrack)
  | jnCutover (m : JnCutover)
  | jnBreak (m : JnBreak)
  | jnAbandon (m : JnAbandon)
  | plRequest (m : PlRequest)
  | plResult (m : PlResult)
  | plChange (m : PlChange)
  | plDigest (m : PlDigest)
  | plTally (m : PlTally)
  | plContract (m : PlContract)
  | slPropose (sleepId : BitVec 16) (epoch : Nat)
  | slVote (m : SlVote)
  | slInstant (m : SlInstant)
  | slVeto (m : SlVeto)
  | slCancel (sleepId : BitVec 16) (cause : Nat)
  deriving DecidableEq, Repr

/-- A management frame as the node holds it in its egress queue; LINE is set at each egress (R105, R106). -/
structure MgFrame where
  da : Mac
  sa : Mac
  epoch : Nat
  hops : Nat
  seq : BitVec 16
  msg : MgMsg
  deriving DecidableEq, Repr

/-- The health word's bits as a unit publishes them are a 32-bit word with named bits (R414). -/
abbrev Health := BitVec 32

/-- HEARTBEAT (R413). -/
structure Heartbeat where
  origin : BitVec 32
  part : Nat
  hbSeq : BitVec 16
  health : Health
  cycle : Nat
  handover : Nat
  epoch : Nat
  position : Nat
  orient : Bool
  handoverAck : Bool
  open_ : Bool
  gen : BitVec 8
  round : BitVec 16
  nonce : BitVec 32
  deriving DecidableEq, Repr

/-- One stream entry of CYCLE_MIRROR (R415). -/
structure MirrorStream where
  valid : Bool
  context : Nat
  nextSeq : BitVec 16
  deriving DecidableEq, Repr

/-- CYCLE_MIRROR (R415). -/
structure Mirror where
  cycle : Nat
  digest : BitVec 32
  lastSerial : Nat
  epoch : Nat
  dout : BitVec 8
  streams : List MirrorStream
  learned : List (Option Mac)
  glkAnchor : List Nat
  canRow : List (Nat × Nat)
  deriving DecidableEq, Repr

/-- SETTINGS: the command's 64 bytes and its input buffer (R417). -/
structure Settings where
  command : List Byte
  buffer : List Byte
  deriving DecidableEq, Repr

/-- The messages of the Creleber lane (R412). -/
inductive LaneMsg where
  | heartbeat (m : Heartbeat)
  | mirror (m : Mirror)
  | settings (m : Settings)
  | settingsAck (tag : BitVec 8) (status : Nat)
  deriving DecidableEq, Repr

/-- A transmit descriptor with the bytes of its buffer, as the node reads it (R352, R354). -/
structure TxDesc where
  data : List Byte
  first : Bool
  last : Bool
  stamp : Bool
  deriving DecidableEq, Repr

/-- The formats of a CAN frame (R386). -/
inductive CanFormat where
  | classical
  | fd
  | xl
  deriving DecidableEq, Repr

/-- A CAN frame (R386, R390). -/
structure CanFrame where
  format : CanFormat
  ide : Bool
  ident : BitVec 29
  rtr : Bool
  brs : Bool
  esi : Bool
  sec : Bool
  sdt : Byte
  vcid : Byte
  af : BitVec 32
  data : List Byte
  deriving DecidableEq, Repr

/-- The kinds of PCIe reset that R89 and R588 name. -/
inductive PcieReset where
  | flr
  | hotReset
  | linkDown
  | perst
  deriving DecidableEq, Repr

/-- What may hold back a message of an MSI-X vector (R447). -/
inductive MsixHold where
  | vector (v : Fin 10)
  | function
  | powerState
  | busMaster
  deriving DecidableEq, Repr

/-- A JTAG instruction (R590). -/
inductive JtagInstr where
  | bypass
  | boundaryScan
  | production (code : Nat)
  deriving DecidableEq, Repr

/-- The kinds of self-test (R483, R490). -/
inductive TestKind where
  | logic
  | loopback
  | reference
  deriving DecidableEq, Repr

/-- The measurements of the reference check as the analogue blocks give them (R484, R493):
the worst bandgap deviation and the disagreement of the references in 0.01 %, the control voltage in
0.1 % of its range, and the difference of the sensors in 0.1 °C. -/
structure RefMeasure where
  bandgap : Int
  agreement : Nat
  pllVoltage : Nat
  sensorDiff : Int
  deriving DecidableEq, Repr

/-- Levels of the straps at their sampling instant (R573). -/
structure Straps where
  orient : Bool
  pref : Bool
  clksel : Bool
  deriving DecidableEq, Repr

end Sys2Proof
end

