-- ==== Sys2Proof/Syntax.lean ====
section
/-! DEFINITION. The commands of the block: one constructor for each row of spec/opcode_table.json, in the
table's order. A row of the command interface names an in-flight command by its tag; a row of the
register window carries the host, the register and the value; a row of the outside world carries what
the block receives or measures. -/

namespace Sys2Proof

/-- The commands of the block. -/
inductive Instr where
  /-- NOP (R85): command that does nothing and completes with result 0. Runs the in-flight command with this tag. -/
  | nop (tag : BitVec 8)
  /-- NODE_INFO (R85): command returning part code, position, epoch, rank and life-cycle code. Runs the in-flight command with this tag. -/
  | nodeInfo (tag : BitVec 8)
  /-- FW_VERSION (R85): command returning the firmware version and the generation of the image in force. Runs the in-flight command with this tag. -/
  | fwVersion (tag : BitVec 8)
  /-- ABORT (R87): command that stops a named in-flight command of either host before its commit point, which then completes with ABORTED cause 0x01. Runs the in-flight command with this tag. -/
  | abort (tag : BitVec 8)
  /-- CONSIST_READ (R194): command writing the consist record to an output buffer and returning epoch and count. Runs the in-flight command with this tag; `wr` says whether the PCIe host's buffer can be written (R90). -/
  | consistRead (tag : BitVec 8) (wr : Bool)
  /-- CONSIST_WAIT (R85): waiting command that completes when the epoch first differs from the one given. Runs the in-flight command with this tag. -/
  | consistWait (tag : BitVec 8)
  /-- SURVEY_RESTART (R200): command, in COMMISSION or MAINTENANCE only, that floods SV_RESTART with a round one above the node's own. Runs the in-flight command with this tag. -/
  | surveyRestart (tag : BitVec 8)
  /-- ALIAS_STATUS (R224): command returning the cycles of address aliasing remaining. Runs the in-flight command with this tag. -/
  | aliasStatus (tag : BitVec 8)
  /-- TIME_GET (R85): command returning line time in ns. Runs the in-flight command with this tag. -/
  | timeGet (tag : BitVec 8)
  /-- CAL_GET (R154): command returning calendar time in ns. Runs the in-flight command with this tag. -/
  | calGet (tag : BitVec 8)
  /-- TIME_SET (R155): command at a numbered position 1 that chooses START and floods a CAL_APPLY for a calendar STEP or SLEW. Runs the in-flight command with this tag. -/
  | timeSet (tag : BitVec 8)
  /-- CYCLE_SET (R131): command at position 1 storing a new cycle length, hyper-period and Squeeze for the next cut-over. Runs the in-flight command with this tag. -/
  | cycleSet (tag : BitVec 8)
  /-- GLK_CONFIG (R161): command configuring one genlock output's mode, width, line period and lines per frame. Runs the in-flight command with this tag. -/
  | glkConfig (tag : BitVec 8)
  /-- ECHO_READ (R167): command writing one Echo entry per backbone port whose link is up. Runs the in-flight command with this tag; `wr` says whether the PCIe host's buffer can be written (R90). -/
  | echoRead (tag : BitVec 8) (wr : Bool)
  /-- SERVO_STATUS (R85): command returning the servo offset estimate, uncertainty, lock and silence flags. Runs the in-flight command with this tag. -/
  | servoStatus (tag : BitVec 8)
  /-- STREAM_DECLARE (R264): waiting command declaring a stream contract, forwarded to position 1, committing when the plan holding it is in force. Runs the in-flight command with this tag. -/
  | streamDeclare (tag : BitVec 8)
  /-- STREAM_WITHDRAW (R263): command withdrawing a contract and freeing its context through position 1. Runs the in-flight command with this tag. -/
  | streamWithdraw (tag : BitVec 8)
  /-- STREAM_READ (R262): command writing a stream context's 64-byte record. Runs the in-flight command with this tag; `wr` says whether the PCIe host's buffer can be written (R90). -/
  | streamRead (tag : BitVec 8) (wr : Bool)
  /-- PLAN_REPACK (R269): waiting command that re-places every PLACED stream afresh and returns the new digest. Runs the in-flight command with this tag. -/
  | planRepack (tag : BitVec 8)
  /-- PLAN_STATUS (R85): command returning the plan digest, epoch, agreeing nodes and plan-silence flag. Runs the in-flight command with this tag. -/
  | planStatus (tag : BitVec 8)
  /-- VIEW_SELECT (R270): waiting command replacing the selection mask of this node's vehicle. Runs the in-flight command with this tag. -/
  | viewSelect (tag : BitVec 8)
  /-- CAMERA_BIND (R272): command at the source position binding a genlock output to a context. Runs the in-flight command with this tag. -/
  | cameraBind (tag : BitVec 8)
  /-- VSU_CONFIG (R294): command naming a context's stream form and codec to the VSU at this node. Runs the in-flight command with this tag. -/
  | vsuConfig (tag : BitVec 8)
  /-- VSU_STATUS (R321): command returning last slice age, HOLD repetitions and out-of-order count for a context. Runs the in-flight command with this tag. -/
  | vsuStatus (tag : BitVec 8)
  /-- PORT_CONFIG (R323): command setting a car port's mode, flags and role, retraining the link if mode or role changes. Runs the in-flight command with this tag. -/
  | portConfig (tag : BitVec 8)
  /-- PORT_STATUS (R326): command returning a port's link state, mode and recent guardian violations. Runs the in-flight command with this tag. -/
  | portStatus (tag : BitVec 8)
  /-- UCAST_FILTER_SET (R334): command setting one perfect-match unicast filter of a car port. Runs the in-flight command with this tag. -/
  | ucastFilterSet (tag : BitVec 8)
  /-- WAKE_PATTERN_SET (R357): command setting one wake pattern of a car port. Runs the in-flight command with this tag. -/
  | wakePatternSet (tag : BitVec 8)
  /-- GATE_LIST_SET (R341): command loading a car port's gate list, taking effect at a hyper-period boundary at least 2 cycles later. Runs the in-flight command with this tag; `buf` is what the PCIe host's input buffer holds, none where it cannot be read (R90). -/
  | gateListSet (tag : BitVec 8) (buf : Option (List Byte))
  /-- RING_SET (R350): command binding or unbinding a host DMA ring to a car port or the host station. Runs the in-flight command with this tag. -/
  | ringSet (tag : BitVec 8)
  /-- PORT_COUNTERS (R358): command writing a port's 64-bit counters to an output buffer. Runs the in-flight command with this tag; `wr` says whether the PCIe host's buffer can be written (R90). -/
  | portCounters (tag : BitVec 8) (wr : Bool)
  /-- AS_CONFIG (R348): command enabling or disabling IEEE 802.1AS on a car port. Runs the in-flight command with this tag. -/
  | asConfig (tag : BitVec 8)
  /-- MD_CONFIG (R370): command setting a multidrop segment's mode and PLCA parameters. Runs the in-flight command with this tag. -/
  | mdConfig (tag : BitVec 8)
  /-- MD_STATUS (R375): command returning a segment's state and excessive-collision drops. Runs the in-flight command with this tag. -/
  | mdStatus (tag : BitVec 8)
  /-- MD_COUNTERS (R376): command writing a segment's counters to an output buffer. Runs the in-flight command with this tag; `wr` says whether the PCIe host's buffer can be written (R90). -/
  | mdCounters (tag : BitVec 8) (wr : Bool)
  /-- CAN_CONFIG (R379): command setting a CAN controller's mode and bit timing, taking it off the bus and resetting its error counters. Runs the in-flight command with this tag. -/
  | canConfig (tag : BitVec 8)
  /-- CAN_BUFFER_SET (R386): command defining one CAN message buffer. Runs the in-flight command with this tag; `buf` is what the PCIe host's input buffer holds, none where it cannot be read (R90). -/
  | canBufferSet (tag : BitVec 8) (buf : Option (List Byte))
  /-- CAN_READ_LOCK (R390): command locking a receive buffer or reading the oldest FIFO frame into an output record. Runs the in-flight command with this tag; `wr` says whether the PCIe host's buffer can be written (R90). -/
  | canReadLock (tag : BitVec 8) (wr : Bool)
  /-- CAN_READ_RELEASE (R391): command unlocking a receive buffer or removing the oldest frame of a FIFO. Runs the in-flight command with this tag. -/
  | canReadRelease (tag : BitVec 8)
  /-- CAN_TX_AT (R394): command making a transmit buffer pending at a line time, completing when the frame is sent. Runs the in-flight command with this tag. -/
  | canTxAt (tag : BitVec 8)
  /-- CAN_SCHEDULE_SET (R398): command loading a controller's schedule matrix. Runs the in-flight command with this tag; `buf` is what the PCIe host's input buffer holds, none where it cannot be read (R90). -/
  | canScheduleSet (tag : BitVec 8) (buf : Option (List Byte))
  /-- CAN_WAKE_FILTER_SET (R405): command setting a selective-wake filter of CX0 or CX1. Runs the in-flight command with this tag. -/
  | canWakeFilterSet (tag : BitVec 8)
  /-- CAN_STATUS (R384): command returning a controller's error counts and state. Runs the in-flight command with this tag. -/
  | canStatus (tag : BitVec 8)
  /-- TWIN_STATUS (R414): command returning the unit's own and its partner's health words. Runs the in-flight command with this tag. -/
  | twinStatus (tag : BitVec 8)
  /-- TWIN_YIELD (R429): command asking the active unit to announce a planned handover to its partner. Runs the in-flight command with this tag. -/
  | twinYield (tag : BitVec 8)
  /-- LOG_READ (R467): command copying Flowstone records from a sequence number up to a frozen horizon. Runs the in-flight command with this tag; `wr` says whether the PCIe host's buffer can be written (R90). -/
  | logRead (tag : BitVec 8) (wr : Bool)
  /-- LOG_CHALLENGE (R83): command returning a fresh nonce for LOG_CLEAR. Runs the in-flight command with this tag. -/
  | logChallenge (tag : BitVec 8)
  /-- LOG_CLEAR (R470): authorised command removing every Flowstone record, emptying the Sump and writing a LOG_CLEAR record. Runs the in-flight command with this tag; `ok` says whether the MRAM write of the clear record verifies, `addr` is the failing address otherwise (R470). -/
  | logClear (tag : BitVec 8) (ok : Bool) (addr : Word)
  /-- ST_RUN (R490): command running one self-test of a given kind on a block. Runs the in-flight command with this tag. -/
  | stRun (tag : BitVec 8)
  /-- ST_RESULT (R493): command writing the latest self-test result of a block. Runs the in-flight command with this tag; `wr` says whether the PCIe host's buffer can be written (R90). -/
  | stResult (tag : BitVec 8) (wr : Bool)
  /-- LC_CHALLENGE (R83): command returning a fresh nonce for LC_SET. Runs the in-flight command with this tag. -/
  | lcChallenge (tag : BitVec 8)
  /-- LC_SET (R479): command moving the node to another life-cycle state, authorised where required. Runs the in-flight command with this tag; `ok` says whether the MRAM writes verify, `addr` is the failing address otherwise (R482). -/
  | lcSet (tag : BitVec 8) (ok : Bool) (addr : Word)
  /-- NET_SLEEP (R512): waiting command at position 1 that proposes a network sleep and completes at the sleep instant or on veto. Runs the in-flight command with this tag. -/
  | netSleep (tag : BitVec 8)
  /-- POWER_MODE_SET (R507): command moving the node to Run, Doze, Park or Deep Park where allowed. Runs the in-flight command with this tag. -/
  | powerModeSet (tag : BitVec 8)
  /-- DOMAIN_SET (R503): command turning a switchable power domain on or off. Runs the in-flight command with this tag. -/
  | domainSet (tag : BitVec 8)
  /-- WAKE_CONFIG (R510): command writing the wake and readiness enable mask WAKE_EN. Runs the in-flight command with this tag. -/
  | wakeConfig (tag : BitVec 8)
  /-- WAKE_REASON (R510): command returning the wake reason mask. Runs the in-flight command with this tag. -/
  | wakeReason (tag : BitVec 8)
  /-- CONFIG_COMMIT (R542): command checking an image and writing it to a target slot, committing when the seal is verified. Runs the in-flight command with this tag; `buf` is what the PCIe host's input buffer holds, none where it cannot be read (R90). -/
  | configCommit (tag : BitVec 8) (buf : Option (List Byte))
  /-- CONFIG_STATUS (R547): command returning valid slots, slot in force, generation and last reset cause. Runs the in-flight command with this tag. -/
  | configStatus (tag : BitVec 8)
  /-- CONFIG_READ (R548): command writing the image of a valid slot to an output buffer. Runs the in-flight command with this tag; `wr` says whether the PCIe host's buffer can be written (R90). -/
  | configRead (tag : BitVec 8) (wr : Bool)
  /-- COMMAND_FETCH (R73): the node fetches the next entry from an enabled, non-empty, running submission queue in round-robin turn. `entry` is the 64-byte ring entry of the PCIe host's memory, none where it cannot be read (R90); an SPI ring is read from node memory. -/
  | commandFetch (entry : Option (List Byte))
  /-- COMMAND_TIMEOUT (R82): a waiting opcode's TIMEOUT expires before its commit point and it completes with TIMEOUT. -/
  | commandTimeout (tag : BitVec 8)
  /-- NONCE_EXPIRY (R83): a challenge nonce lapses 10,000 ms after issue. `lc` names the LC_CHALLENGE nonce, else that of LOG_CHALLENGE. -/
  | nonceExpiry (lc : Bool)
  /-- SQ_TAIL_DB (R64): host write of a submission queue's tail doorbell, stopping the queue on a protocol error. -/
  | sqTailDb (host : HostId) (q : Fin 8) (val : Word)
  /-- CQ_HEAD_DB (R79): host write of a completion queue's head doorbell, freeing entries and releasing a HELD queue. -/
  | cqHeadDb (host : HostId) (q : Fin 4) (val : Word)
  /-- SQ_ENABLE (R62): write setting ENABLE in SQ_CFG, refused on bad config, otherwise zeroing head and tail and starting fetch. -/
  | sqEnable (host : HostId) (q : Fin 8) (val : Word)
  /-- SQ_DISABLE (R56): write clearing ENABLE in SQ_CFG, stopping fetch while fetched commands run on. -/
  | sqDisable (host : HostId) (q : Fin 8) (val : Word)
  /-- SQ_RESET (R88): write setting RESET in SQ_CFG, making the queue RESETTING and aborting commands before their commit point. -/
  | sqReset (host : HostId) (q : Fin 8) (val : Word)
  /-- SQ_RESET_DONE (R88): when no command of a resetting queue remains in flight, it becomes DISABLED with head and tail 0. -/
  | sqResetDone (q : Fin 8)
  /-- CQ_ENABLE (R62): write setting ENABLE in CQ_CFG, checking LOG2SIZE and setting PHASE to 1. -/
  | cqEnable (host : HostId) (q : Fin 4) (val : Word)
  /-- CQ_DISABLE (R58): write clearing ENABLE in CQ_CFG, refused while any completion is owed. -/
  | cqDisable (host : HostId) (q : Fin 4) (val : Word)
  /-- PCIE_RESET (R89): a PCIe function-level reset, hot reset, link-down or PE_RSTn low resets SQ0-SQ5, disables CQ0-CQ2, clears SCRATCH_PCIE and unroutes T4-T13. -/
  | pcieReset (kind : PcieReset)
  /-- PE_RSTN_RISE (R588): pE_RSTn rises and the PCIe endpoint starts training. -/
  | peRstnRise
  /-- SPI_WRITE (R66): quad-SPI instruction 0x38 writing whole 32-bit words from an address. `data` in ascending byte address order (R66). -/
  | spiWrite (addr : Nat) (data : List Byte)
  /-- SPI_READ (R66): quad-SPI instruction 0xEB reading whole 32-bit words after eight dummy clocks. -/
  | spiRead (addr : Nat) (words : Nat)
  /-- SPI_OTHER_INSTRUCTION (R66): any other SPI instruction is ignored until CSn rises. -/
  | spiOtherInstruction (instr : Byte)
  /-- REGISTER_WRITE (R26): host write to a register with no behaviour of its own, applied per access code. A 32-bit write, or a 64-bit one where `wide` (R25). -/
  | registerWrite (host : HostId) (off : Nat) (wide : Bool) (val : BitVec 64)
  /-- BAD_ACCESS (R25): a register access of wrong width or alignment reads 0, is ignored, asserts source 9 and is recorded in BAD_ACCESS_INFO. -/
  | badAccess (host : HostId) (write : Bool) (off : Nat)
  /-- BAD_ACCESS_ACK (R553): write to BAD_ACCESS_ACK clearing VALID and OVERRUN. -/
  | badAccessAck (host : HostId) (val : Word)
  /-- RX_RING_DOORBELL (R351): host write of a receive ring's tail doorbell posting descriptors. -/
  | rxRingDoorbell (host : HostId) (ring : Fin 64) (val : Word)
  /-- TX_RING_DOORBELL (R351): host write of a transmit ring's tail doorbell posting descriptors. -/
  | txRingDoorbell (host : HostId) (ring : Fin 64) (val : Word)
  /-- SNAP (R166): write of SNAP in SNAP_CTRL capturing line time, fraction, calendar time and phase from one tick. -/
  | snap (host : HostId) (val : Word)
  /-- CLAIM (R444): read of a target's CLAIM returning the winner and pushing it onto the target's stack. `wide` marks an access of more than 32 bits (R445, R567). -/
  | claim (host : HostId) (t : Fin 16) (wide : Bool)
  /-- COMPLETE (R444): write to a target's COMPLETE popping the top entry, or recording an order fault if the ID is not the top. -/
  | complete (host : HostId) (t : Fin 16) (val : Word)
  /-- INT_PEND_SET (R438): write at INT_PEND_SET setting pending on edge sources. -/
  | intPendSet (host : HostId) (n : Fin 21) (val : Word)
  /-- INT_PEND_CLR (R438): write at INT_PEND_CLR clearing pending on edge sources. -/
  | intPendClr (host : HostId) (n : Fin 21) (val : Word)
  /-- INT_MASK_SET (R438): write at INT_MASK_SET masking sources. -/
  | intMaskSet (host : HostId) (n : Fin 21) (val : Word)
  /-- INT_MASK_CLR (R438): write at INT_MASK_CLR unmasking sources. -/
  | intMaskClr (host : HostId) (n : Fin 21) (val : Word)
  /-- SRC_CFG_WRITE (R440): write of a source's priority and target, accepted only within the ownership rules. -/
  | srcCfgWrite (host : HostId) (src : Nat) (val : Word)
  /-- THRESHOLD_WRITE (R443): write of a target's priority threshold. -/
  | thresholdWrite (host : HostId) (t : Fin 16) (val : Word)
  /-- INT_FAULT_ACK (R451): write clearing VALID and OVERRUN in INT_FAULT_INFO. -/
  | intFaultAck (host : HostId) (val : Word)
  /-- MSIX_VECTOR_UNMASK (R447): host write ending a hold on a vector, sending one held message if the request is still true. The condition of R447 that the host ends. -/
  | msixVectorUnmask (hold : MsixHold)
  /-- FLW_CURSOR_WRITE (R472): write to FLW_CURSOR loading a Flowstone record into FLW_DATA0-7. -/
  | flwCursorWrite (host : HostId) (val : Word)
  /-- FLW_DATA7_READ (R472): read of FLW_DATA7 loading the next record in SEQ. -/
  | flwData7Read (host : HostId) (wide : Bool)
  /-- PWR_HOLD_WRITE (R525): write of HOLD in PWR_HOLD, the HOST_HOLD readiness reason. -/
  | pwrHoldWrite (host : HostId) (val : Word)
  /-- CYCLE_BOUNDARY (R130): a cycle boundary of line time is reached. -/
  | cycleBoundary
  /-- SURVEY_CHAMBER_START (R235): the Survey chamber of a cycle begins, in which queued MG messages are originated and sent. -/
  | surveyChamberStart
  /-- MG_FRAME_START (R236): a queued MG frame starts in the first gap of a Survey chamber that can hold it. -/
  | mgFrameStart (port : BPort)
  /-- ECHO_REQ_SEND (R132): each up backbone port sends ECHO_REQ at Survey chamber start plus 200 ns. -/
  | echoReqSend (port : BPort)
  /-- SV_HELLO_SEND (R174): each up backbone port sends SV_HELLO at Survey chamber start plus 3,200 ns. -/
  | svHelloSend (port : BPort)
  /-- ECHO_REQ_RX (R132): an ECHO_REQ is received and answered with an ECHO_RESP within 2,000 ns. `t3` is the line time at which the answer's SFD leaves (R132, R135). -/
  | echoReqRx (rx : MgRx) (m : EchoReq) (t3 : Nat)
  /-- ECHO_RESP_RX (R137): an ECHO_RESP is received and a delay and offset sample formed and validated. -/
  | echoRespRx (rx : MgRx) (m : EchoResp)
  /-- ECHO_BLOCK_END (R139): every 16 cycles each port's delay estimate is updated from the valid samples. -/
  | echoBlockEnd
  /-- SERVO_UPDATE (R140): once per cycle after the Survey chamber a numbered node updates F and S toward its reference neighbour. -/
  | servoUpdate
  /-- TIME_SILENCE_EXIT (R144): after 16 consecutive cycles with U at most a quarter Squeeze the node leaves time-silence. -/
  | timeSilenceExit
  /-- CAL_APPLY_RX (R158): a CAL_APPLY is received; one past its START is applied at once and CAL_LATE written. -/
  | calApplyRx (rx : MgRx) (m : CalApply)
  /-- CAL_START (R157): at START a node applies a calendar STEP or begins a SLEW and writes TIME_STEP. -/
  | calStart
  /-- CAL_SLEW_END (R157): a calendar slew finishes applying its whole change. -/
  | calSlewEnd
  /-- GLK_PULSE (R162): a genlock frame or line pulse edge falls due at its line time. The leading or trailing edge of a frame or line pulse of one output (R162). -/
  | glkPulse (out : Fin 12) (leading : Bool) (frame : Bool)
  /-- PLL_UNLOCK (R581): the root PLL loses lock, as on loss of reference, asserting TIME_LOCK and time-silencing the node. -/
  | pllUnlock
  /-- TIME_LOCK_FAULT (R420): the time unit's lock condition has held over 1,000 ns, setting TIME_LOCK and making an active unit yield. -/
  | timeLockFault
  /-- CAB_INPUT_CHANGE (R169): cAB_ACTIVE or CAB_PRESENT has shown a new level for 50 ms and takes it. `active` names CAB_ACTIVE, else CAB_PRESENT; `level` is the level it takes (R169). -/
  | cabInputChange (active : Bool) (level : Bool)
  /-- SV_HELLO_RX (R175): an SV_HELLO is received and the port's neighbour-table row updated. -/
  | svHelloRx (rx : MgRx) (m : SvHello)
  /-- SETTLE (R183): after 16 unchanged cycles with valid D everywhere an unnumbered unit settles and enters CLAIM or SETTLED. -/
  | settle
  /-- SV_CLAIM_RX (R186): an SV_CLAIM is stored, relayed and, in CLAIM, compared to decide the head. -/
  | svClaimRx (rx : MgRx) (m : SvClaim)
  /-- SV_COUNT_RX (R190): an SV_COUNT gives the unit its pending position and is relayed or appended to. -/
  | svCountRx (rx : MgRx) (m : SvCount)
  /-- SV_RECORD_RX (R192): an SV_RECORD is stored and relayed headward until it reaches the head. -/
  | svRecordRx (rx : MgRx) (m : SvRecord)
  /-- SV_COMMIT_RX (R196): an SV_COMMIT is received and checked against the stored record's CRC. -/
  | svCommitRx (rx : MgRx) (m : SvCommit)
  /-- NUMBERING_CUTOVER (R196): at CUTOVER every unit with a matching record takes its position and epoch and enters NUMBERED. -/
  | numberingCutover
  /-- COUNTED_TIMEOUT (R197): a unit in COUNTED with no commit for 64 cycles starts a new round. -/
  | countedTimeout
  /-- NO_END (R188): a settled unit hearing no claim for 400 ms writes NO_END, repeated every 10,000 ms. -/
  | noEnd
  /-- SV_RESTART_RX (R200): an SV_RESTART makes a numbered unit give up its position, plan and chambers and enter LISTEN. -/
  | svRestartRx (rx : MgRx) (round : BitVec 16)
  /-- SV_LINK_RX (R198): an SV_LINK updates a position's LINKS and the whole-line flags. -/
  | svLinkRx (rx : MgRx) (m : SvLink)
  /-- MEMBER_LINK_REGAIN (R198): a link between adjacent units becomes a member link again after 16 cycles of valid D. -/
  | memberLinkRegain (port : BPort)
  /-- LINK_LOST (R205): a link with no valid Echo sample in 4 consecutive cycles counts as lost for re-forming. -/
  | linkLost (port : BPort)
  /-- JN_END_TIMER (R210): an end unit originates JN_END every 10,000 ms. -/
  | jnEndTimer
  /-- JN_END_RX (R210): a JN_END is stored, and at position 1 may trigger a lead change. -/
  | jnEndRx (rx : MgRx) (m : JnEnd)
  /-- JN_OFFER_RX (R212): a coupler unit holding both offers decides keeping part, refusal or tie. -/
  | jnOfferRx (rx : MgRx) (m : JnOffer)
  /-- JN_MERGE_RX (R215): a JN_MERGE is stored as the pending record and relayed. -/
  | jnMergeRx (rx : MgRx) (m : JnMerge)
  /-- SHADOW_PLAN_DONE (R217): planning into the shadow banks completes. -/
  | shadowPlanDone
  /-- JN_TRACK_RX (R218): a joining unit updates its offset Δi from a JN_TRACK and relays it. -/
  | jnTrackRx (rx : MgRx) (m : JnTrack)
  /-- JN_READY_RX (R219): a JN_READY is relayed headward, and at position 1 with all units ready triggers the announcement. -/
  | jnReadyRx (rx : MgRx) (m : JnTrack)
  /-- JN_CUTOVER_RX (R220): a JN_CUTOVER is held and relayed, fixing the cut-over boundary, leap and steps. -/
  | jnCutoverRx (rx : MgRx) (m : JnCutover)
  /-- JN_BREAK_RX (R228): a JN_BREAK reaching the old position 1 makes it announce the split. -/
  | jnBreakRx (rx : MgRx) (m : JnBreak)
  /-- JN_ABANDON_RX (R231): a JN_ABANDON discards the pending record and shadow banks and writes REFORM_ABANDONED. -/
  | jnAbandonRx (rx : MgRx) (m : JnAbandon)
  /-- CUTOVER (R223): at the re-forming cut-over boundary each matching unit takes position, epoch and time changes. -/
  | cutover
  /-- ALIAS_END (R224): the 64-cycle address-aliasing period after a cut-over ends. -/
  | aliasEnd
  /-- CHAMBER_START (R245): at a SOURCE or FORWARD chamber START the node releases the oldest ready frame or forwards the held frame. `start` is the START field of the entry whose instant is reached (R239). -/
  | chamberStart (port : BPort) (start : Nat)
  /-- TT_INGRESS_SFD (R248): a TT frame's SFD arrives at a backbone port and the guardian judges it against its window. `header` is the 18-byte header of the frame whose SFD arrives (R100); the rest is not known yet. -/
  | ttIngressSfd (port : BPort) (sfd : Nat) (header : List Byte)
  /-- TT_MAXLEN_REACHED (R249): a TT frame reaching MAXLEN without ending is cut with a marked FCS or dropped, counting GUARDIAN_TRUNC. `bytes` are the first MAXLEN bytes of the frame in progress (R249). -/
  | ttMaxlenReached (port : BPort) (bytes : List Byte)
  /-- TT_FRAME_END (R47): a TT frame's last byte arrives, its FCS is checked and the first valid copy delivered. `bytes` are the whole frame from DA to FCS. -/
  | ttFrameEnd (port : BPort) (bytes : List Byte)
  /-- SLICE_DEADLINE (R310): a used source cycle's delivery deadline D passes at the cab. -/
  | sliceDeadline (context : Fin 256)
  /-- GENERAL_EGRESS_START (R247): an RC or BE frame starts at a backbone egress when it fits before the next footprint. -/
  | generalEgressStart (port : BPort)
  /-- INGRESS_REOPEN (R252): a closed ingress reopens after 256 clean cycles and writes INGRESS_REOPENED. -/
  | ingressReopen (port : EPort)
  /-- SWAP (R255): at the boundary of swap cycle S the banks rotate: RETIRING takes ACTIVE and ACTIVE takes SHADOW. -/
  | swap
  /-- RETIRING_RELEASE (R255): at the end of cycle S+2 RETIRING is emptied and becomes the new SHADOW. -/
  | retiringRelease
  /-- BACKBONE_GENERAL_RX (R111): an RC or BE general frame is received whole at a backbone port and checked, windowed and forwarded. -/
  | backboneGeneralRx (port : BPort) (sfd : Nat) (bytes : List Byte)
  /-- PL_REQUEST_RX (R264): position 1 takes a PL_REQUEST, admits or refuses it, answers with PL_RESULT and floods PL_CHANGE. -/
  | plRequestRx (rx : MgRx) (m : PlRequest)
  /-- PL_RESULT_RX (R266): the requesting node receives the outcome and swap cycle of its request. -/
  | plResultRx (rx : MgRx) (m : PlResult)
  /-- PL_CHANGE_RX (R265): a PL_CHANGE is applied into the SHADOW bank for its swap cycle, or lost if late. -/
  | plChangeRx (rx : MgRx) (m : PlChange)
  /-- PL_DIGEST_RX (R287): position 1 records a node's reported digest for the round. -/
  | plDigestRx (rx : MgRx) (m : PlDigest)
  /-- PL_TALLY_RX (R289): a PL_TALLY makes a node plan-silenced or agree by the winning digest. -/
  | plTallyRx (rx : MgRx) (m : PlTally)
  /-- PL_CONTRACT_RX (R290): a contract or selection record is taken at cold start, merge or resynchronisation. -/
  | plContractRx (rx : MgRx) (m : PlContract)
  /-- LINK_UP (R326): a port's link comes up. -/
  | linkUp (port : EPort)
  /-- LINK_DOWN (R327): a port's link goes down, clearing its learned address and egress queues. -/
  | linkDown (port : EPort)
  /-- LINK_TRAIN_TIMEOUT (R325): a car link not up within 1,000 ms of training enters FAILED. -/
  | linkTrainTimeout (port : Fin 12)
  /-- LINK_FAILED_END (R325): after 100 ms in FAILED the car port starts training again. -/
  | linkFailedEnd (port : Fin 12)
  /-- CAR_RX_FRAME (R329): a frame is received whole at a car port and checked, classified, readdressed and resolved. `bytes` are the whole frame from DA to FCS. -/
  | carRxFrame (port : Fin 12) (sfd : Nat) (bytes : List Byte)
  /-- CAR_EGRESS_START (R340): a car port starts a queued frame when its gate is open and the frame fits before the gate closes. -/
  | carEgressStart (port : Fin 12)
  /-- CAR_FRAME_SENT (R354): a frame leaves the car port MDI and its descriptors and stamp are written back. `sfd` is the line time at which the SFD left; `stall` says that the write-back of the stamp cannot be made yet (R355). -/
  | carFrameSent (port : Fin 12) (sfd : Nat) (stall : Bool)
  /-- LPI_EXIT (R347): a car port leaves low-power idle ahead of a due TT delivery or after a frame joins a queue. -/
  | lpiExit (port : Fin 12)
  /-- GATE_ENTRY (R342): a gate-list entry takes effect at its line time, the first entry at each hyper-period boundary. -/
  | gateEntry (port : Fin 12)
  /-- PAUSE_EXPIRY (R345): a received pause's quanta run out and the paused queues resume. -/
  | pauseExpiry (port : Fin 12)
  /-- PAUSE_REFRESH (R345): the pause frame is repeated every 32,768 quanta while held bytes stay high. -/
  | pauseRefresh (port : Fin 12)
  /-- LLDP_SEND (R346): every 30,000 ms the node sends LLDP with the EEE TLV on the car port. -/
  | lldpSend (port : Fin 12)
  /-- AS_SYNC_SEND (R348): every 125 ms an 802.1AS Sync and Follow_Up is sent. -/
  | asSyncSend (port : Fin 12)
  /-- AS_ANNOUNCE_SEND (R348): every 1,000 ms an 802.1AS Announce is sent. -/
  | asAnnounceSend (port : Fin 12)
  /-- AS_PDELAY_SEND (R348): every 1,000 ms an 802.1AS Pdelay_Req is sent. -/
  | asPdelaySend (port : Fin 12)
  /-- AS_NO_PEER (R359): no valid Pdelay_Resp for 3,000 ms asserts AS_NO_PEER. -/
  | asNoPeer (port : Fin 12)
  /-- TX_FRAME_READ (R354): a transmit frame has been read whole from its ring buffers and joins an egress queue or is dropped. -/
  | txFrameRead (ring : Fin 64) (descs : List TxDesc)
  /-- RING_UNBIND_DONE (R350): an unbound ring becomes quiet and the RING_SET completes. -/
  | ringUnbindDone (tx : Bool) (ring : Fin 64)
  /-- MD_RX_FRAME (R364): a frame is received whole on a multidrop segment and looked up, classified and resolved. -/
  | mdRxFrame (seg : Fin 2) (bytes : List Byte)
  /-- MD_TX_START (R368): a segment frame starts after deferral or at the node's PLCA opportunity. -/
  | mdTxStart (seg : Fin 2)
  /-- MD_COLLISION (R368): a collision on the segment triggers jam and backoff, or drop after 16 attempts or a late collision. -/
  | mdCollision (seg : Fin 2) (late : Bool)
  /-- MD_BACKOFF_END (R368): a CSMA/CD backoff wait expires and the frame may try again. -/
  | mdBackoffEnd (seg : Fin 2)
  /-- PLCA_BEACON_SEND (R371): the coordinator sends a BEACON to open each PLCA cycle. -/
  | plcaBeaconSend (seg : Fin 2)
  /-- PLCA_BEACON_RX (R372): a valid BEACON is received, ending fallback or counting a clash at a coordinator. -/
  | plcaBeaconRx (seg : Fin 2)
  /-- PLCA_OPPORTUNITY (R371): the node's PLCA transmit opportunity comes round or the opportunity timer expires. -/
  | plcaOpportunity (seg : Fin 2)
  /-- PLCA_BURST_TIMER (R370): the 12,800 ns burst timer expires and the node's burst ends. -/
  | plcaBurstTimer (seg : Fin 2)
  /-- PLCA_FALLBACK (R372): a follower with no valid BEACON for 400,000 ns falls back to CSMA/CD. -/
  | plcaFallback (seg : Fin 2)
  /-- MD_CONFIG_APPLY (R373): a segment configuration takes effect when the frame in progress ends. -/
  | mdConfigApply (seg : Fin 2)
  /-- CAN_FRAME_RX (R389): a CAN frame becomes valid and is matched and stored in a buffer or FIFO with its SOF stamp. `sof` is the SOF stamp of the frame (R403). -/
  | canFrameRx (ctl : Fin 4) (sof : Word) (frame : CanFrame)
  /-- CAN_TX_START (R393): at bus idle the controller offers the winning pending transmit buffer. `won` says whether the offered frame wins arbitration (R393). -/
  | canTxStart (ctl : Fin 4) (won : Bool) (sof : Word)
  /-- CAN_TX_SUCCESS (R394): a frame is sent without error, completing its CAN_TX_AT with the SOF stamp. -/
  | canTxSuccess (ctl : Fin 4)
  /-- CAN_ERROR (R384): a bus error is detected and counted, moving the controller between error states. `ack` an acknowledgement error, `clash` one as R402 defines it; `txInc` and `rxInc` what ISO 11898-1 adds at another error of a transmitter, or at a receiver's. -/
  | canError (ctl : Fin 4) (ack : Bool) (clash : Bool) (txInc : Nat) (rxInc : Nat)
  /-- CAN_INTEGRATED (R384): 11 consecutive recessive bits end integration into ERROR_ACTIVE or LISTEN_ONLY. -/
  | canIntegrated (ctl : Fin 4)
  /-- CAN_BUSOFF_RECOVERY (R384): 128 occurrences of 11 recessive bits return a bus-off controller to ERROR_ACTIVE. -/
  | canBusoffRecovery (ctl : Fin 4)
  /-- CAN_PROTOCOL_EXCEPTION (R381): a frame in a format the mode does not accept triggers protocol exception handling. -/
  | canProtocolException (ctl : Fin 4)
  /-- CAN_TX_TARGET (R394): a CAN_TX_AT target time arrives and the buffer becomes pending. -/
  | canTxTarget (ctl : Fin 4) (buffer : Fin 128)
  /-- CAN_TX_LATE (R395): no attempt started by target plus late limit, so the buffer stops pending and TX_LATE asserts. -/
  | canTxLate (ctl : Fin 4) (buffer : Fin 128)
  /-- CAN_LOCK_STALE (R391): a receive-buffer lock held 1,000 ms is released and LOCK_STALE asserted. -/
  | canLockStale (ctl : Fin 4) (buffer : Fin 128)
  /-- CAN_COLUMN_START (R401): a schedule-matrix column's START is reached and its kind governs what may start. -/
  | canColumnStart (ctl : Fin 4)
  /-- CAN_WINDOW_END (R401): a column window ends; an unsent EXCLUSIVE or ARBITRATING frame asserts SCHED_MISS. -/
  | canWindowEnd (ctl : Fin 4)
  /-- CAN_WAKE_MATCH (R406): in Park a classical frame matching a wake filter wakes the node. -/
  | canWakeMatch (ctl : Fin 4) (frame : CanFrame)
  /-- CAN_WAKE_ERRORS (R406): in Park 32 decoding errors without a valid frame wake the node. -/
  | canWakeErrors (ctl : Fin 4)
  /-- HEARTBEAT_SEND (R412): each unit sends a HEARTBEAT every 50,000 ns and at once on a flag change. -/
  | heartbeatSend
  /-- HEARTBEAT_RX (R413): a HEARTBEAT updates the partner's health and triggers role and configuration checks. -/
  | heartbeatRx (m : Heartbeat)
  /-- LANE_FAULT_TIMEOUT (R414): no valid HEARTBEAT for 150,000 ns sets LANE_FAULT and may release ACTL. -/
  | laneFaultTimeout
  /-- CYCLE_MIRROR_RX (R416): a standby adopts learned addresses, DOUT levels and anchors and compares the digest. -/
  | cycleMirrorRx (m : Mirror)
  /-- SETTINGS_RX (R417): a standby applies a mirrored setting command and answers SETTINGS_ACK. -/
  | settingsRx (m : Settings)
  /-- SETTINGS_ACK_RX (R417): the active unit receives the ACK, letting the command reach its commit point. -/
  | settingsAckRx (tag : BitVec 8) (status : Nat)
  /-- SETTINGS_TIMEOUT (R417): no ACK within 200,000 ns sets SETTINGS_STALE on both units. -/
  | settingsTimeout
  /-- ACTL_HIGH (R424): aCTL reads high through its filter and an eligible standby drives it low and sets TAKEOVER. -/
  | actlHigh
  /-- ACTL_LOW (R422): aCTL reads low after boot and a starting unit becomes standby. -/
  | actlLow
  /-- ACTL_READBACK_FAULT (R419): driving low and reading high for 500 ns sets ACTL_FAULT and makes the unit yield. -/
  | actlReadbackFault
  /-- TWIN_START_WAIT (R422): the wait W after boot ends with ACTL high and the unit becomes active. -/
  | twinStartWait
  /-- TAKEOVER_BOUNDARY (R424): at the takeover boundary the new active unit takes rank 0x00, car service and outputs. -/
  | takeoverBoundary
  /-- TAKEOVER_CLEAR (R414): tAKEOVER clears 64 cycles after the takeover boundary. -/
  | takeoverClear
  /-- HANDOVER_BOUNDARY (R429): at the acknowledged handover cycle the role passes without a missed source cycle. -/
  | handoverBoundary
  /-- HANDOVER_LAPSE (R429): without acknowledgement by h-1 the handover lapses and TWIN_YIELD completes with STATE_REFUSED. -/
  | handoverLapse
  /-- REVERT_TIMER (R430): a clean PREF standby sets REVERT_REQ after 10,000 ms. -/
  | revertTimer
  /-- FABRIC_ECC_ERROR (R436): an ECC error in fabric memory is corrected or, if uncorrectable, sets FABRIC_ECC. -/
  | fabricEccError (fatal : Bool)
  /-- MEM_ECC_ERROR (R436): a correctable ECC error in management-core memory asserts source 7. -/
  | memEccError
  /-- GUARDIAN_SELF_FAIL (R436): the guardian's self-check fails, asserting source 5 until reset. -/
  | guardianSelfFail
  /-- TEMP_THRESHOLD (R436): a junction sensor crosses 115 °C, asserting or de-asserting TEMP_HIGH. -/
  | tempThreshold (sensor : Fin 2) (above : Bool)
  /-- WATCHDOG_FIRE (R528): no core services the watchdog for 50 ms, so it fires and asserts source 4. -/
  | watchdogFire
  /-- WATCHDOG_RESET (R528): 20 ms after the watchdog fires the node resets and writes WATCHDOG_RESET to the Sump. `core` is the core last serviced (R549). -/
  | watchdogReset (core : Fin 4)
  /-- FLOWSTONE_MRAM_WRITE (R462): a record in the front buffer is written to MRAM and verified. `ok` says whether the write verifies within 3 attempts, `addr` is the failing address otherwise (R462). -/
  | flowstoneMramWrite (ok : Bool) (addr : Word)
  /-- REPEAT_REWRITE (R462): an open record's repeat fields are rewritten at most every 100 ms. `ok` says whether the write verifies within 3 attempts, `addr` is the failing address otherwise (R462). -/
  | repeatRewrite (ok : Bool) (addr : Word)
  /-- RECORD_CLOSE (R460): an open record closes after 1,000,000,000 ns without a repeat. -/
  | recordClose
  /-- ST_PLAN_DUE (R495): an autonomous plan entry falls due after PERIOD seconds. -/
  | stPlanDue (entry : Fin 32)
  /-- ST_SLICE_START (R484): the engine starts a test slice or loopback run on a block at least 60 µs after the previous one. -/
  | stSliceStart (block : Fin 34)
  /-- ST_SLICE_END (R485): a slice ends, restoring the block and, at the test's end, judging pass or fail. `misr` is the register after the slice's patterns, `lost` the frames lost in it, `ref` the readings of a reference check (R484). -/
  | stSliceEnd (block : Fin 34) (misr : BitVec 64) (lost : Nat) (ref : RefMeasure)
  /-- LOOPBACK_END (R484): a loopback ends on its 64th return or 1,000 µs after its 64th frame was sent. `returned` counts the frames that came back intact (R484). -/
  | loopbackEnd (block : Fin 34) (returned : Nat)
  /-- SL_PROPOSE_RX (R514): a unit receiving SL_PROPOSE answers with SL_VOTE. -/
  | slProposeRx (rx : MgRx) (sleepId : BitVec 16) (epoch : Nat)
  /-- SL_VOTE_RX (R515): position 1 records a vote and, with all READY, sends SL_INSTANT or cancels on timeout. -/
  | slVoteRx (rx : MgRx) (m : SlVote)
  /-- SL_INSTANT_RX (R518): a unit records the sleep instant. -/
  | slInstantRx (rx : MgRx) (m : SlInstant)
  /-- SL_VETO_RX (R516): a unit relays a veto, cancels the sleep and stays in Run. -/
  | slVetoRx (rx : MgRx) (m : SlVeto)
  /-- SL_CANCEL_RX (R519): a unit drops the sleep proposal. -/
  | slCancelRx (rx : MgRx) (sleepId : BitVec 16) (cause : Nat)
  /-- SLEEP_INSTANT (R518): at INSTANT with no veto in hand the unit begins Park entry and NET_SLEEP completes. -/
  | sleepInstant
  /-- DEEP_PARK_ENTRY (R509): the park timer reaches PARK_LIMIT and PD0 enters Deep Park, closing the relays. -/
  | deepParkEntry
  /-- DOMAIN_SWITCH_DONE (R503): a domain turned on becomes usable or one turned off becomes unpowered, and DOMAIN_SET commits. -/
  | domainSwitchDone (domain : Fin 14)
  /-- LANTERN_WAKE (R511): lANTERN held high for 1,000,000 ns wakes the node from Park, Deep Park or Doze. -/
  | lanternWake
  /-- WAKE_PULSE_DETECT (R520): a parked island sees 200 µs of continuous energy and latches LINE_A or LINE_B. -/
  | wakePulseDetect (port : BPort)
  /-- POWER_ON (R528): vAON is first applied and POR is released, latching POWER_ON. -/
  | powerOn
  /-- BROWN_OUT (R528): a switched rail out of regulation for 10 µs in Run or Doze resets the node and writes RAIL_FAULT to the Sump. The rails not good: [0] VDD_CORE, [1] VDD_PHY, [2] VDDA (R526). -/
  | brownOut (rails : BitVec 3)
  /-- RSTN_LOW (R528): rSTn low for at least 1 µs resets the node and drops the bypass outputs. The width of the low level in ns so far (R528). -/
  | rstnLow (width : Nat)
  /-- RSTN_RISE (R530): rSTn rises, starting the boot or waking a parked node. -/
  | rstnRise
  /-- RAIL_TIMEOUT (R521): rails not good within 10 ms of a wake write RAIL_FAULT and hold WAKE_OUT low for 100 ms. The rails not good: [0] VDD_CORE, [1] VDD_PHY, [2] VDDA (R526). -/
  | railTimeout (rails : BitVec 3)
  /-- RAIL_RETRY (R521): after 100 ms of WAKE_OUT low PD0 raises it again to retry the rails. -/
  | railRetry
  /-- RESET_RELEASE (R531): rails have been good for 100 µs, reset is released and the boot sequence runs. `straps` as sampled (R573); `failed` holds the blocks whose boot test fails (R494). -/
  | resetRelease (straps : Straps) (failed : BitVec 34)
  /-- CONFIG_SEAL_WRITTEN (R543): the image write and read-back end and the seal is written and verified, committing CONFIG_COMMIT. `ok` says whether image and seal verify, `addr` is the failing address otherwise (R543). -/
  | configSealWritten (ok : Bool) (addr : Word)
  /-- POWER_LOSS (R528): vAON falls below its minimum: POR is asserted, BYPA and BYPB go undriven so the relays close, the Sump and PD0 contents are lost and records not yet in MRAM are lost. -/
  | powerLoss
  /-- PLL_LOCK_REGAINED (R581): the root PLL regains lock after a loss of reference, TIME_LOCK source 6 de-asserts and the node stops treating itself as time-silenced on that account. -/
  | pllLockRegained
  /-- HEARTBEAT_SEND_TIMEOUT (R418): no HEARTBEAT has left the unit for 150,000 ns, so it releases ACTL at once. -/
  | heartbeatSendTimeout
  /-- LANTERN_CHANGE (R511): lANTERN changes level in Run, adding or removing the LANTERN readiness reason and asserting or de-asserting LANTERN_HIGH. -/
  | lanternChange (level : Bool)
  /-- PARK_ENTRY_COMPLETE (R508): park entry reaches step 6 and WAKE_OUT falls; the window stops answering and a reason latched LATE during entry wakes the node at once. -/
  | parkEntryComplete
  /-- BOOT_COMPLETE (R561): step 8 of the boot ends, SERVICE becomes 1, register writes take effect and the Survey begins. -/
  | bootComplete
  /-- JTAG_INSTRUCTION (R590): an IEEE 1149.1 instruction is shifted into the TAP; boundary scan works in every state and Rhothen's production instructions work only in FACTORY, acting as BYPASS otherwise. -/
  | jtagInstruction (instr : JtagInstr)
  deriving DecidableEq, Repr

end Sys2Proof
end

