-- ==== Sys2Proof/Decode.lean ====
section
/-! DEFINITION. The command that a word of the command table spells: no row of the table gives bits. -/

namespace Sys2Proof

/-- No row of the command table has an encoding of its own, so no word spells a command (log 18). -/
def decodeTableWord (_ _ : Nat) : Option Instr := none

end Sys2Proof
end

