-- ==== Sys2Proof/Config.lean ====
section
/-! DEFINITION. What the spec leaves open: free values, constants without a body. A function of a number
is applied to the count of draws in the state, so that each use has a value of its own. -/

namespace Sys2Proof.Config

/-- The 64 bits of the on-chip random source at a draw: origins, nonces of a round and of a challenge
(R83, R171). Free value, log 2. -/
opaque random64 : Nat → BitVec 64

/-- The phase of the FABCLK ticks against the start of elapsed time, in ps: FABCLK runs free (R126). Free value, log 59. -/
opaque fabclkPhase : Fin 1600

/-- The firmware version that FW_VERSION returns (R85). Free value, log 8. -/
opaque firmwareVersion : BitVec 32

/-- The reference signature of a logic block for its pattern target, as the boot ROM holds it, by part code and block (R485).
Free value, log 9. -/
opaque signature : Nat → Nat → BitVec 64

/-- Ed25519 verification (R481, R536, R542): public key, message, signature. Free value, log 10. -/
opaque ed25519 : List Byte → List Byte → List Byte → Bool

/-- The public key that FACTORY_SAFE and an unsealed key area verify an image with (R535, R542). Free value, log 10. -/
opaque factoryKey : List Byte

/-- Whether an RSTn low level of more than 100 ns and less than 1,000 ns resets the node (R528). Free value, log 11. -/
opaque rstnShort : Nat → Bool

/-- A byte of the PCIe host's memory as the node reads it, by the count of draws and the address: the
descriptors of a ring (R352). Free value, log 12. -/
opaque hostByte : Nat → Nat → Byte

/-- How many cycles lie between the keeping part's cycle base and a cut-over, by its CUTOVER and CYCLE: no message carries the
base that a joining unit adopts (R130, R151, R209). Free value, log 25. -/
opaque joinCycles : Nat → Nat → Nat

/-- D of the headward link of the unit's partner on line A (0) or line B (1), where it is a member link, by the count of draws: the second
unit of a pair writes it into the vehicle's entry, and no message of the spec brings it there (R191, R194). Free value, log 15. -/
opaque partnerLink : Nat → Nat → Option (BitVec 32)

/-- The longest wire time of a CAN frame in ns, stuff bits included, by its bit timing (R401): ISO 11898-1 gives it, the spec
does not. Free value, log 27. -/
opaque canWireNs : CanFrame → List Byte → Nat

/-- What a CAN controller's 10 MHz counter read at the start of elapsed time (R403). Free value, log 28. -/
opaque canCount : Nat → Word

/-- How far above 119 a receive error count above 127 falls at a valid frame (R384, ISO 11898-1). Free value, log 29. -/
opaque canRecBack : Nat → Fin 9

/-- The failing MRAM byte address that LOG_DEGRADED carries when a quarantined STORE block, not a write, leads to degraded
mode (R473, R483). Free value, log 32. -/
opaque quarantineAddr : Nat → BitVec 32

/-- The MISR of a logic test after the clock of its folding (R485): its polynomial is not given. Free value, log 9. -/
opaque misrClock : BitVec 64 → BitVec 64

/-- The MISR of a boot test that fails, by the count of draws and the block (R493, R494). Free value, log 33. -/
opaque bootMisr : Nat → Nat → BitVec 64

/-- The DETAIL and the two measures of the reference check at boot (R493, R494), by the count of draws. Free value, log 33. -/
opaque bootReference : Nat → BitVec 16 × Int × Int

/-- The origin drawn at reset release, less 1, by the count of draws (R171): it is never 0. Free value, log 2. -/
opaque originDraw : Nat → Fin 4294967295

/-- The cause byte of ABORTED for an ST_RUN that R491 cuts short (R84, R490): the table of causes has none for it. Free value,
by the count of draws, log 34. -/
opaque cutCause : Nat → BitVec 8

/-- A PHY's minimum wake time in ns in a mode, which the node advertises as Transmit Tw and Receive Tw (R346). Free value, log 77. -/
opaque minWake : Nat → Nat

/-- A frame of another node is in progress on the bus of a CAN controller (R379): no command shows its start. Free value, by the count of
draws and the controller, log 76. -/
opaque canBusy : Nat → Nat → Bool

end Sys2Proof.Config
end

