-- ==== Sys2Proof/Machine/State.lean ====
section
/-! DEFINITION. The state of the block as plain data, one structure for each unit, and its value right
after reset. The default value of a field is its value at reset. A docstring names the rule of spec/ that
gives the field; `Reset: spec` says that the spec gives the reset value, `Reset: log n` names the
assumption-log entry that does, and `Model` marks a field that is the model's own bookkeeping of a fact
that the rule named there keeps. -/

namespace Sys2Proof.Machine

/-- Reasons a command stops with a fault. -/
inductive Fault where
  /-- Raised by JTAG_INSTRUCTION for a production instruction in FACTORY, to which R590 gives no effect.
  Safe: the model stops where the part goes on. -/
  | productionInstruction
  deriving DecidableEq, Repr

/-- Reasons a command is refused. -/
inductive Refusal where
  /-- Raised by an arm of the dispatcher that has no meaning yet. Safe: nothing is claimed. -/
  | notModelled (mnemonic : String)
  deriving DecidableEq, Repr

/-- A table by number in canonical form: numbers strictly rising, no entry equal to the value an
unlisted number reads as. -/
abbrev Tab (α : Type) := List (Nat × α)

/-- Addressed memory in the same canonical form; an unlisted address reads 0. -/
abbrev Memory := List Host.Cell

/-- A completion entry before it has a place in a ring (R77). -/
structure Completion where
  tag : BitVec 8
  status : Nat
  result : BitVec 64
  sq : Nat
  deriving DecidableEq, Repr

/-- What the block has sent to the outside world. -/
inductive Out where
  /-- A write into the PCIe host's memory (R78, R90, R353). -/
  | hostWrite (addr : Nat) (bytes : List Byte)
  /-- An MSI-X message of a vector (R446). -/
  | msix (vector : Nat)
  /-- The data of a register or SPI read. -/
  | readData (words : List Word)
  /-- A management frame leaving a backbone port (R236). -/
  | mg (port : BPort) (frame : MgFrame)
  /-- Any other frame leaving a backbone port: line time of its SFD, its bytes, its FCS good or marked (R46, R109). -/
  | backbone (port : BPort) (sfd : Nat) (bytes : List Byte) (fcs : Fcs)
  /-- A frame leaving a car port (R340). -/
  | car (port : Nat) (bytes : List Byte)
  /-- A frame leaving on a multidrop segment (R367). -/
  | md (seg : Nat) (bytes : List Byte)
  /-- A jam, or a BEACON, on a multidrop segment (R368, R371). -/
  | mdJam (seg : Nat)
  | mdBeacon (seg : Nat)
  /-- A CAN frame that starts on a bus (R393). -/
  | can (ctl : Nat) (frame : CanFrame)
  /-- A message on the Creleber lane (R412). -/
  | lane (m : LaneMsg)
  /-- A wake pulse on a backbone port (R520). -/
  | wakePulse (port : BPort)
  /-- A pause frame with these quanta (R345). -/
  | pause (port : Nat) (quanta : Nat)
  /-- An LLDP frame with the EEE TLV: source address, Transmit Tw, Receive Tw and the echoed Receive Tw in ns (R346). -/
  | lldp (port : Nat) (sa : Mac) (txTw rxTw echoTw : Nat)
  /-- An 802.1AS message: Sync and Follow_Up, Announce, Pdelay_Req or Pdelay_Resp (R348). -/
  | asSync (port : Nat) (seconds : Nat) (ns : Nat) (frac : Nat)
  | asAnnounce (port : Nat) (priority1 : Nat)
  | asPdelayReq (port : Nat) (seconds : Nat) (ns : Nat) (frac : Nat)
  | asPdelayResp (port : Nat) (seconds : Nat) (ns : Nat) (frac : Nat)
  deriving DecidableEq, Repr

/-- The progress of a command in flight (R71, R81). -/
inductive CmdPhase where
  /-- Fetched and not started: it may wait under R74 and R75. -/
  | fetched
  /-- Started, before its commit point. -/
  | started
  /-- Past its commit point, its completion still to come (R81). -/
  | committed
  /-- Finished, its completion entry not yet written (R79). -/
  | finished
  deriving DecidableEq, Repr

/-- A command in flight (R68, R71). -/
structure Cmd where
  acc : Nat
  sq : Nat
  tag : BitVec 8
  opcode : Nat
  fence : Bool
  buffer : Bool
  plen : Nat
  epoch : Nat
  timeout : Nat
  bufAddr : Nat
  bufLen : Nat
  inl : List Byte
  raw : List Byte
  atPs : Nat
  atLt : Nat
  phase : CmdPhase
  /-- What the command waits for: a request number, a slot, a cycle or a buffer, by its opcode. -/
  ref : Nat
  /-- A second such number. -/
  ref2 : Nat
  /-- The completion queue that its submission queue was bound to when it was fetched (R50). -/
  cq : Nat := 0
  /-- A PCIe reset came while it was in flight: its completion is discarded, whatever its queue is by then (R89). -/
  lost : Bool := false
  deriving DecidableEq, Repr

/-- States of a queue (R57, R59). -/
inductive QState where
  | disabled
  | running
  | stopped
  | resetting
  | held
  deriving DecidableEq, Repr

/-- A submission queue (R54 to R57). -/
structure Sq where
  /-- SQ_BASE_LO and SQ_BASE_HI, 64 bits (R55). Reset: spec 0; on SQ6 and SQ7 read as the fixed SPI address. -/
  base : BitVec 64 := 0
  /-- SQ_CFG ENABLE, 1 bit (R56). Reset: spec. -/
  enable : Bool := false
  /-- SQ_CFG CQ, 3 bits (R56). Reset: spec. -/
  cq : Nat := 0
  /-- SQ_CFG LOG2SIZE, 4 bits (R56). Reset: spec. -/
  log2 : Nat := 4
  /-- SQ_STAT STATE, 2 bits (R57). Reset: spec. -/
  state : QState := .disabled
  /-- SQ_STAT ERR, 8 bits (R57). Reset: spec. -/
  err : Nat := 0
  /-- SQ_STAT HEAD, 11 bits (R57). Reset: spec. -/
  head : Nat := 0
  /-- The tail of the last doorbell, 11 bits (R53, R60). Reset: spec (R63). -/
  tail : Nat := 0
  /-- Model: the cause that the reset under way gives to aborted commands (R88, R89). Reset: none under way. -/
  resetCause : Nat := 0
  deriving DecidableEq, Repr

/-- A completion queue (R54, R55, R58, R59). -/
structure Cq where
  /-- CQ_BASE_LO and CQ_BASE_HI, 64 bits (R55). Reset: spec 0; on CQ3 read as the fixed SPI address. -/
  base : BitVec 64 := 0
  /-- CQ_CFG ENABLE, 1 bit (R58). Reset: spec. -/
  enable : Bool := false
  /-- CQ_CFG LOG2SIZE, 4 bits (R58). Reset: spec. -/
  log2 : Nat := 4
  /-- CQ_STAT STATE, 2 bits (R59). Reset: spec. -/
  state : QState := .disabled
  /-- CQ_STAT ERR, 8 bits (R59). Reset: spec. -/
  err : Nat := 0
  /-- CQ_STAT PHASE, 1 bit (R59). Reset: spec. -/
  phase : Bool := true
  /-- CQ_STAT TAIL, 11 bits (R59). Reset: spec. -/
  tail : Nat := 0
  /-- The last head doorbell value, 11 bits (R60, R65). Reset: spec (R63). -/
  head : Nat := 0
  /-- Finished completions kept while the queue is HELD, oldest first (R79). Reset: none owed. -/
  held : List Completion := []
  deriving DecidableEq, Repr

/-- A nonce of the challenge pattern and the instant of its issue (R83). -/
structure Nonce where
  value : BitVec 64
  atPs : Nat
  deriving DecidableEq, Repr

/-- The command engine (R49 to R91). -/
structure Cmdq where
  /-- SQ0 to SQ7 (R49). Reset: spec, each DISABLED. -/
  sqs : List Sq := List.replicate 8 {}
  /-- CQ0 to CQ3 (R49). Reset: spec, each DISABLED. -/
  cqs : List Cq := List.replicate 4 {}
  /-- Commands in flight in acceptance order (R71, R73). Reset: spec, none (R89). -/
  inflight : List Cmd := []
  /-- Model: the submission queue whose turn comes next in the round (R73). Reset: log 6. -/
  turn : Nat := 0
  /-- Model: the number of the next command accepted (R73). Reset: log 6. -/
  accepted : Nat := 0
  /-- The nonce of LOG_CHALLENGE, 64 bits, with its instant of issue (R83). Reset: none issued. -/
  logNonce : Option Nonce := none
  /-- The nonce of LC_CHALLENGE, 64 bits, with its instant of issue (R83). Reset: none issued. -/
  lcNonce : Option Nonce := none
  deriving DecidableEq, Repr

/-- The clocks of the unit. -/
structure Clock where
  /-- Model: elapsed time by the unit's reference, in ps (R129). Reset: log 3. -/
  ps : Nat := 0
  /-- Line time, 80 bits, in units of 2^-16 ns (R126). Reset: spec, the floor of R127. -/
  lt : Nat := 0
  /-- Model: what the count of R126 has of the next unit, in parts of 10^-15. Reset: log 3. -/
  ltRem : Nat := 0
  /-- F, in units of 10^-12 (R129, R140). Reset: spec (R147). -/
  f : Int := 0
  /-- S, in units of 10^-12 (R129, R140). Reset: spec, 0 until the servo runs (R147). -/
  s : Int := 0
  /-- Line time runs: PD4 is powered and reset is released (R127). Reset: spec, it starts at reset release. -/
  running : Bool := false
  /-- Model: draws taken from the on-chip random source so far (R171); the free values are indexed by it. Reset: log 2. -/
  draws : Nat := 0
  deriving DecidableEq, Repr

/-- A calendar slew in progress: where it began, from which offset, and its whole change in ns (R157). -/
structure Slew where
  startLt : Nat
  base : Int
  change : Int
  deriving DecidableEq, Repr

/-- One genlock output (R161, R162). -/
structure Glk where
  /-- Mode 0 off, 1 frame pulse, 2 line pulse (R161). Reset: spec (R166, GLK_STAT). -/
  mode : Nat := 0
  /-- Pulse width, 32 bits, ns (R161). Reset: log 4. -/
  width : Nat := 0
  /-- Line period, 32 bits, ns (R161). Reset: log 4. -/
  linePeriod : Nat := 0
  /-- Lines per frame, 32 bits (R161). Reset: log 4. -/
  lines : Nat := 0
  /-- M, the frame period in cycles (R162). Reset: log 4. -/
  m : Nat := 0
  /-- The output takes its anchor at the next cycle boundary (R162, R165). Reset: none waiting. -/
  anchorDue : Bool := false
  /-- Cycle number of the anchor (R162, R415). Reset: spec, 0 when the mode is 0. -/
  anchor : Nat := 0
  /-- φ in force, ns (R162). Reset: spec, 0 until one is assigned. -/
  phi : Nat := 0
  /-- φ that takes effect at the next frame pulse (R163). Reset: none. -/
  phiNext : Option Nat := none
  /-- A new binding takes its φ at the next cycle boundary (R272). Reset: none waiting. -/
  phiDue : Bool := false
  /-- The stream context bound to the output by CAMERA_BIND (R272). Reset: none. -/
  bound : Option Nat := none
  /-- The present level (R166, GLK_STAT LEVEL). Reset: spec. -/
  level : Bool := false
  /-- The unit drives the ball; otherwise the keeper holds it (R165, R584). Reset: spec, not driven in reset. -/
  driven : Bool := false
  /-- Cycle number of the frame in progress (R162). Reset: log 4. -/
  frameCycle : Nat := 0
  /-- Number of the next line of the frame in progress (R162). Reset: log 4. -/
  line : Nat := 0
  /-- Line time of the start of the frame in progress, and of the rise of the latest pulse (R161, R162). Reset: log 4. -/
  frameLt : Nat := 0
  riseLt : Nat := 0
  /-- The latest pulse is that of line 0 in mode 2, three widths long (R161). Reset: spec, no pulse yet. -/
  wide : Bool := false
  deriving DecidableEq, Repr

/-- The time unit (R126 to R168). -/
structure TimeUnit where
  /-- L, the cycle length in units of 2^-16 ns (R130). Reset: spec, that of FACTORY_SAFE until an image is chosen (R541). -/
  l : Nat := 0x3D0900000
  /-- B, the cycle base, line time in units of 2^-16 ns (R130). Reset: spec. -/
  base : Nat := 0
  /-- The hyper-period in cycles, 1 to 128 (R131). Reset: spec (R541). -/
  hyper : Nat := 1
  /-- The Squeeze in ns, 40 to 400 (R131). Reset: spec (R541). -/
  squeeze : Nat := 100
  /-- A CYCLE_SET that waits for the next cut-over: L, hyper-period and Squeeze (R131). Reset: none. -/
  pendingCycle : Option (Nat × Nat × Nat) := none
  /-- Model: the cycle number last begun (R130, R234). Reset: log 3. -/
  cycle : Nat := 0
  /-- Model: a step or a cut-over has given the present cycle a new number and its boundary is still to be run (R130). Reset: log 3. -/
  boundaryDue : Bool := false
  /-- Model: cycles begun since line time started, counted as they occur (R152). Reset: log 3. -/
  cycles : Nat := 0
  /-- LOCKED of SERVO_STAT (R141). Reset: spec. -/
  locked : Bool := false
  /-- SILENCED of SERVO_STAT (R144). Reset: spec. -/
  silenced : Bool := false
  /-- HOLDOVER of SERVO_STAT (R146). Reset: spec. -/
  holdover : Bool := false
  /-- LINE_A of SERVO_STAT (R166). Reset: spec. -/
  lineA : Bool := false
  /-- LINE_B of SERVO_STAT (R166). Reset: spec. -/
  lineB : Bool := false
  /-- Consecutive cycles within LOCK_IN (R141). Reset: spec, none yet. -/
  lockIn : Nat := 0
  /-- Consecutive cycles beyond LOCK_OUT (R141). Reset: spec, none yet. -/
  lockOut : Nat := 0
  /-- Consecutive cycles with U at most a quarter of the Squeeze (R144). Reset: spec, none yet. -/
  quiet : Nat := 0
  /-- U in units of 2^-16 ns; none while it is unknown and reads 0xFFFF (R143, R148). Reset: spec. -/
  uncert : Option Nat := none
  /-- U as last measured, and the line time of the last valid sample (R143). Reset: log 4. -/
  uLast : Nat := 0
  sampleLt : Nat := 0
  /-- The latest theta in units of 2^-16 ns (R140, SERVO_OFFSET). Reset: spec. -/
  theta : Int := 0
  /-- STEP_TOTAL, the sum of forward steps and leaps in units of 2^-16 ns (R128, R166). Reset: spec. -/
  stepTotal : Nat := 0
  /-- CAL_OFFSET at the last change, signed 64 bits, ns (R154). Reset: spec. -/
  calOffset : Int := 0
  /-- CAL_VALID (R154). Reset: spec. -/
  calValid : Bool := false
  /-- The calendar slew in progress (R157). Reset: none. -/
  slew : Option Slew := none
  /-- CAL_APPLY messages held and not yet applied, in order of arrival (R157, R160). Reset: none. -/
  calPending : List CalApply := []
  /-- CHANGE_ID, the count of changes issued by this position 1, 32 bits (R156). Reset: log 4. -/
  changeId : Nat := 0
  /-- SNAP_STAT VALID, CAL_VALID and COUNT; SNAP_LT with its fraction, SNAP_CAL, SNAP_PHASE (R166). Reset: spec. -/
  snapValid : Bool := false
  snapCalValid : Bool := false
  snapCount : BitVec 16 := 0
  snapLt : Nat := 0
  snapCal : BitVec 64 := 0
  snapPhase : Nat := 0
  /-- The root PLL is locked (R581). Reset: spec, it locks at step 2 of the boot (R531). -/
  pllLocked : Bool := false
  /-- The condition of R420 has held for more than 1,000 ns: source 6 (R436, R581). Reset: spec. -/
  timeLock : Bool := false
  /-- Consecutive cycles in lock since TIME_LOCK was set in the health word (R414). Reset: spec. -/
  lockCycles : Nat := 0
  /-- GLK0 to GLK11 (R161). Reset: spec. -/
  glk : List Glk := List.replicate 12 {}
  deriving DecidableEq, Repr

/-- What Echo keeps for one backbone port (R132 to R139, R167). -/
structure EchoPort where
  /-- PROBE_ID of the last request, 16 bits (R136). Reset: log 4. -/
  probeId : BitVec 16 := 0
  /-- T1 of the request of this cycle (R137). Reset: none sent. -/
  t1 : Option Nat := none
  /-- The valid sample of this cycle: offset in units of 2^-16 ns and SLEW received (R140). Reset: none. -/
  sample : Option (Int × Int) := none
  /-- Delays of the valid samples of the block in progress, in units of 2^-16 ns (R139). Reset: none. -/
  block : List Nat := []
  /-- D is valid (R139). Reset: spec, invalid until a block with 8 samples. -/
  dValid : Bool := false
  /-- D in units of 2^-16 ns (R139). Reset: log 4. -/
  d : Nat := 0
  /-- The port's spread in units of 2^-16 ns (R139). Reset: log 4. -/
  spread : Nat := 0
  /-- Poor blocks in a row (R139). Reset: spec, none. -/
  poorRun : Nat := 0
  /-- Valid samples in the last block, 0 to 16 (R167). Reset: log 4. -/
  lastSamples : Nat := 0
  /-- The last offset sample in units of 2^-16 ns (R167). Reset: log 4. -/
  offset : Int := 0
  /-- The last T3 − T2 in ns (R167). Reset: log 4. -/
  turnaround : Nat := 0
  /-- POSITION and SYNC_STATE of the neighbour's last message (R167). Reset: log 4. -/
  neighPos : Nat := 0
  neighSync : BitVec 8 := 0
  /-- The port was used by the servo in the last cycle (R167). Reset: spec, not used. -/
  used : Bool := false
  /-- PROBES_SENT, RESPONSES and LOST since RSTn, 64 bits each (R167). Reset: spec 0. -/
  sent : Nat := 0
  responses : Nat := 0
  lost : Nat := 0
  /-- Consecutive cycles without a valid sample (R205). Reset: spec, none. -/
  dry : Nat := 0
  /-- Elapsed ps of the last DELAY_DRIFT record of the port (R242). Reset: none written. -/
  driftPs : Option Nat := none
  /-- Recent offsets with their line times, newest first, at most 16 (R218). Reset: none. -/
  track : List (Nat × Int) := []
  deriving DecidableEq, Repr

/-- One row of the neighbour table with the held state of its port (R31, R180, R182). -/
structure NeighPort where
  /-- What the port last heard in SV_HELLO (R175, R179). Reset: spec, nothing heard. -/
  hello : Option SvHello := none
  /-- EPOCH of the last SV_HELLO (R232). Reset: spec, unnumbered. -/
  epoch : Nat := 0xFF
  /-- The port is held out of use under R31. Reset: spec, not held. -/
  crossed : Bool := false
  /-- The port is held out of use under R180. Reset: spec, not held. -/
  split : Bool := false
  /-- The port is a member link of the consist (R124). Reset: spec, unnumbered. -/
  member : Bool := false
  /-- Consecutive cycles of valid D since the link stopped being a member (R198). Reset: spec, none. -/
  regain : Nat := 0
  /-- The link is lost for re-forming (R205). Reset: spec, not lost. -/
  lost : Bool := false
  /-- Line time of the last SV_HELLO sent (R174). Reset: none sent. -/
  helloLt : Option Nat := none
  deriving DecidableEq, Repr

/-- Survey states (R201, R555). -/
inductive SurveyState where
  | boot
  | listen
  | settled
  | claim
  | counted
  | numbered
  | held
  | dark
  | parking
  deriving DecidableEq, Repr

/-- A message relayed in the present cycle: type, origin and round or serial (R172). -/
structure Relayed where
  mtype : Nat
  origin : BitVec 32
  round : BitVec 16
  deriving DecidableEq, Repr

/-- The Survey and the consist in force (R169 to R203, R553 to R556). -/
structure Survey where
  /-- STATE of NODE_STATE, 8 bits (R555). Reset: spec. -/
  state : SurveyState := .boot
  /-- The origin, 32 bits, never 0 once drawn (R171). Reset: spec, drawn at reset release. -/
  origin : BitVec 32 := 0
  /-- The round, 16 bits (R182). Reset: log 4. -/
  round : BitVec 16 := 0
  /-- The nonce of the round, 32 bits (R171). Reset: spec, drawn on entering a round. -/
  nonce : BitVec 32 := 0
  /-- The four backbone ports' neighbour rows, in the order of R259 (R179). Reset: spec, empty. -/
  ports : List NeighPort := List.replicate 4 {}
  /-- Consecutive cycles that meet R183. Reset: spec, none. -/
  settleCycles : Nat := 0
  /-- A forward step was made, or the neighbour table has changed, in this cycle (R183). Reset: spec, none. -/
  stepped : Bool := false
  /-- Claims stored for the round, with the side each arrived on (R186). Reset: none. -/
  claims : List (Side × SvClaim) := []
  /-- The unit's own claims of the round as last made, one for each open side (R184, R187). Reset: none. -/
  ownClaims : List SvClaim := []
  /-- Model: the unit has sent its claim since it entered CLAIM, so that it may decide (R184, R186). Reset: spec, no. -/
  claimSent : Bool := false
  /-- Model: the unit decided that it is the head (R186). Reset: spec, no. -/
  isHead : Bool := false
  /-- The head sends its count at its next Survey chamber (R186, R189). Reset: none due. -/
  countDue : Bool := false
  /-- The head sends its commit at its next Survey chamber (R195). Reset: none due. -/
  commitDue : Bool := false
  /-- HEAD_RULE of the head's comparison (R186, R194). Reset: log 4. -/
  headRule : Nat := 0
  /-- The headward side (R190, R33). Reset: none. -/
  headSide : Option Side := none
  /-- The pending position (R190). Reset: none. -/
  pendingPos : Option Nat := none
  /-- The record stored for the round (R192). Reset: none. -/
  stored : Option Record := none
  /-- The commit that matches it (R196). Reset: none. -/
  commit : Option SvCommit := none
  /-- Cycles since COUNTED was entered (R197). Reset: spec, none. -/
  countedCycles : Nat := 0
  /-- Elapsed ps at which the unit settled or last heard a claim (R188). Reset: log 3. -/
  quietPs : Nat := 0
  /-- Elapsed ps of the last NO_END record of this quiet stretch (R188). Reset: none. -/
  noEndPs : Option Nat := none
  /-- The last epoch the unit held (R195). Reset: spec, none since reset. -/
  lastEpoch : Option Nat := none
  /-- Model: the side of the jumper as it stood at the last cut-over (R124, R181). Reset: none. -/
  jumper : Option Side := none
  /-- What the unit has relayed in the present cycle (R172). Reset: nothing. -/
  relayed : List Relayed := []
  /-- CAB_ACTIVE and CAB_PRESENT as taken under R169. Reset: spec, deasserted. -/
  cabActive : Bool := false
  cabPresent : Bool := false
  /-- Each input has shown one level for 50 ms since reset release (R169). Reset: spec, no. -/
  cabActiveKnown : Bool := false
  cabPresentKnown : Bool := false
  /-- INNER_CAB for the unit's entry (R170). Reset: spec, clear. -/
  innerCab : Bool := false
  /-- The position in force; 0 while unnumbered (R34, R556). Reset: spec. -/
  position : Nat := 0
  /-- The epoch in force; 0xFF while unnumbered (R36, R556). Reset: spec. -/
  epoch : Nat := 0xFF
  /-- The consist record in force (R194). Reset: spec, none. -/
  record : Option Record := none
  /-- The record before the last cut-over, for aliasing (R224). Reset: none. -/
  prevRecord : Option Record := none
  /-- Position and epoch before the last cut-over (R224). Reset: log 4. -/
  prevPosition : Nat := 0
  prevEpoch : Nat := 0xFF
  /-- Cycles of address aliasing left, 0 to 64 (R224). Reset: spec. -/
  aliasLeft : Nat := 0
  /-- Positions before the last cut-over with those that their vehicles hold now; one not listed has left (R123, R224). Reset: none. -/
  aliasMap : Tab Nat := []
  /-- Claims of both ends carried ACTIVE (R187). Reset: spec, no. -/
  conflict : Bool := false
  /-- The last SEQUENCE of the node's own MG frames and of its RC frames, 16 bits (R116). Reset: log 4. -/
  mgSeq : BitVec 16 := 0
  rcSeq : BitVec 16 := 0
  deriving DecidableEq, Repr

/-- A pending re-forming: the record that a unit holds for it (R215, R230). -/
structure Pending where
  record : Record
  keeping : Bool
  reverse : Bool
  units : Nat
  cause : Nat
  subject : BitVec 32
  couplerPos : Nat
  deriving DecidableEq, Repr

/-- Re-forming (R204 to R233). -/
structure Reform where
  /-- REFORM of NODE_STATE, 4 bits (R226). Reset: spec. -/
  phase : Nat := 0
  /-- SERIAL of the last re-forming message originated, 16 bits (R209). Reset: log 4. -/
  serial : BitVec 16 := 0
  /-- The latest JN_END from the end at position 1 and from the other end (R210). Reset: none. -/
  endHead : Option JnEnd := none
  endTail : Option JnEnd := none
  /-- Elapsed ps of the last JN_END sent (R210). Reset: log 3. -/
  endPs : Nat := 0
  /-- The coupler port's side while a merge is offered (R211). Reset: none. -/
  coupler : Option Side := none
  /-- The offer last sent across the coupler, and the one last received with its side (R211, R212). Reset: none. -/
  sentOffer : Option JnOffer := none
  gotOffer : Option (Side × JnOffer) := none
  /-- A refused merge: its side, and the COUNTs of this part and of the other (R213). Reset: none. -/
  refused : Option (Side × Nat × Nat) := none
  /-- A tie waits for the next JN_END (R212). Reset: spec, no. -/
  tie : Bool := false
  /-- The pending record (R215). Reset: none. -/
  pending : Option Pending := none
  /-- The other part's contracts and selections as taken so far, and whether they are whole (R216, R217). Reset: none. -/
  other : List PlContract := []
  contractsHeld : Bool := false
  /-- The shadow plan of the re-forming is complete (R217). Reset: spec, no. -/
  shadowDone : Bool := false
  /-- The latest Δi, SLOPE and AT formed (R218): units of 2^-16 ns, 10^-12, ns. Reset: none. -/
  delta : Option (Int × Int × Nat) := none
  /-- The JN_READY that waits for the shadow plan, with the port it came by (R219). Reset: none. -/
  ready : Option (BPort × JnTrack) := none
  /-- The far end has originated JN_READY (R219). Reset: spec, no. -/
  readySent : Bool := false
  /-- The announcement held (R220). Reset: none. -/
  cutover : Option JnCutover := none
  /-- Sides on which a break has been noticed since the last cut-over (R227, R228). Reset: none. -/
  broken : List Side := []
  deriving DecidableEq, Repr

/-- Kinds of a chamber (R239). -/
inductive ChKind where
  | source
  | forward
  | terminal
  deriving DecidableEq, Repr

/-- One used entry of a chamber table (R239). -/
structure Chamber where
  start : Nat
  kind : ChKind
  lag : Nat
  context : Nat
  epoch : Nat
  maxlen : Nat
  deliver : BitVec 12
  intake : Nat
  mask : BitVec 128
  deriving DecidableEq, Repr

/-- The three banks of one backbone port (R254). -/
structure Banks where
  /-- ACTIVE, at most 4,096 entries of 32 bytes (R239, R254). Reset: spec, empty while unnumbered. -/
  active : List Chamber := []
  /-- RETIRING (R254). Reset: spec, empty. -/
  retiring : List Chamber := []
  /-- SHADOW (R254). Reset: spec, empty. -/
  shadow : List Chamber := []
  deriving DecidableEq, Repr

/-- What the guardian keeps for one ingress (R250 to R253). -/
structure Ingress where
  /-- Violations with the count of cycles at each and its kind, newest first (R251). Reset: spec, none. -/
  violations : List (Nat × Nat) := []
  /-- The ingress is closed to the TT class (R251). Reset: spec, open. -/
  closed : Bool := false
  /-- Consecutive cycles without a violation while closed (R252). Reset: spec, none. -/
  clean : Nat := 0
  /-- A violation was found in the present cycle (R252). Reset: spec, no. -/
  dirty : Bool := false
  deriving DecidableEq, Repr

/-- A TT frame that a backbone ingress has judged to fit its chamber and that is still in the node (R46, R248): `start` and `cycle`
are those of its chamber at the ingress, `first` marks the first chamber of its source cycle, `body` its bytes without FCS and how its
copy's FCS ends once it is whole or cut. A closed ingress drops the frame it judges (R252). A whole line B copy that waits for the tick
to show whether the line A copy completes in it is `tied` (R47). -/
structure TtFlight where
  port : BPort
  context : Nat
  seq : BitVec 16
  epoch : Nat
  sourceCycle : Int
  first : Bool
  start : Nat
  cycle : Int
  forward : Bool
  deliver : BitVec 12
  maxlen : Nat
  sfd : Nat
  arriving : Bool
  sent : Bool
  cut : Bool
  dropped : Bool
  tied : Bool
  body : Option (List Byte × Fcs)
  deriving DecidableEq, Repr

/-- A TT frame that fails a check at its SFD and whose end is still to come: the counter of that check and the kind of
violation, if it is one (R111, R248). -/
structure TtReject where
  port : BPort
  counter : Nat
  kind : Option Nat
  deriving DecidableEq, Repr

/-- A frame in the source queue of a stream: its bytes without the FCS, when it was complete, and whether it
begins and ends a slice unit, with its capture stamp in ns if it carries a valid one (R245, R299 to R303). -/
structure SrcFrame where
  bytes : List Byte
  done : Nat
  begins : Bool
  ends : Bool
  stamp : Option Nat
  deriving DecidableEq, Repr

/-- A sequence window (R117). -/
structure Window where
  primed : Bool := false
  h : BitVec 16 := 0
  b : BitVec 64 := 0
  idle : Nat := 0
  deriving DecidableEq, Repr

/-- What a stream's last source chamber released: its source cycle and number in it, and the frame if it was not empty. -/
structure Released where
  chamber : Option (Int × Nat) := none
  frame : Option (List Byte) := none
  deriving DecidableEq, Repr

/-- The Gallery, its guardian and the windows (R234 to R259, R117 to R119). -/
structure Gallery where
  /-- The banks of LAF, LAR, LBF, LBR (R254). Reset: spec, empty. -/
  banks : List Banks := List.replicate 4 {}
  /-- The SHADOW banks are complete (R257). Reset: spec, no. -/
  shadowComplete : Bool := false
  /-- The swap cycle named and not yet reached, as a cycle number (R254). Reset: none. -/
  swapAt : Option Nat := none
  /-- The cycle number of the last swap (R255, R256). Reset: none. -/
  lastSwap : Option Nat := none
  /-- RETIRING has not been released since the last swap (R255). Reset: spec, no. -/
  retiringHeld : Bool := false
  /-- Model: the hyper-period that RETIRING was planned for, and what a cycle number lacks of its former count modulo it,
  after a cut-over that changes the cycle (R121, R131). Reset: none. -/
  retHyper : Nat := 1
  retShift : Nat := 0
  /-- The node waits for a complete SHADOW (R257). Reset: spec, no. -/
  waiting : Bool := false
  /-- A joining unit releases no TT frame from this line time on, three cycles before its own CUTOVER (R221). Reset: none. -/
  quietFrom : Option Nat := none
  /-- The 16 ingresses in the order of R259 (R250). Reset: spec, open. -/
  ingress : List Ingress := List.replicate 16 {}
  /-- Chambers that have accepted a frame: port index, START, cycle by the count of cycles as they occur (R248). Reset: none. -/
  accepted : List (Nat × Nat × Int) := []
  /-- Accepted frames still in the node (R46). Reset: none. -/
  flights : List TtFlight := []
  /-- Frames now arriving that a check has failed at their SFD (R111, R248). Reset: none. -/
  rejects : List TtReject := []
  /-- What each stream's last source chamber released, by context: source cycle, number of the chamber in it, frame;
  the other ports of that chamber send the same (R45, R245). Reset: none. -/
  released : Tab Released := []
  /-- The source queues of CP0 to CP11, oldest first, at most 8 frames (R245). Reset: spec, empty. -/
  queues : List (List SrcFrame) := List.replicate 12 []
  /-- SEQUENCE of each stream's next release, by context (R101). Reset: spec 0. -/
  nextSeq : Tab (BitVec 16) := []
  /-- Streams that release nothing until this count of cycles, by context (R425). Reset: none. -/
  muteUntil : Tab Nat := []
  /-- TT windows by context (R117, R118). Reset: spec, unprimed. -/
  ttWin : Tab Window := []
  /-- RC windows by 256 × epoch + position (R119). Reset: spec, unprimed. -/
  rcWin : Tab Window := []
  /-- MG windows by 256 × epoch + position (R119). Reset: spec, unprimed. -/
  mgWin : Tab Window := []
  deriving DecidableEq, Repr

/-- A stream context: its canonical form and its local bytes (R262). -/
structure Ctx where
  canon : Canon
  cause : Nat
  intake : Nat
  phase : Nat
  /-- The stream is DEAD and its source vehicle has left: its SRC_POS names no vehicle of this consist (R225). -/
  gone : Bool := false
  deriving DecidableEq, Repr

/-- A request that position 1 holds, or that the accepting node has sent (R264, R267). -/
structure Request where
  msg : PlRequest
  tag : Option (BitVec 8)
  answered : Bool
  deriving DecidableEq, Repr

/-- The plan that comes into force at a swap cycle: its last SERIAL, contexts and selections (R265, R266, R282). -/
structure Stage where
  swap : Nat
  serial : Nat
  ctxs : Tab Ctx
  sels : Tab (BitVec 256)
  /-- It was rebuilt from records under R290: every stream whose entries changed loses its windows. -/
  sync : Bool := false
  deriving DecidableEq, Repr

/-- The planner (R260 to R293). -/
structure Planner where
  /-- The 256 stream contexts (R262). Reset: spec, FREE. -/
  ctxs : Tab Ctx := []
  /-- Selections by position (R270). Reset: spec, all ones. -/
  selections : Tab (BitVec 256) := []
  /-- The plans named and not yet in force, ascending swap cycle; the first is the SHADOW plan (R265, R266). Reset: none. -/
  staged : List Stage := []
  /-- The record as it stood at the last cut-over, which placement reads (R242, R275). Reset: none. -/
  record : Option Record := none
  /-- Requests waiting at position 1, in arrival order (R264, R267). Reset: none. -/
  requests : List Request := []
  /-- The commands of this node that wait for a PL_RESULT or for S (R264). Reset: none. -/
  waiting : List Request := []
  /-- REQ_ID of the next request, 16 bits (R292). Reset: log 4. -/
  reqId : Nat := 0
  /-- SERIAL of the last change this node has taken (R264, R286). Reset: spec 0 at each cut-over. -/
  lastSerial : Nat := 0
  /-- SERIAL in force, for the digest (R286). Reset: spec 0. -/
  inForce : Nat := 0
  /-- The swap cycle last named (R256, R265). Reset: none. -/
  lastS : Nat := 0
  /-- The plan digest, 32 bits (R286). Reset: log 4. -/
  digest : BitVec 32 := 0
  /-- Plan-silenced under R289 (R554). Reset: spec. -/
  silenced : Bool := false
  /-- The silence is that of a standby whose digest differs (R291). Reset: spec, no. -/
  silencedTwin : Bool := false
  /-- Reports of the present round at position 1 (R287). Reset: none. -/
  reports : List PlDigest := []
  /-- AGREE and AGREE_MAP of the last PL_TALLY (R289, R290). Reset: log 4. -/
  agree : Nat := 0
  agreeMap : BitVec 64 := 0
  /-- PL_CONTRACT messages still to be sent, to their address (R263, R290). Reset: none. -/
  flood : List (Mac × PlContract) := []
  /-- PL_CONTRACT items taken so far in a cold start, merge or resynchronisation (R263, R290). Reset: none. -/
  taken : List PlContract := []
  /-- The contracts of the last cold start are all taken, or none are to come (R263). Reset: spec, no. -/
  coldDone : Bool := false
  /-- The unit resynchronises (R290). Reset: spec, no. -/
  syncing : Bool := false
  /-- Count of cycles at which the records were last asked for or one of them last came (R290). Reset: none. -/
  syncAt : Nat := 0
  /-- Digest and LAST_SERIAL in force at the boundary of the last cycle with k mod 32 = 0 (R287). Reset: log 4. -/
  roundDigest : BitVec 32 := 0
  roundSerial : Nat := 0
  deriving DecidableEq, Repr

/-- A frame at the cab: sequence, source cycle, bytes as the backbone carries them, the copies rebuilt for the DELIVER ports once it has
been passed on, whether it begins and ends a unit, capture stamp (R307, R309). -/
structure CabFrame where
  seq : BitVec 16
  cycle : Int
  bytes : List Byte
  copies : Tab (List Byte)
  begins : Bool
  ends : Bool
  stamp : Option Nat
  mask : BitVec 12
  deriving DecidableEq, Repr

/-- What the VSU keeps for one context (R294 to R322). Source cycles are given by the count of cycles as they occur (R152). -/
structure Vsu where
  /-- Form 0 to 2 and codec 0 or 1 in force (R294). Reset: log 4. -/
  form : Nat := 0
  codec : Nat := 0
  /-- VSU_CONFIG has named the context (R294). Reset: spec, no. -/
  configured : Bool := false
  /-- A setting that takes effect at the next cycle boundary (R294). Reset: none. -/
  due : Option (Nat × Nat) := none
  /-- Source: frames are discarded until one begins a slice unit (R304, R305). Reset: spec, restarting. -/
  restart : Bool := true
  /-- Source: the last frame accepted left its slice unit open (R299). Reset: spec, no. -/
  unitOpen : Bool := false
  /-- Source: the rest of the unit now arriving is discarded after a cut (R304). Reset: spec, no. -/
  cutting : Bool := false
  /-- Source: the source cycle that the unit being released is bound to (R303). Reset: none. -/
  boundCycle : Option Int := none
  /-- Source: capture stamp of the unit being released (R308). Reset: none. -/
  srcStamp : Option Nat := none
  /-- Cab: SEQUENCE of the last frame passed on; none lets the next frame pass as it comes (R307). Reset: none. -/
  last : Option (BitVec 16) := none
  /-- Cab: frames held after a gap, in order of SEQUENCE (R307). Reset: none. -/
  held : List CabFrame := []
  /-- Cab: frames passed on of the units whose D has not passed (R306). Reset: none. -/
  passed : List CabFrame := []
  /-- Cab: source cycles whose unit has had a frame held, so that it counts as out of order once (R307). Reset: none. -/
  heldUnits : List Int := []
  /-- Cab: source cycles whose unit is good and whose D has not passed (R306). Reset: none. -/
  good : List Int := []
  /-- Cab: the used source cycles that have begun and whose D is still to pass, with D in line time (R302, R306). Reset: none. -/
  dues : List (Int × Nat) := []
  /-- Cab: the last source cycle whose D has passed (R307). Reset: none. -/
  closed : Option Int := none
  /-- Cab: the first source cycle that the VSU orders, and whether frames of those before it are delivered plain, else discarded
  (R294, R314, R317, R318). Reset: log 4. -/
  since : Int := 0
  sincePlain : Bool := true
  /-- Cab: the source cycle from which a swap has ended the service (R315). Reset: none. -/
  endsAt : Option Int := none
  /-- Cab: the DELIVER mask of the service that ends (R315). Reset: none. -/
  endMask : BitVec 12 := 0
  /-- Cab: the store, the frames of the most recent good slice, each as rebuilt for its DELIVER ports (R309). Reset: spec, empty. -/
  store : List (Tab (List Byte)) := []
  /-- Cab: consecutive misses, and those of them that fell while the unit was standby (R312, R427). Reset: spec 0. -/
  misses : Nat := 0
  owed : Nat := 0
  /-- Cab: buffers are allotted; the stream is delivered plain for want of them (R318). Reset: spec, neither. -/
  allotted : Bool := false
  plain : Bool := false
  /-- Age of the last good slice, 32 bits; HOLD repetitions and units out of order, 16 bits each (R321). Reset: spec 0. -/
  age : Nat := 0
  holds : BitVec 16 := 0
  disorder : BitVec 16 := 0
  /-- Elapsed ps of the last record of each limited code, and occurrences since (R320). Reset: none. -/
  limits : Tab (Nat × Nat) := []
  deriving DecidableEq, Repr

/-- A frame of a transmit ring whose descriptors are still to be written back: ring, first descriptor, their number, and
whether its FIRST descriptor sets STAMP (R354, R355). -/
structure TxTag where
  ring : Nat
  desc : Nat
  count : Nat
  stamp : Bool
  deriving DecidableEq, Repr

/-- A write-back that stalls: the frame, its flags and its stamp as line time (R355). -/
structure Stall where
  tag : TxTag
  flags : Nat
  at_ : Option Nat
  deriving DecidableEq, Repr

/-- One entry of a car port's transmit queue (R338, R354, R355): `hold` is the context of a HOLD repetition. -/
structure TxFrame where
  bytes : List Byte
  joined : Nat
  /-- The transmit-ring frame that it is (R354). -/
  tx : Option TxTag := none
  hold : Option Nat := none
  /-- The car port a BE frame came in by, and its length there: bytes held at ingress until it starts (R345). -/
  src : Option (Nat × Nat) := none
  /-- The last frame of a good slice at the port that measures its age: context and capture stamp (R308). -/
  slice : Option (Nat × Option Nat) := none
  deriving DecidableEq, Repr

/-- One entry of a gate list (R341). -/
structure Gate where
  gates : BitVec 32
  interval : Nat
  deriving DecidableEq, Repr

/-- Link states of PORT_STATUS (R326). -/
inductive LinkState where
  | disabled
  | training
  | up
  | upLpi
  | failed
  deriving DecidableEq, Repr

/-- A unicast filter (R334). -/
structure Filter where
  enable : Bool := false
  addr : Mac := 0
  deriving DecidableEq, Repr

/-- A wake pattern (R357). -/
structure WakePattern where
  check : BitVec 16 := 0
  mask : BitVec 128 := 0
  deriving DecidableEq, Repr

/-- A token bucket (R335): rate in bit/s, burst in bytes, content in units of 10^-12 byte, and the elapsed ps of
the last refill. -/
structure Bucket where
  /-- RC_RATE, 32 bits, bit/s (R335). Reset: spec, the default. -/
  rate : Nat := 20000000
  /-- RC_BURST, 32 bits, bytes (R335). Reset: spec, the default. -/
  burst : Nat := 3044
  /-- Content in units of 10^-12 byte (R335). Reset: spec, full. -/
  level : Nat := 3044000000000000
  /-- Model: elapsed ps of the last refill (R335). Reset: log 3. -/
  atPs : Nat := 0
  deriving DecidableEq, Repr

/-- One car port (R323 to R359). -/
structure CarPort where
  /-- Mode 0 to 5 (R323). Reset: spec 0 (R541). -/
  mode : Nat := 0
  /-- Flags: [0] RX_KEEP_BAD, [1] low-power idle, [2] per-priority pause (R323). Reset: spec 0 (R541); log 4. -/
  flags : BitVec 3 := 0
  /-- Role 0 automatic, 1 master, 2 slave (R324). Reset: log 4. -/
  role : Nat := 0
  /-- Link state (R326). Reset: spec, DISABLED. -/
  link : LinkState := .disabled
  /-- Elapsed ps at which the training under way, or FAILED, began (R325). Reset: log 3. -/
  linkPs : Nat := 0
  /-- The learned local address (R96). Reset: spec, none. -/
  learned : Option Mac := none
  /-- 32 perfect-match filters (R334). Reset: log 4, disabled. -/
  filters : Tab Filter := []
  /-- 16 wake patterns (R357). Reset: spec, an all-zero mask is disabled; log 4. -/
  patterns : Tab WakePattern := []
  /-- The gate list in force; empty before the first GATE_LIST_SET (R342). Reset: spec. -/
  gates : List Gate := []
  /-- Index of the gate entry in effect (R342). Reset: log 4. -/
  gateIdx : Nat := 0
  /-- Line time at which the next entry takes effect (R342). Reset: log 4. -/
  gateNext : Nat := 0
  /-- A list loaded and not in force: the tag of its command if one waits, the cycle number of its boundary, the list (R343). Reset: none. -/
  gateDue : Option (Option (BitVec 8) × Nat × List Gate) := none
  /-- The 32 egress queues, oldest first (R338). Reset: spec, empty. -/
  queues : List (List TxFrame) := List.replicate 32 []
  /-- The frame on the wire (R340). Reset: none. -/
  sending : Option TxFrame := none
  /-- Queue of the frame on the wire (R340). Reset: log 4. -/
  sendingQ : Nat := 0
  /-- Line time at which the port is free for its next frame (R340). Reset: log 4. -/
  freeAt : Nat := 0
  /-- Streams assigned to the TT queues, in ascending context order (R339). Reset: spec, none. -/
  ttStreams : List Nat := []
  /-- The policer (R335). Reset: spec. -/
  bucket : Bucket := {}
  /-- FLOOD bit (R337). Reset: spec, set. -/
  floodBit : Bool := true
  /-- LEAD of the VIDEO section, ns (R285). Reset: spec 0. -/
  lead : Nat := 0
  /-- Elapsed ps until which each of queues 0 to 7 is paused (R345). Reset: spec, not paused. -/
  pausedUntil : List Nat := List.replicate 8 0
  /-- The last pause frame sent stopped the partner (R345), and the elapsed ps at which it left. Reset: spec, no; log 3. -/
  pausing : Bool := false
  pausePs : Nat := 0
  /-- The partner's accepted Receive Tw in ns; none before an EEE TLV or above 100,000 ns (R346). Reset: spec, none. -/
  partnerTw : Option Nat := none
  /-- IEEE 802.1AS is enabled (R348). Reset: log 4. -/
  asOn : Bool := false
  /-- Elapsed ps of the last valid Pdelay_Resp, or of the enabling (R359). Reset: log 3. -/
  asPeerPs : Nat := 0
  /-- AS_NO_PEER (R359). Reset: spec, deasserted. -/
  asNoPeer : Bool := false
  /-- Write-backs that stall; those with a stamp hold the entries of the 64-entry time-stamp FIFO (R355). Reset: spec, empty. -/
  stalls : List Stall := []
  /-- Receive and transmit ring bound to the port (R350). Reset: spec, none. -/
  rxRing : Option Nat := none
  txRing : Option Nat := none
  /-- Counters by offset / 8, 64 bits each (R358). Reset: spec 0. -/
  counters : Tab Nat := []
  deriving DecidableEq, Repr

/-- A frame queued at a backbone egress, without its FCS (R338). -/
structure BbFrame where
  bytes : List Byte
  pcp : Nat
  rc : Bool
  /-- The car port a BE frame came in by, and its length there (R345). -/
  src : Option (Nat × Nat) := none
  /-- The transmit-ring frame that it is (R354). -/
  tx : Option TxTag := none
  deriving DecidableEq, Repr

/-- One backbone port (R125, R326, R338). -/
structure BbPort where
  /-- The link is up (R326). Reset: spec, TRAINING. -/
  up : Bool := false
  /-- MG frames queued (R236, R338). Reset: spec, empty. -/
  mg : List MgFrame := []
  /-- RC and BE frames queued, in order of arrival (R247, R338). Reset: spec, empty. -/
  general : List BbFrame := []
  /-- Line time at which the wire is free (R236). Reset: log 4. -/
  freeAt : Nat := 0
  /-- Counters by offset / 8, 64 bits each (R125). Reset: spec 0. -/
  counters : Tab Nat := []
  deriving DecidableEq, Repr

/-- One DMA ring (R350, R351). -/
structure Ring where
  /-- The port it is bound to, 0x80 for the host station (R350). Reset: spec, unbound. -/
  port : Option Nat := none
  /-- The host that bound it (R350). Reset: log 4. -/
  host : HostId := .pcie
  /-- n of its 2^n entries (R350). Reset: log 4. -/
  log2 : Nat := 4
  /-- Its base (R350). Reset: log 4. -/
  base : Nat := 0
  /-- Head and tail, 12 bits each (R351). Reset: spec 0 on binding. -/
  head : Nat := 0
  tail : Nat := 0
  /-- It is being unbound, for the command with this tag (R350). Reset: none. -/
  unbinding : Option (BitVec 8) := none
  deriving DecidableEq, Repr

/-- The host's DMA rings (R350 to R356). -/
structure Rings where
  /-- 64 receive rings (R350). Reset: spec, unbound. -/
  rx : Tab Ring := []
  /-- 64 transmit rings (R350). Reset: spec, unbound. -/
  tx : Tab Ring := []
  /-- Frames read from transmit rings whose descriptors are still to be written back (R354). Reset: none. -/
  owed : List TxTag := []
  /-- Rings of the host station (R350). Reset: spec, none. -/
  hostRx : Option Nat := none
  hostTx : Option Nat := none
  /-- Frames lost by a dry host-station ring since the last HOST_RING_DRY record, and its elapsed ps (R356). Reset: none. -/
  hostDry : Nat := 0
  hostDryPs : Option Nat := none
  deriving DecidableEq, Repr

/-- One station-table entry (R362). -/
structure Station where
  addr : Option Mac := none
  pinned : Bool := false
  deriving DecidableEq, Repr

/-- One multidrop segment (R360 to R377). -/
structure MdSeg where
  /-- Mode 0 CSMA/CD, 1 PLCA (R370). Reset: spec 0 (R373). -/
  mode : Nat := 0
  /-- PLCA node ID, node count and burst count (R370). Reset: log 4. -/
  nodeId : Nat := 0
  count : Nat := 1
  burst : Nat := 0
  /-- A configuration that takes effect at the end of the frame in progress (R373): its tag, none for the image. Reset: none. -/
  due : Option (Option (BitVec 8) × Nat × Nat × Nat × Nat) := none
  /-- In PLCA_FALLBACK (R372). Reset: spec, no. -/
  fallback : Bool := false
  /-- 32 station-table entries (R362). Reset: spec, empty. -/
  stations : Tab Station := []
  /-- The LEARN bit (R362). Reset: log 4. -/
  learn : Bool := false
  /-- FLOOD bit (R337, R365). Reset: spec, set. -/
  floodBit : Bool := true
  /-- The policer (R364). Reset: spec, the default. -/
  bucket : Bucket := { rate := 1000000, burst := 1522, level := 1522000000000000 }
  /-- 8 egress queues of frames without FCS (R367). Reset: spec, empty. -/
  queues : List (List (List Byte)) := List.replicate 8 []
  /-- The frame in progress or waiting for its next attempt: queue, bytes (R368). Reset: none. -/
  current : Option (Nat × List Byte) := none
  /-- The frame is on the pair (R368). Reset: spec, no. -/
  onPair : Bool := false
  /-- Collisions of the present frame (R368). Reset: spec 0. -/
  collisions : Nat := 0
  /-- Elapsed ps at which the backoff wait ends (R368). Reset: none. -/
  backoffPs : Option Nat := none
  /-- Elapsed ps at which the interframe gap after the last carrier is over (R368). Reset: log 3. -/
  freePs : Nat := 0
  /-- Frames the node may still send in its opportunity (R371). Reset: spec, none. -/
  credit : Nat := 0
  /-- Elapsed ps of the last valid BEACON (R372). Reset: log 3. -/
  beaconPs : Nat := 0
  /-- Counters by offset / 8, 64 bits each (R376). Reset: spec 0. -/
  counters : Tab Nat := []
  deriving DecidableEq, Repr

/-- States of a CAN controller (R384). -/
inductive CanState where
  | off
  | integrating
  | errorActive
  | errorPassive
  | busOff
  | alone
  | listenOnly
  | standby
  deriving DecidableEq, Repr

/-- A received CAN frame with its stamp (R389, R390). -/
structure CanRx where
  frame : CanFrame
  sof : Word
  sofLt : Nat
  lost : Bool
  new : Bool
  deriving DecidableEq, Repr

/-- One message buffer of a CAN controller (R386 to R391, R393). -/
structure CanBuffer where
  /-- The 32-byte definition, KIND first (R386). Reset: spec, disabled (R383). -/
  kind : Nat := 0
  format : Byte := 0
  accept : Byte := 0
  ctrl : Byte := 0
  ident : Word := 0
  mask : Word := 0
  length : Nat := 0
  sdt : Byte := 0
  vcid : Byte := 0
  af : Word := 0
  afMask : Word := 0
  data : List Byte := []
  /-- Main slot and shadow (R389). Reset: spec, empty. -/
  main : Option CanRx := none
  shadow : Option CanRx := none
  /-- Elapsed ps at which the buffer was locked (R391). Reset: not locked. -/
  locked : Option Nat := none
  /-- The buffer is pending (R393), and how: by the matrix or by a CAN_TX_AT with this tag. Reset: spec, no. -/
  pending : Bool := false
  txTag : Option (BitVec 8) := none
  /-- Target line time in ns and late limit (R394, R395). Reset: log 4. -/
  target : Nat := 0
  late : Nat := 0
  /-- An attempt has started since the buffer became pending (R401). Reset: spec, no. -/
  attempted : Bool := false
  /-- The content that a retransmission after an error sends (R397). Reset: spec, none. -/
  kept : Option CanFrame := none
  /-- Consecutive attempts that ended in a clash; suspended (R402). Reset: spec, none. -/
  clashes : Nat := 0
  suspended : Bool := false
  deriving DecidableEq, Repr

/-- One non-empty entry of the schedule matrix (R398). -/
structure Cell where
  row : Nat
  col : Nat
  start : Nat
  buffer : Nat
  kind : Nat
  deriving DecidableEq, Repr

/-- The schedule matrix: its basic cycle and its non-empty entries (R398). -/
structure Matrix where
  bc : Nat
  cells : List Cell
  deriving DecidableEq, Repr

/-- A wake filter (R405). -/
structure WakeFilter where
  dlc : Nat := 0
  flags : Byte := 0
  ident : Word := 0
  mask : Word := 0
  dataMask : BitVec 64 := 0
  deriving DecidableEq, Repr

/-- One CAN controller (R378 to R408). -/
structure CanCtl where
  /-- Mode 0 to 3 and listen-only (R379). Reset: spec 0 (R383). -/
  mode : Nat := 0
  listenOnly : Bool := false
  /-- The bit timing, command bytes 20 to 31 (R380). Reset: log 4. -/
  timing : List Byte := []
  /-- A configuration that takes effect when the frame in progress ends: tag, mode byte, timing (R379). Reset: none. -/
  due : Option (Option (BitVec 8) × Byte × List Byte) := none
  /-- State (R384). Reset: spec OFF (R383). -/
  state : CanState := .off
  /-- The controller integrates until the bus is idle after a protocol exception, in the state it has (R381). Reset: spec, no. -/
  awaitsIdle : Bool := false
  /-- TEC and REC (R384). Reset: spec 0 while OFF; log 4. -/
  tec : Nat := 0
  recv : Nat := 0
  /-- Consecutive acknowledgement errors (R384). Reset: spec, none. -/
  ackErrors : Nat := 0
  /-- The one attempt of this cycle in ALONE is still to be made (R385). Reset: spec, no. -/
  aloneTry : Bool := false
  /-- 128 message buffers (R386). Reset: spec, disabled. -/
  buffers : Tab CanBuffer := []
  /-- The four receive FIFOs, oldest first (R392). Reset: spec, empty. -/
  fifos : List (List CanRx) := List.replicate 4 []
  /-- The matrix in force (R398). Reset: none. -/
  matrix : Option Matrix := none
  /-- A matrix that takes effect at a boundary: tag, cycle count, matrix (R399). Reset: none. -/
  matrixDue : Option (Option (BitVec 8) × Nat × Option Matrix) := none
  /-- Row in progress, and the count of cycles at which it began (R400). Reset: log 4. -/
  row : Nat := 0
  rowCycle : Nat := 0
  /-- The matrix restarts at row 0 at the next boundary (R400). Reset: spec, no. -/
  restart : Bool := false
  /-- Column whose window is open (R401). Reset: none. -/
  column : Option Nat := none
  /-- The buffer on the bus: its number, SOF stamp and content (R393, R397). Reset: none. -/
  sending : Option (Nat × Word × CanFrame) := none
  /-- C_b and LT_b, latched at each cycle boundary (R403). Reset: log 4. -/
  cb : Word := 0
  ltb : Nat := 0
  /-- C_b, LT_b and the rate of the earlier cycles, newest first, for a frame whose SOF lies in one of them (R404). Reset: none. -/
  past : List (Word × Nat × Nat) := []
  /-- 8 wake filters of CX0 and CX1, and those taken at the last Park entry (R405). Reset: log 4. -/
  wake : Tab WakeFilter := []
  wakeArmed : Tab WakeFilter := []
  /-- The channel's wake decoder runs (R406). Reset: spec, off. -/
  decoder : Bool := false
  /-- Elapsed ps of the last CAN_ALONE and CAN_COMPANY records (R385). Reset: none. -/
  alonePs : Option Nat := none
  companyPs : Option Nat := none
  deriving DecidableEq, Repr

/-- Roles of a unit (R409, R422). -/
inductive Role where
  | starting
  | active
  | standby
  deriving DecidableEq, Repr

/-- Twin redundancy (R409 to R434). -/
structure Twin where
  /-- The role (R422). Reset: spec STARTING. -/
  role : Role := .starting
  /-- The unit drives ACTL low (R418). Reset: spec, released. -/
  drivesActl : Bool := false
  /-- ACTL as read through the filter, high when true (R418). Reset: log 4, the pull-up's level. -/
  actlHigh : Bool := true
  /-- Bits YIELDING, TAKEOVER, HANDOVER, REVERT_REQ, LANE_FAULT and CONFIG_FAULT of the health word (R414). Reset: spec. -/
  yielding : Bool := false
  takeover : Bool := false
  handover : Bool := false
  revertReq : Bool := false
  laneFault : Bool := false
  configFault : Bool := false
  /-- MIRROR_AGE (R414). Reset: spec 0xFF. -/
  mirrorAge : Nat := 0xFF
  /-- Bits ACTL_FAULT, SETTINGS_STALE and IMAGE_DIFF (R414). Reset: spec. -/
  actlFault : Bool := false
  settingsStale : Bool := false
  imageDiff : Bool := false
  /-- Bits SELFTEST_FAIL, WATCHDOG, TIME_LOCK, GUARDIAN_SELF and FABRIC_ECC (R414). Reset: spec. -/
  selftestFail : Bool := false
  watchdog : Bool := false
  /-- Model: elapsed ps at which the watchdog fired (R528). Reset: log 3. -/
  firedPs : Nat := 0
  timeLock : Bool := false
  guardianSelf : Bool := false
  fabricEcc : Bool := false
  /-- HB_SEQ of the last heartbeat sent (R413). Reset: log 4. -/
  hbSeq : BitVec 16 := 0
  /-- Model: elapsed ps at which the last heartbeat left, and at which the last one came (R414, R418). Reset: log 3. -/
  sentPs : Nat := 0
  heardPs : Nat := 0
  /-- Model: elapsed ps at which the wait W began (R422). Reset: log 3. -/
  waitPs : Nat := 0
  /-- The partner's last HEARTBEAT (R413). Reset: spec, none received (R554, PAIRED). -/
  partner : Option Heartbeat := none
  /-- Consecutive valid heartbeats since LANE_FAULT was set (R414). Reset: spec, none. -/
  goodBeats : Nat := 0
  /-- A part-code or ORIENT mismatch is in force; a PREF fault is in force (R20, R40). Reset: spec, no. -/
  mismatch : Bool := false
  prefFault : Bool := false
  /-- The last CYCLE_MIRROR received (R416). Reset: none. -/
  mirror : Option Mirror := none
  /-- The instant A of the takeover under way, line time in units of 2^-16 ns (R424). Reset: none. -/
  takeoverAt : Option Nat := none
  /-- Cycles since the takeover boundary (R414). Reset: log 4. -/
  takeoverCycles : Nat := 0
  /-- The takeover boundary c_a while its numbering may still come from the mirror of c_a, with the case of R425 that holds
  without it: TWIN_TAKEOVER is still to be written. Reset: none. -/
  numbering : Option (Nat × Nat) := none
  /-- The handover cycle announced or acknowledged; 0 when none (R413, R429). Reset: spec 0. -/
  handoverCycle : Nat := 0
  handoverAck : Bool := false
  /-- The TWIN_YIELD in flight (R429). Reset: none. -/
  yieldTag : Option (BitVec 8) := none
  /-- The handover answers a REVERT_REQ (R430). Reset: spec, no. -/
  reverting : Bool := false
  /-- Elapsed ps since which the conditions of R430 hold. Reset: none. -/
  revertPs : Option Nat := none
  /-- Commands whose SETTINGS wait for the ACK: the tag, none for a setting sent again, the message, and the elapsed ps of its
  sending (R417). Reset: none. -/
  awaiting : List (Option (BitVec 8) × Settings × Nat) := []
  /-- The settings in force that R417 sends again when the lane returns, oldest first. Reset: none. -/
  inForce : List Settings := []
  /-- A final mirror is owed at the next boundary (R423). Reset: spec, no. -/
  finalMirror : Bool := false
  /-- Levels of DOUT7 to DOUT0, and whether the unit drives them (R409, R415, R428). Reset: log 4; spec, not driven. -/
  dout : BitVec 8 := 0
  doutDriven : Bool := false
  deriving DecidableEq, Repr

/-- SRC_CFG of one source (R439, R451). -/
structure SrcCfg where
  prio : Nat := 0
  target : Nat := 0
  deriving DecidableEq, Repr

/-- One target of the event router (R443, R444, R451). -/
structure Target where
  /-- THRESHOLD, 4 bits (R443). Reset: spec. -/
  threshold : Nat := 0
  /-- The stack of claimed sources with their priorities, top first (R444). Reset: spec, empty. -/
  stack : List (Nat × Nat) := []
  /-- The request as last signalled (R446). Reset: spec, false. -/
  request : Bool := false
  /-- ASLEEP of TGT_STAT, cores only (R448). Reset: spec. -/
  asleep : Bool := false
  deriving DecidableEq, Repr

/-- One vector of the MSI-X table (R447, R552). -/
structure Msix where
  addr : BitVec 64 := 0
  data : Word := 0
  masked : Bool := true
  deriving DecidableEq, Repr

/-- The event router (R435 to R452). -/
structure Router where
  /-- Pending bits of the edge sources, 641 bits (R437). Reset: spec. -/
  pend : BitVec 641 := 0
  /-- Mask bits, 641 bits; those of absent sources read 0 (R437, R451). Reset: spec, 1 for present sources. -/
  mask : BitVec 641 := BitVec.allOnes 641
  /-- In-service flags, 641 bits (R437). Reset: spec. -/
  service : BitVec 641 := 0
  /-- INT_WAKE, 641 bits (R448, R451). Reset: spec. -/
  wake : BitVec 641 := 0
  /-- SRC_CFG by source ID (R439). Reset: spec 0. -/
  cfg : Tab SrcCfg := []
  /-- T0 to T15 (R439). Reset: spec. -/
  targets : List Target := List.replicate 16 {}
  /-- INT_FAULT_INFO (R451). Reset: spec. -/
  faultValid : Bool := false
  faultOverrun : Bool := false
  faultTarget : Nat := 0
  faultExpected : Nat := 0
  faultGiven : Nat := 0
  /-- INT_FAULT_COUNT, 32 bits (R451). Reset: spec. -/
  faultCount : Nat := 0
  /-- The MSI-X table, 10 vectors (R447, R552). Reset: spec, masked; log 4. -/
  msix : List Msix := List.replicate 10 {}
  /-- The MSI-X pending bit array, 10 bits (R447). Reset: spec 0. -/
  pba : BitVec 10 := 0
  /-- Function mask, device power state D0 and Bus Master Enable (R447). Reset: log 4, as PCI Express has them. -/
  functionMask : Bool := false
  d0 : Bool := true
  busMaster : Bool := false
  /-- Levels that no other field holds: TEMP_HIGH by sensor (R436). Reset: spec, not asserted. -/
  tempHigh : BitVec 2 := 0
  deriving DecidableEq, Repr

/-- A Flowstone record, 32 bytes (R454). -/
structure LogRec where
  seq : BitVec 32
  ltUs : BitVec 52
  calUs : BitVec 52
  code : Nat
  source : BitVec 10
  repeats : Nat
  last : Nat
  data : List Byte
  deriving DecidableEq, Repr

/-- The open record's own times: creation and latest occurrence, line time in ns (R459). -/
structure OpenRec where
  createdNs : Nat
  latestNs : Nat
  /-- REPEAT and LAST as MRAM holds them (R462). -/
  saved : Nat × Nat := (0, 0)
  deriving DecidableEq, Repr

/-- Flowstone (R453 to R476). -/
structure Flow where
  /-- The records held, oldest first: the log region in MRAM, or the volatile ring in degraded mode (R453, R473). Reset: spec, MRAM is kept (R529); log 5. -/
  log : List LogRec := []
  /-- The front buffer: records of `log` not yet in MRAM, counted from the newest, 0 to 64 (R453, R475). Reset: spec 0. -/
  front : Nat := 0
  /-- The newest record is open (R460). Reset: spec, no. -/
  open_ : Option OpenRec := none
  /-- The open record has repeats that MRAM does not hold (R462). Reset: spec, no. -/
  dirty : Bool := false
  /-- The next sequence number (R457). Reset: spec, kept; log 5. -/
  next : BitVec 32 := 0
  /-- SEQ_NEXT of PD0 (R457). Reset: spec, PD0 is reset at power-on. -/
  seqNext : BitVec 32 := 0
  /-- LOG_DEGRADED (R473). Reset: spec. -/
  degraded : Bool := false
  /-- The records in MRAM while a volatile ring is kept in degraded mode, oldest first (R473). Reset: none. -/
  kept : List LogRec := []
  /-- Stored records whose CRC fails at the next start, as the MRAM has them (R465). Reset: log 5. -/
  badRecords : Nat := 0
  /-- The address at which the log region fails at the next start, if it does (R473). Reset: log 5. -/
  regionFault : Option Word := none
  /-- The address of the failure that led to degraded mode (R470, R473). Reset: log 4. -/
  faultAddr : Word := 0
  /-- Model: elapsed ps of the last rewrite of the open record (R462). Reset: none. -/
  rewritePs : Option Nat := none
  /-- FLW_LOST, 32 bits (R463, R475). Reset: spec. -/
  lost : Nat := 0
  /-- Events lost since the last LOG_LOST record (R463). Reset: spec, none. -/
  lostSince : Nat := 0
  /-- FLW_CURSOR and the record in FLW_DATA0 to FLW_DATA7 (R472, R475). Reset: spec. -/
  cursor : BitVec 32 := 0
  loaded : Option LogRec := none
  /-- CURSOR_MOVED and CURSOR_OPEN (R475). Reset: spec. -/
  moved : Bool := false
  loadedOpen : Bool := false
  /-- The Sump, at most 8 entries, and SUMP_LOST (R474, R475). Reset: spec, empty at power-on. -/
  sump : List LogRec := []
  sumpLost : Nat := 0
  deriving DecidableEq, Repr

/-- The latest result of a self-test (R493). -/
structure TestResult where
  kind : TestKind := .logic
  outcome : Nat := 0
  complete : Bool := false
  folded : Bool := false
  target : Bool := false
  autonomous : Bool := false
  boot : Bool := false
  patterns : Nat := 0
  misr : BitVec 64 := 0
  endNs : Nat := 0
  slices : Nat := 0
  detail : BitVec 16 := 0
  lost : Nat := 0
  measure1 : Int := 0
  measure2 : Int := 0
  deriving DecidableEq, Repr

/-- A test under way (R484, R490, R495). -/
structure Test where
  block : Nat
  kind : TestKind
  origin : Nat
  tag : Option (BitVec 8)
  slices : Nat
  patterns : Nat
  misr : BitVec 64
  lost : Nat
  running : Bool
  startPs : Nat
  endPs : Nat
  loops : List Nat
  failed : BitVec 16
  returned : Nat
  /-- The test ends as cut short when the slice in progress ends, its ST_RUN with this cause (R484, R490). -/
  cut : Option Nat := none
  deriving DecidableEq, Repr

/-- One entry of the autonomous plan (R495). -/
structure PlanEntry where
  block : Nat
  kind : Nat
  roles : BitVec 2
  period : Nat
  /-- Elapsed ps at which it falls due next (R495). -/
  duePs : Nat
  overdue : Bool
  deriving DecidableEq, Repr

/-- Self-test and life-cycle (R477 to R500). -/
structure SelfTest where
  /-- The three stored life-cycle copies (R478). Reset: spec, kept; log 5. -/
  copies : List Word := [0xFE01, 0xFE01, 0xFE01]
  /-- The life-cycle code in force (R477, LC_STAT). Reset: spec, the stored state; log 5. -/
  lc : Nat := 1
  /-- LC_READ_FAULT (R478). Reset: spec. -/
  readFault : Bool := false
  /-- The sealed keys: owner public key and maintenance key (R481). Reset: spec, kept; log 5. -/
  keys : Option (List Byte × List Byte) := none
  /-- Quarantine bits of blocks 0 to 33, kept in MRAM (R486, R487). Reset: spec, kept; log 5. -/
  quarantine : BitVec 34 := 0
  /-- The latest result of each block (R493). Reset: spec, never run. -/
  results : Tab TestResult := []
  /-- The tests under way, host-run and autonomous (R484). Reset: none. -/
  tests : List Test := []
  /-- Elapsed ps at which the last slice ended (R490). Reset: log 3. -/
  sliceEndPs : Nat := 0
  /-- An autonomous slice has started in this cycle (R496). Reset: spec, no. -/
  cycleSlice : Bool := false
  /-- The autonomous plan (R495). Reset: spec, none without an image. -/
  plan : List PlanEntry := []
  /-- Loopbacks that the image enables, for each Ethernet port (R484, R536). Reset: spec, near-end digital and analogue. -/
  loopEnable : List (BitVec 3) := List.replicate 16 3
  /-- ST_STAT BLOCK and SLICES; ST_LAST_FAIL; ST_FAIL_COUNT; ST_SLICE_COUNT (R498). Reset: spec. -/
  statBlock : Nat := 0
  statSlices : Nat := 0
  lastFail : Word := 0
  failCount : Nat := 0
  sliceCount : Nat := 0
  /-- The node is Dark, and the block that made it so (R497). Reset: spec, no. -/
  dark : Option Nat := none
  deriving DecidableEq, Repr

/-- Power modes (R501). -/
inductive Mode where
  | run
  | doze
  | parking
  | park
  | deepPark
  | unpowered
  deriving DecidableEq, Repr

/-- Power, sleep and wake (R501 to R527). -/
structure Power where
  /-- The power mode (R501, PWR_STAT MODE). Reset: spec Run. -/
  mode : Mode := .run
  /-- Domains powered, bit n for PDn (R501, PWR_STAT DOMAINS). Reset: spec, for the 0x9640. -/
  domains : BitVec 14 := 0x3FFD
  /-- DOMAIN_SET has turned PD11 off, so that the end of Doze leaves it off (R501, R503). Reset: spec, no. -/
  vsuOff : Bool := false
  /-- A domain being switched: its number, the level it takes, and the command's tag (R503). Reset: none. -/
  switching : Option (Nat × Bool × Option (BitVec 8)) := none
  /-- WAKE_EN, 32 bits (R510). Reset: spec. -/
  wakeEn : BitVec 32 := 0x7FF
  /-- WAKE_LATCH, 32 bits (R510, R525). Reset: spec. -/
  wakeLatch : BitVec 32 := 0x800
  /-- HOLD of PWR_HOLD (R525). Reset: spec. -/
  hold : Bool := false
  /-- LANTERN reads high (R511). Reset: spec, source 615 not asserted. -/
  lantern : Bool := false
  /-- PARK_LIMIT in seconds; 0 means never (R509). Reset: spec (R541). -/
  parkLimit : Nat := 0
  /-- Elapsed ps at which the park timer started (R508). Reset: log 3. -/
  parkPs : Nat := 0
  /-- The mode that the Park entry under way leads to, 2 or 3 (R508). Reset: log 4. -/
  parkTarget : Nat := 2
  /-- WAKE_OUT is high (R502). Reset: spec, high in Run. -/
  wakeOut : Bool := true
  /-- BYPA and BYPB are high, so the relays are open (R586, R587). Reset: spec, low until PLL lock. -/
  bypA : Bool := false
  bypB : Bool := false
  /-- The islands are armed (R508, R520). Reset: spec, off. -/
  islands : Bool := false
  /-- SLEEP_STAT PHASE, VETO_POS and SLEEP_ID (R525). Reset: spec. -/
  sleepPhase : Nat := 0
  vetoPos : Nat := 0
  sleepId : BitVec 16 := 0
  /-- SLEEP_INSTANT, line time in ns (R525). Reset: spec. -/
  instant : Nat := 0
  /-- The votes that position 1 holds: position, rank, ready (R515). Reset: none. -/
  votes : List (Nat × Nat × Bool) := []
  /-- The NET_SLEEP in flight (R512). Reset: none. -/
  sleepTag : Option (BitVec 8) := none
  /-- Readiness as last voted (R514). Reset: none voted. -/
  voted : Option Bool := none
  /-- A vote, a proposal, an instant or a veto is to be sent in the next Survey chamber (R514 to R516). Reset: none. -/
  voteDue : Bool := false
  proposeDue : Bool := false
  instantDue : Bool := false
  vetoDue : Bool := false
  /-- The INSTANT of a sleep that the unit has cancelled (R517). Reset: none. -/
  cancelled : Option Nat := none
  /-- Attempts of R521 in progress: WAKE_OUT is held low after a rail fault. Reset: spec, no. -/
  railHold : Bool := false
  /-- Model: elapsed ps at which WAKE_OUT last rose, or fell under R521. Reset: log 3. -/
  railPs : Nat := 0
  /-- The unit starts after a wake: firmware writes WAKE (R522). Reset: spec, no. -/
  waking : Bool := false
  deriving DecidableEq, Repr

/-- A seal record: GENERATION and IMAGE_CRC, with the two checks that reading it makes (R534, R538). -/
structure Seal where
  sealWord : Word
  generation : Word
  imageCrc : Word
  check : Word
  deriving DecidableEq, Repr

/-- One image slot of MRAM (R533). -/
structure Slot where
  /-- The bytes of the slot, up to 256 KiB (R533). Reset: spec, kept; log 5. -/
  image : List Byte := []
  /-- Its seal record; none when unsealed (R534). Reset: spec, kept; log 5. -/
  sealRec : Option Seal := none
  /-- The slot reads without an MRAM error (R538). Reset: log 5. -/
  readable : Bool := true
  deriving DecidableEq, Repr

/-- A forwarding-database entry (R336). -/
structure FdbEntry where
  vid : Nat
  addr : Mac
  mask : BitVec 12
  host : Bool
  localOnly : Bool
  deriving DecidableEq, Repr

/-- A VIDEO entry of the image (R536). -/
structure Video where
  port : Nat
  glk : Nat
  form : Nat
  codec : Nat
  lead : Nat
  deriving DecidableEq, Repr

/-- Start-up and the configuration store (R528 to R549). -/
structure Store where
  /-- Slots 0 to 2 (R533). Reset: spec, kept; log 5. -/
  slots : List Slot := List.replicate 3 {}
  /-- The slot in force; none for FACTORY_SAFE (R540, R547). Reset: spec, FACTORY_SAFE without a valid slot; log 5. -/
  slot : Option Nat := none
  /-- A slot or FACTORY_SAFE has been chosen since reset (R557, SLOT 0xE until step 7). Reset: spec. -/
  chosen : Bool := false
  /-- GENERATION in force, 32 bits (R547). Reset: spec, 0 for FACTORY_SAFE. -/
  generation : Nat := 0
  /-- CONFIG_SPLIT at the last boot (R547). Reset: spec, no. -/
  splitSeen : Bool := false
  /-- CAUSE of BOOT_STAT, 4 bits (R528, R557). Reset: spec, power-on. -/
  cause : Nat := 1
  /-- STEP of BOOT_STAT, 8 bits (R557). Reset: spec. -/
  step : Nat := 1
  /-- SERVICE of NODE_STATE (R554, R561). Reset: spec. -/
  service : Bool := false
  /-- RSTn is low (R528). Reset: log 4, high. -/
  rstLow : Bool := false
  /-- The rails are good and reset is released (R521). Reset: spec, held in reset. -/
  released : Bool := false
  /-- Straps as sampled (R573). Reset: spec, sampled at reset release; log 4. -/
  orient : Bool := false
  pref : Bool := false
  clksel : Bool := false
  /-- The CONFIG_COMMIT under way: tag, target slot, image (R543). Reset: none. -/
  commit : Option (BitVec 8 × Nat × List Byte) := none
  /-- The forwarding database (R336). Reset: spec, empty (R541). -/
  fdb : List FdbEntry := []
  /-- Contracts of the image in force, in image order (R263, R536). Reset: spec, none (R541). -/
  contracts : List Contract := []
  /-- VIDEO entries of the image in force (R536). Reset: spec, none. -/
  video : List Video := []
  /-- The VIDEO entries act at the next cycle boundary (R536). Reset: spec, no. -/
  videoDue : Bool := false
  /-- Keys of the image's KEYS section, if it has one (R481, R536). Reset: spec, none. -/
  imageKeys : Option (List Byte × List Byte) := none
  /-- L, hyper-period, Squeeze of the image in force (R195, R536). Reset: spec (R541). -/
  imageCycle : Nat × Nat × Nat := (0x3D0900000, 1, 100)
  deriving DecidableEq, Repr

/-- The registers of the window that no unit holds (R550 to R569). -/
structure Regs where
  /-- SCRATCH_PCIE and SCRATCH_SPI (R558). Reset: spec. -/
  scratchPcie : Word := 0
  scratchSpi : Word := 0
  /-- BAD_ACCESS_INFO (R559). Reset: spec. -/
  badValid : Bool := false
  badOverrun : Bool := false
  badWrite : Bool := false
  badSpi : Bool := false
  badOff : Nat := 0
  /-- The PCIe endpoint trains or is up (R560, R588). Reset: spec, it trains from step 2 of the boot. -/
  pcieUp : Bool := false
  /-- PE_RSTn is low (R588). Reset: log 4, high. -/
  perstLow : Bool := false
  /-- The TAP's instruction (R590). Reset: log 4, BYPASS. -/
  jtag : JtagInstr := .bypass
  deriving DecidableEq, Repr

/-- The state of the block. -/
structure State where
  /-- The part (R1, R4). Reset: log 1. -/
  part : Part := .zy9640
  /-- MINOR of ID_REV, 8 bits (R4). Reset: log 1. -/
  minor : BitVec 8 := 0
  clk : Clock := {}
  cmdq : Cmdq := {}
  time : TimeUnit := {}
  /-- Echo of LAF, LAR, LBF, LBR (R132). Reset: spec. -/
  echo : List EchoPort := List.replicate 4 {}
  survey : Survey := {}
  reform : Reform := {}
  gallery : Gallery := {}
  planner : Planner := {}
  /-- The VSU's contexts by number (R294). Reset: spec, none configured. -/
  vsu : Tab Vsu := []
  /-- LAF, LAR, LBF, LBR (R6). Reset: spec. -/
  bb : List BbPort := List.replicate 4 {}
  /-- CP0 to CP11 (R6). Reset: spec. -/
  car : List CarPort := List.replicate 12 {}
  rings : Rings := {}
  /-- MD0 and MD1 (R6). Reset: spec. -/
  md : List MdSeg := List.replicate 2 {}
  /-- CX0 to CX3 (R6). Reset: spec. -/
  can : List CanCtl := List.replicate 4 {}
  twin : Twin := {}
  router : Router := {}
  flow : Flow := {}
  test : SelfTest := {}
  power : Power := {}
  store : Store := {}
  regs : Regs := {}
  /-- The SPI address space above the window: the rings of SQ6, SQ7 and CQ3 and the buffer area, bytes (R67). Reset: log 7, reads 0. -/
  ram : Memory := []
  /-- Model: what the last command sent to the outside world, in order. Reset: nothing. -/
  out : List Out := []
  /-- Model: the commands waiting, first in, first out. Reset: empty. -/
  pending : List Instr := []
  deriving DecidableEq, Repr

/-- The block right after reset: every field at its default, which is its reset value. -/
def State.reset : State := {}

end Sys2Proof.Machine
end

