-- ==== Sys2Proof/Machine/Ops.lean ====
section
/-! DEFINITION. The operations that every command shares: tables and memory in canonical form, byte order,
the two CRCs, the clocks, events and Flowstone records, and what leaves the block. -/

namespace Sys2Proof.Machine

/-! ### Tables and memory -/

/-- The entry of a number; `d` where none is listed. -/
def tabGet {α : Type} (d : α) : Tab α → Nat → α
  | [], _ => d
  | (k, v) :: t, n => if k = n then v else tabGet d t n

/-- A table with one entry written; writing `d` removes the entry. -/
def tabSet {α : Type} [DecidableEq α] (d : α) : Tab α → Nat → α → Tab α
  | [], n, x => if x = d then [] else [(n, x)]
  | (k, v) :: t, n, x =>
    if n < k then (if x = d then (k, v) :: t else (n, x) :: (k, v) :: t)
    else if n = k then (if x = d then t else (n, x) :: t)
    else (k, v) :: tabSet d t n x

/-- Every number of the table lies above `n`, and they rise strictly. -/
def tabAbove {α : Type} : Option Nat → Tab α → Bool
  | _, [] => true
  | none, (k, _) :: t => tabAbove (some k) t
  | some n, (k, _) :: t => decide (n < k) && tabAbove (some k) t

/-- The canonical form: numbers strictly rising, no entry equal to `d`. -/
def tabWf {α : Type} [DecidableEq α] (d : α) (t : Tab α) : Bool :=
  tabAbove none t && t.all fun e => decide (e.2 ≠ d)

/-- A table with one entry changed by a function. -/
def tabUpd {α : Type} [DecidableEq α] (d : α) (t : Tab α) (n : Nat) (f : α → α) : Tab α :=
  tabSet d t n (f (tabGet d t n))

/-- The entry of a number, if one is listed. -/
def tabFind {α : Type} (t : Tab α) (n : Nat) : Option α := (t.find? fun e => e.1 == n).map fun e => e.2

/-- A table with an entry listed under a number in place of any other. -/
def tabPut {α : Type} : Tab α → Nat → α → Tab α
  | [], n, x => [(n, x)]
  | (k, v) :: t, n, x => if n < k then (n, x) :: (k, v) :: t else if n = k then (n, x) :: t else (k, v) :: tabPut t n x

/-- A table without the entry of a number. -/
def tabDel {α : Type} (t : Tab α) (n : Nat) : Tab α := t.filter fun e => e.1 != n

/-- The canonical form of the node memory of R67. -/
def Memory.wf (m : Memory) : Bool := tabWf (0 : Byte) m

/-- One byte of node memory (R67); a byte that nothing has written reads 0 (log 7). -/
def memByte (m : Memory) (a : Nat) : Byte := tabGet 0 m a

/-- `n` bytes from an address. -/
def memRead (m : Memory) (a : Nat) : Nat → List Byte
  | 0 => []
  | n + 1 => memByte m a :: memRead m (a + 1) n

/-- Bytes written from an address upward. -/
def memWrite (m : Memory) (a : Nat) : List Byte → Memory
  | [] => m
  | b :: bs => memWrite (tabSet 0 m a b) (a + 1) bs

/-- `n` bytes set to zero from an address upward: every listed byte of the range is removed (R63). -/
def memZero (m : Memory) (a n : Nat) : Memory := m.filter fun c => !(decide (a ≤ c.1) && decide (c.1 < a + n))

/-! ### Numbers and bytes -/

/-- `n` bytes of a number, least significant first (R24). -/
def le : Nat → Nat → List Byte
  | 0, _ => []
  | n + 1, x => BitVec.ofNat 8 x :: le n (x / 256)

/-- The number that bytes spell, least significant first (R24). -/
def unle : List Byte → Nat
  | [] => 0
  | b :: bs => b.toNat + 256 * unle bs

/-- `n` bytes of a number in network order (R24). -/
def be (n x : Nat) : List Byte := (le n x).reverse

/-- The number that bytes spell in network order. -/
def unbe (bs : List Byte) : Nat := unle bs.reverse

/-- Bytes `i` to `i + n - 1` of a list; bytes beyond its end are left out. -/
def slice (bs : List Byte) (i n : Nat) : List Byte := (bs.drop i).take n

/-- The little-endian field of `n` bytes at `i`. -/
def fld (bs : List Byte) (i n : Nat) : Nat := unle (slice bs i n)

/-- The network-order field of `n` bytes at `i`. -/
def nfld (bs : List Byte) (i n : Nat) : Nat := unbe (slice bs i n)

/-- A number of a signed quantity in `bits` bits of two's complement. -/
def twos (bits : Nat) (x : Int) : Nat := (x % (2 ^ bits : Int)).toNat

/-- The signed quantity that a number of `bits` bits spells in two's complement. -/
def untwos (bits n : Nat) : Int :=
  if n % 2 ^ bits < 2 ^ (bits - 1) then ((n % 2 ^ bits : Nat) : Int) else ((n % 2 ^ bits : Nat) : Int) - (2 ^ bits : Nat)

/-- A number that stays at the top of its `bits`-bit range. -/
def sat (bits n : Nat) : Nat := min n (2 ^ bits - 1)

/-- Bit `i` of a number. -/
def bitOf (n i : Nat) : Bool := n.testBit i

/-- Field [hi:lo] of a number. -/
def bits (n hi lo : Nat) : Nat := n / 2 ^ lo % 2 ^ (hi + 1 - lo)

/-- A flag at bit `i`. -/
def flagAt (b : Bool) (i : Nat) : Nat := if b then 2 ^ i else 0

/-- A list with its first `n` entries only, filled up with `d`. -/
def padTo (n : Nat) (d : Byte) (bs : List Byte) : List Byte := (bs ++ List.replicate (n - bs.length) d).take n

/-- One step of the CRC-16 of R28 over one bit. -/
def crc16Bit (c : BitVec 16) (b : Bool) : BitVec 16 :=
  if c.msb != b then (c <<< 1) ^^^ 0x1021 else c <<< 1

/-- The CRC-16 of R28 over one byte, most significant bit first. -/
def crc16Byte (c : BitVec 16) (b : Byte) : BitVec 16 :=
  [7, 6, 5, 4, 3, 2, 1, 0].foldl (fun c i => crc16Bit c (b.getLsbD i)) c

/-- The CRC-16 of R28. -/
def crc16 (bs : List Byte) : BitVec 16 := bs.foldl crc16Byte 0xFFFF

/-- One step of the reflected CRC-32 of IEEE 802.3 over one bit (R28). -/
def crc32Bit (c : BitVec 32) : BitVec 32 := if c.getLsbD 0 then (c >>> 1) ^^^ 0xEDB88320 else c >>> 1

/-- The CRC-32 over one byte. -/
def crc32Byte (c : BitVec 32) (b : Byte) : BitVec 32 :=
  crc32Bit (crc32Bit (crc32Bit (crc32Bit (crc32Bit (crc32Bit (crc32Bit (crc32Bit (c ^^^ b.setWidth 32))))))))

/-- The CRC-32 of IEEE 802.3 (R28). -/
def crc32 (bs : List Byte) : BitVec 32 := ~~~(bs.foldl crc32Byte 0xFFFFFFFF)

/-- How the last four bytes of a frame compare with the CRC-32 of the rest: good, marked (R109: the complement), or bad. -/
def fcsOf (frame : List Byte) : Fcs :=
  let body := frame.take (frame.length - 4)
  let got := fld frame (frame.length - 4) 4
  if got = (crc32 body).toNat then .good else if got = (~~~(crc32 body)).toNat then .marked else .bad

/-- A frame without its FCS. -/
def stripFcs (frame : List Byte) : List Byte := frame.take (frame.length - 4)

/-- A frame with a good FCS appended (R28, R110). -/
def withFcs (body : List Byte) : List Byte := body ++ le 4 (crc32 body).toNat

/-- A frame with a marked FCS appended (R109). -/
def withMark (body : List Byte) : List Byte := body ++ le 4 (~~~(crc32 body)).toNat

/-- A MAC address in wire order (R93). -/
def macBytes (m : Mac) : List Byte := be 6 m.toNat

/-- The MAC address that six bytes spell in wire order. -/
def macOf (bs : List Byte) : Mac := BitVec.ofNat 48 (unbe bs)

/-! ### Ports -/

/-- The state of a car port. -/
def carAt (s : State) (n : Nat) : CarPort := s.car.getD n {}

/-- One car port changed. -/
def setCar (n : Nat) (f : CarPort → CarPort) (s : State) : State := { s with car := s.car.modify n f }

/-- The state of a backbone port. -/
def bbAt (s : State) (p : BPort) : BbPort := s.bb.getD p.idx {}

/-- One backbone port changed. -/
def setBb (p : BPort) (f : BbPort → BbPort) (s : State) : State := { s with bb := s.bb.modify p.idx f }

/-- The Echo state of a backbone port. -/
def echoAt (s : State) (p : BPort) : EchoPort := s.echo.getD p.idx {}

/-- The Echo state of one port changed. -/
def setEcho (p : BPort) (f : EchoPort → EchoPort) (s : State) : State := { s with echo := s.echo.modify p.idx f }

/-- The neighbour row of a backbone port. -/
def neighAt (s : State) (p : BPort) : NeighPort := s.survey.ports.getD p.idx {}

/-- One neighbour row changed. -/
def setNeigh (p : BPort) (f : NeighPort → NeighPort) (s : State) : State :=
  { s with survey := { s.survey with ports := s.survey.ports.modify p.idx f } }

/-- The state of a segment. -/
def mdAt (s : State) (n : Nat) : MdSeg := s.md.getD n {}

/-- One segment changed. -/
def setMd (n : Nat) (f : MdSeg → MdSeg) (s : State) : State := { s with md := s.md.modify n f }

/-- The state of a CAN controller. -/
def canAt (s : State) (n : Nat) : CanCtl := s.can.getD n {}

/-- One CAN controller changed. -/
def setCan (n : Nat) (f : CanCtl → CanCtl) (s : State) : State := { s with can := s.can.modify n f }

/-- The state of a genlock output. -/
def glkAt (s : State) (n : Nat) : Glk := s.time.glk.getD n {}

/-- One genlock output changed. -/
def setGlk (n : Nat) (f : Glk → Glk) (s : State) : State :=
  { s with time := { s.time with glk := s.time.glk.modify n f } }

/-- The counter at an offset of a table of 64-bit counters goes up (R125, R358, R376). -/
def bump (off : Nat) (t : Tab Nat) : Tab Nat := tabUpd 0 t (off / 8) fun n => sat 64 (n + 1)

/-- A counter goes up by an amount. -/
def bumpBy (off k : Nat) (t : Tab Nat) : Tab Nat := tabUpd 0 t (off / 8) fun n => sat 64 (n + k)

/-- A counter of a backbone port goes up (R125). -/
def countBb (p : BPort) (off : Nat) (s : State) : State := setBb p (fun b => { b with counters := bump off b.counters }) s

/-- A counter of a car port goes up (R358). -/
def countCar (n off : Nat) (s : State) : State := setCar n (fun c => { c with counters := bump off c.counters }) s

/-- A counter of a segment goes up (R376). -/
def countMd (n off : Nat) (s : State) : State := setMd n (fun m => { m with counters := bump off m.counters }) s

/-! ### Presence -/

/-- Twin units exist on the part (R6). -/
def hasTwin (p : Part) : Bool := p != .zy9620

/-- The VSU exists on the part (R6). -/
def hasVsu (p : Part) : Bool := p == .zy9640

/-- Number of car ports of a part code (R6). -/
def carPorts (part : Nat) : Nat := if part = 0x9620 then 8 else 12

/-- Number of CAN controllers of a part code (R6). -/
def canCtls (part : Nat) : Nat := if part = 0x9620 then 2 else 4

/-- Number of genlock outputs of a part code (R6). -/
def glkOuts (part : Nat) : Nat := if part = 0x9640 then 12 else 4

/-- Domains populated on the part (R6, R14), bit n for PDn. -/
def populated (p : Part) : BitVec 14 :=
  match p with
  | .zy9640 => 0x3FFF
  | .zy9630 => 0x37FF
  | .zy9620 => 0x25FF

/-- A domain is powered (R503, R525). -/
def powered (s : State) (d : Nat) : Bool := s.power.domains.getLsbD d

/-- A block of the self-test engine exists on the part (R13, R483). -/
def blockPresent (p : Part) (b : Nat) : Bool :=
  if 20 ≤ b && b ≤ 23 || b = 28 || b = 29 || b = 31 then p != .zy9620
  else if b = 30 then p == .zy9640
  else decide (b < 34)

/-- A block is quarantined (R486). -/
def quarantined (s : State) (b : Nat) : Bool := s.test.quarantine.getLsbD b

/-- A block is under test: a slice or a loopback run on it is in progress (R484). -/
def underTest (s : State) (b : Nat) : Bool := s.test.tests.any fun t => t.block == b && t.running

/-- A block serves: it is not quarantined, and neither it nor the fabric is in a slice, in which frames that reach it are lost
(R484, R486). -/
def inService (s : State) (b : Nat) : Bool := !quarantined s b && !underTest s b && !underTest s 5

/-! ### The clocks -/

/-- Whole nanoseconds of line time, LT_NS (R126). -/
def ltNs (s : State) : Nat := s.clk.lt / unitsPerNs

/-- The rate of line time in parts of 10^-12 of the reference (R126, R129). -/
def rate (s : State) : Nat := ((10 : Int) ^ 12 + s.clk.f + s.clk.s).toNat

/-- `d` ps of the reference pass (R126, R129). -/
def advancePs (d : Nat) (s : State) : State :=
  let num := d * unitsPerNs * rate s + s.clk.ltRem
  if s.clk.running then
    { s with clk := { s.clk with ps := s.clk.ps + d, lt := s.clk.lt + num / 10 ^ 15, ltRem := num % 10 ^ 15 } }
  else { s with clk := { s.clk with ps := s.clk.ps + d } }

/-- The instant at which `ps` of the reference have passed, if it is still to come. -/
def toPs (ps : Nat) (s : State) : State := advancePs (ps - s.clk.ps) s

/-- The instant at which line time reaches `lt`, if it is still to come. Line time never goes back (R128). -/
def toLt (lt : Nat) (s : State) : State :=
  if s.clk.lt < lt ∧ s.clk.running then
    { s with clk := { s.clk with
        ps := s.clk.ps + (lt - s.clk.lt) * 10 ^ 15 / (unitsPerNs * rate s), lt := lt, ltRem := 0 } }
  else s

/-- The FABCLK period in ps (R126). -/
def fabclkPs : Nat := 1600

/-- The elapsed ps at which line time reads `lt`, at the present rate (R126). -/
def psAt (s : State) (lt : Nat) : Nat :=
  if s.clk.lt ≤ lt then s.clk.ps + (lt - s.clk.lt) * 10 ^ 15 / (unitsPerNs * rate s)
  else s.clk.ps - (s.clk.lt - lt) * 10 ^ 15 / (unitsPerNs * rate s)

/-- The FABCLK tick in which a line time falls: two instants between the same two ticks have one number (R126). -/
def tickOf (s : State) (lt : Nat) : Nat := (psAt s lt + Config.fabclkPhase.val) / fabclkPs

/-- The first FABCLK tick at or after now (R126). -/
def toTick (s : State) : State :=
  advancePs ((fabclkPs - (s.clk.ps + Config.fabclkPhase.val) % fabclkPs) % fabclkPs) s

/-- The number of the cycle that a line time lies in (R130). A line time before B counts as cycle 0. -/
def cycleOf (s : State) (lt : Nat) : Nat := (lt - s.time.base) / s.time.l

/-- The present cycle number k (R130, R234). -/
def cycleNow (s : State) : Nat := cycleOf s s.clk.lt

/-- Line time of the boundary of a cycle (R130). -/
def boundary (s : State) (k : Nat) : Nat := s.time.base + k * s.time.l

/-- A cycle by the count of cycles as they occur, which no step, leap or cut-over renumbers (R152). -/
def cycleTag (s : State) (k : Nat) : Int := s.time.cycles + b2n s.time.boundaryDue + k - s.time.cycle

/-- Line time of the boundary of a cycle given by that count. -/
def tagBoundary (s : State) (t : Int) : Nat := (s.time.base + (cycleNow s + (t - cycleTag s (cycleNow s))) * s.time.l).toNat

/-- Line time since the last boundary, in units of 2^-16 ns. -/
def phaseOf (s : State) (lt : Nat) : Nat := (lt - s.time.base) % s.time.l

/-- The instant of a phase of the present cycle, if it is still to come (R133, R235). -/
def toPhase (t : Nat) (s : State) : State := toLt (boundary s (cycleNow s) + t) s

/-- CAL_OFFSET in force, in ns (R154, R157): a slew moves 1 ns in each 5,000 ns of line time. -/
def calOffsetNow (s : State) : Int :=
  match s.time.slew with
  | none => s.time.calOffset
  | some w =>
    let moved : Nat := min w.change.natAbs ((ltNs s - w.startLt) / 5000)
    if w.change < 0 then w.base - moved else w.base + moved

/-- Calendar time in ns, modulo 2^64 (R154). -/
def calNs (s : State) : Nat := twos 64 ((ltNs s : Int) + calOffsetNow s)

/-- 64 random bits are drawn (R83, R171). -/
def drawn (s : State) : BitVec 64 := Config.random64 s.clk.draws

/-- The count of draws goes up. -/
def draw (s : State) : State := { s with clk := { s.clk with draws := s.clk.draws + 1 } }

/-! ### Event sources -/

/-- Edge sources (R168, R201, R259, R322, R359, R377, R408, R434, R436, R476, R500, R527), those of absent units included. -/
def edgeId (id : Nat) : Bool :=
  if id < 64 then id = 1 || id = 2 || id = 7 || id = 9
  else if id < 96 then 67 ≤ id && id ≤ 81
  else if id < 128 then id = 97 || id = 98 || id = 100 || id = 102 || id = 104
  else if id < 384 then
    let o := id % 16
    if id < 144 then o = 0 || o = 2 || o = 3 || o = 4 || o = 8
    else if id < 192 then o = 0 || o = 8
    else o = 0 || (2 ≤ o && o ≤ 6) || o = 8 || o = 10 || o = 13
  else if id < 448 then
    let o := id % 32
    o = 0 || (2 ≤ o && o ≤ 5)
  else if id < 512 then
    let o := id % 16
    o = 0 || o = 3 || (8 ≤ o && o ≤ 14)
  else if id < 544 then id = 512 || id = 518
  else if id < 576 then id = 544 || id = 545 || id = 547
  else if id < 608 then id = 578 || id = 579 || id = 580
  else 608 ≤ id && id ≤ 611 || id = 614

/-- Sources of absent units (R12). -/
def absentId (p : Part) (id : Nat) : Bool :=
  (p == .zy9620 && ((320 ≤ id && id ≤ 383) || (480 ≤ id && id ≤ 543)))
  || (p != .zy9640 && ((74 ≤ id && id ≤ 81) || (192 ≤ id && id ≤ 383 && (id % 16 = 12 || id % 16 = 13))))

/-- A source that the router shows as an edge source (R437, R451). -/
def isEdge (p : Part) (id : Nat) : Bool := edgeId id && !absentId p id

/-- The switchable domain that a source's unit lies in, if any (R501, R503). -/
def domainOfId (id : Nat) : Option Nat :=
  if 192 ≤ id && id ≤ 383 then some (7 + (id - 192) / 64)
  else if 384 ≤ id && id ≤ 511 then some 10
  else if 512 ≤ id && id ≤ 543 then some 12
  else none

/-- The source can assert: its unit is present and its domain is powered (R12, R503). -/
def canAssert (s : State) (id : Nat) : Bool :=
  !absentId s.part id && match domainOfId id with
    | some d => powered s d
    | none => true

/-- An edge source asserts: its pending bit is set (R437). -/
def assertEdge (id : Nat) (s : State) : State :=
  if isEdge s.part id && canAssert s id then
    { s with router := { s.router with pend := s.router.pend ||| BitVec.twoPow 641 id } }
  else s

/-- The edge source at an offset of a port's block asserts (R259). -/
def assertPort (p : EPort) (off : Nat) (s : State) : State := assertEdge (128 + 16 * p.num + off) s

/-! ### Flowstone records -/

/-- SOURCE values (R455). -/
def srcNode : BitVec 10 := 0

/-- SOURCE of a port, segment, controller or output. -/
def srcPort (code : Nat) : BitVec 10 := BitVec.ofNat 10 (0x100 + code % 256)

/-- SOURCE of a stream context. -/
def srcCtx (k : Nat) : BitVec 10 := BitVec.ofNat 10 (0x200 + k % 256)

/-- SOURCE of a position. -/
def srcPos (p : Nat) : BitVec 10 := BitVec.ofNat 10 (0x300 + p % 256)

/-- LT_US now (R456). -/
def ltUs (s : State) : BitVec 52 := BitVec.ofNat 52 (ltNs s / 1000)

/-- CAL_US now (R456). -/
def calUs (s : State) : BitVec 52 :=
  if s.time.calValid then BitVec.ofNat 52 (calNs s / 1000) else 0xFFFFFFFFFFFFF

/-- A record as the event would create it now (R454, R456). -/
def newRec (code : Nat) (src : BitVec 10) (data : List Byte) (seq : BitVec 32) (s : State) : LogRec :=
  { seq := seq, ltUs := ltUs s, calUs := calUs s, code := code, source := src, repeats := 0, last := 0,
    data := padTo 8 0 data }

/-- The event is a repeat of the open record (R459). -/
def isRepeat (code : Nat) (src : BitVec 10) (data : List Byte) (s : State) : Bool :=
  match s.flow.open_, s.flow.log.getLast? with
  | some o, some r =>
    r.code == code && r.source == src && r.data == padTo 8 0 data && decide (ltNs s - o.latestNs ≤ 1000000000)
  | _, _ => false

/-- The newest record with one more repeat (R459). -/
def repeatRec (now : Nat) (o : OpenRec) (r : LogRec) : LogRec :=
  { r with repeats := r.repeats + 1, last := (now - o.createdNs) / 16000000 }

/-- The capacity of the log: the region of R453, or the volatile ring of R473. -/
def logCap (f : Flow) : Nat := if f.degraded then 2048 else 16384

/-- A repeat is taken (R459, R460): REPEAT 255 closes the record. -/
def flowRepeat (now : Nat) (f : Flow) : Flow :=
  match f.open_, f.log.getLast? with
  | some o, some r =>
    let r' := repeatRec now o r
    { f with log := f.log.dropLast ++ [r'], dirty := true,
             open_ := if r'.repeats < 255 then some { o with latestNs := now } else none }
  | _, _ => f

/-- A record is created: it takes the next number, enters the front buffer and opens (R457, R460, R462). -/
def flowCreate (now : Nat) (r : LogRec) (f : Flow) : Flow :=
  { f with log := (f.log ++ [r]).drop ((f.log.length + 1) - logCap f),
           front := if f.degraded then f.front else f.front + 1,
           open_ := some { createdNs := now, latestNs := now }, dirty := false,
           next := f.next + 1, seqNext := f.next + 1 }

/-- An event that a rule records (R459 to R463, R476): a repeat, a new record with source 580, or a loss with source 578. -/
def logEvent (code : Nat) (src : BitVec 10) (data : List Byte) (s : State) : State :=
  if isRepeat code src data s then { s with flow := flowRepeat (ltNs s) s.flow }
  else if s.flow.front < 64 ∨ s.flow.degraded then
    assertEdge 580 { s with flow := flowCreate (ltNs s) (newRec code src data s.flow.next s) s.flow }
  else
    assertEdge 578 { s with flow := { s.flow with lost := sat 32 (s.flow.lost + 1), lostSince := s.flow.lostSince + 1 } }

/-- The front buffer has room again: one LOG_LOST record carries the number lost (R463). -/
def logLostDue (s : State) : State :=
  if s.flow.lostSince ≠ 0 ∧ s.flow.front < 64 then
    let n := s.flow.lostSince
    logEvent 0x03 srcNode (le 4 (sat 32 n)) { s with flow := { s.flow with lostSince := 0 } }
  else s

/-- An entry for the Sump, discarded and counted when all 8 are full (R474). -/
def sumpPut (r : LogRec) (f : Flow) : Flow :=
  if f.sump.length < 8 then { f with sump := f.sump ++ [r] } else { f with sumpLost := min 255 (f.sumpLost + 1) }

/-- An event that a rule writes to the Sump, with a number of its own (R457, R474). -/
def sumpEvent (code : Nat) (data : List Byte) (s : State) : State :=
  { s with flow := { sumpPut (newRec code srcNode data s.flow.next s) s.flow with
      next := s.flow.next + 1, seqNext := s.flow.next + 1 } }

/-- A record as stored: 32 bytes with its CRC (R454). -/
def recBytes (r : LogRec) : List Byte :=
  let body := le 4 r.seq.toNat ++ le 13 (r.ltUs.toNat + 2 ^ 52 * r.calUs.toNat) ++ [BitVec.ofNat 8 r.code]
    ++ le 4 (r.source.toNat + 2 ^ 10 * r.repeats + 2 ^ 18 * r.last) ++ r.data
  body ++ le 2 (crc16 body).toNat

/-! ### Outputs and life cycle -/

/-- Something leaves the block. -/
def emit (o : Out) (s : State) : State := { s with out := s.out ++ [o] }

/-- The unit runs: it is powered, out of reset, in Run or Doze, and not Dark (R497, R501, R508). -/
def running (s : State) : Bool :=
  s.clk.running && (s.power.mode == .run || s.power.mode == .doze)
    && s.test.dark.isNone

/-- The unit is numbered (R34). -/
def numbered (s : State) : Bool := s.survey.position != 0

/-- The unit is the active or the only unit of its vehicle, not a standby (R422). -/
def isStandby (s : State) : Bool := s.twin.role == .standby

/-- The unit holds the active role: it serves the car equipment, sources and delivers (R409). -/
def isActive (s : State) : Bool := s.twin.role == .active

/-- COUNT of the record in force (R194); 0 while unnumbered. -/
def consistCount (s : State) : Nat :=
  match s.survey.record with
  | some r => if numbered s then r.entries.length else 0
  | none => 0

end Sys2Proof.Machine
end

