-- ==== Sys2Proof/Machine/Flags.lean ====
section
/-! DEFINITION. Every flag that the block computes: readiness reasons, the health word, the levels of the
event sources, and the status registers of the window (R166, R414, R436, R498, R510, R525, R554 to R557). -/

namespace Sys2Proof.Machine

/-! ### Readiness and health -/

/-- A command of this opcode is in flight (R71). -/
def opInFlight (s : State) (op : Nat) : Bool := s.cmdq.inflight.any fun c => c.opcode == op

/-- Readiness reasons present, enabled or not, as READY_STAT shows them (R510, R511, R525). -/
def readyReasons (s : State) : BitVec 32 :=
  BitVec.ofNat 32 (flagAt (s.power.lantern && s.power.mode == .run) 0 + flagAt s.survey.cabActive 7
    + flagAt s.power.hold 8 + flagAt (s.test.lc == 4) 9
    + flagAt (opInFlight s 0x0C01 || opInFlight s 0x0A01 || opInFlight s 0x0A04) 10)

/-- Enabled readiness reasons (R510). -/
def readiness (s : State) : BitVec 32 := readyReasons s &&& s.power.wakeEn

/-- The unit is READY (R514). -/
def ready (s : State) : Bool := readiness s == 0

/-- The headward port of a line, while numbered (R33). -/
def headPort (s : State) (l : Line) : Option BPort := s.survey.headSide.map (BPort.mk' l)

/-- The tailward port of a line, while numbered (R33). -/
def tailPort (s : State) (l : Line) : Option BPort := s.survey.headSide.map fun h => BPort.mk' l h.other

/-- The port faces another unit of the consist: the partner across the jumpers, or a neighbouring position (R124). -/
def innerPort (s : State) (p : BPort) : Bool :=
  numbered s && (s.survey.jumper == some p.side || match s.survey.headSide with
    | some h => if p.side = h then decide (1 < s.survey.position) else decide (s.survey.position < consistCount s)
    | none => false)

/-- BACKBONE_LINK of the health word: a port that should be a member link is not one (R414). -/
def backboneLinkFault (s : State) : Bool := BPort.all.any fun p => innerPort s p && !(neighAt s p).member

/-- A car port's link is up (R326). -/
def carUp (c : CarPort) : Bool := c.link == .up || c.link == .upLpi

/-- CAR_LINK of the health word: a car port whose mode is not 0 is not up (R414). -/
def carLinkFault (s : State) : Bool := s.car.any fun c => c.mode != 0 && !carUp c

/-- The unit's health word (R414). -/
def healthWord (s : State) : BitVec 32 :=
  let t := s.twin
  BitVec.ofNat 32 (flagAt (t.role == .active) 31 + flagAt s.store.pref 30 + flagAt t.yielding 29
    + flagAt t.takeover 28 + flagAt t.handover 27 + flagAt t.revertReq 26 + flagAt t.laneFault 25
    + flagAt t.configFault 24 + (if t.role = .active then 0 else min 255 t.mirrorAge) * 2 ^ 16
    + flagAt t.actlFault 11 + flagAt t.settingsStale 10 + flagAt s.planner.silencedTwin 9 + flagAt t.imageDiff 8
    + flagAt (backboneLinkFault s) 7 + flagAt (carLinkFault s) 6 + flagAt (s.test.quarantine != 0) 5
    + flagAt t.selftestFail 4 + flagAt t.watchdog 3 + flagAt t.timeLock 2 + flagAt t.guardianSelf 1
    + flagAt t.fabricEcc 0)

/-- The partner's health word as last received; 0 while LANE_FAULT is set or none has come (R414). -/
def partnerWord (s : State) : BitVec 32 :=
  if s.twin.laneFault then 0 else match s.twin.partner with
    | some h => h.health
    | none => 0

/-- The lane is up: a heartbeat has been received and LANE_FAULT is clear (R414). -/
def laneUp (s : State) : Bool := s.twin.partner.isSome && !s.twin.laneFault

/-- A health word is clean (R414). -/
def cleanWord (w : BitVec 32) : Bool := w &&& 0x03000FFF == 0

/-- The unit is barred from the active role (R421). -/
def barred (s : State) : Bool :=
  s.twin.mismatch && match s.twin.partner with
    | some h =>
      let pp := h.health.getLsbD 30
      if s.store.pref != pp then !s.store.pref else decide (s.survey.origin.toNat < h.origin.toNat)
    | none => false

/-- A standby may take over (R421): bits [3:0] and [11] of its own word are clear and it is not barred. -/
def eligible (s : State) : Bool :=
  !(s.twin.watchdog || s.twin.timeLock || s.twin.guardianSelf || s.twin.fabricEcc || s.twin.actlFault) && !barred s

/-! ### Levels of the event sources -/

/-- A stream delivered at a car port is between a miss and its next good slice (R312, R322). -/
def vsuHold (s : State) (n : Nat) : Bool :=
  (carAt s n).ttStreams.any fun k => decide (0 < (tabGet {} s.vsu k).misses)

/-- The level of an offset in a port's event block (R259, R322, R359). -/
def portLevel (s : State) (n off : Nat) : Bool :=
  if n < 4 then
    if off = 1 then !(s.bb.getD n {}).up
    else off = 9 && (s.gallery.ingress.getD n {}).closed
  else
    let c := carAt s (n - 4)
    if off = 1 then c.mode != 0 && !carUp c
    else if off = 7 then c.pausedUntil.any fun t => decide (s.clk.ps < t)
    else if off = 9 then (s.gallery.ingress.getD n {}).closed
    else if off = 11 then c.link == .upLpi
    else if off = 12 then vsuHold s (n - 4)
    else off = 14 && c.asNoPeer

/-- The level of an offset in a CAN controller's event block (R408). -/
def canLevel (c : CanCtl) (off : Nat) : Bool :=
  if off = 1 then c.state == .busOff
  else if off = 2 then c.state == .alone
  else 4 ≤ off && off ≤ 7 && (c.fifos.getD (off - 4) []) != []

/-- The state code of a segment (R375, R377, R483). -/
def mdCode (s : State) (seg : Nat) : Nat :=
  let m := mdAt s seg
  if !powered s 10 || quarantined s (24 + seg) then 0x00
  else if isStandby s then 0x05
  else if m.mode = 0 then 0x01
  else if m.fallback then 0x04
  else if m.nodeId = 0 then 0x02
  else 0x03

/-- The level of a source by its owner's rules, presence and power apart. -/
def rawLevel (s : State) (id : Nat) : Bool :=
  if id < 16 then
    if id = 3 then s.twin.fabricEcc
    else if id = 4 then s.twin.watchdog
    else if id = 5 then s.twin.guardianSelf
    else if id = 6 then s.time.timeLock
    else id = 8 && s.router.tempHigh != 0
  else if id < 20 then let q := s.cmdq.cqs.getD (id - 16) {}; q.tail != q.head
  else if id < 28 then (s.cmdq.sqs.getD (id - 20) {}).state == .stopped
  else if id < 32 then (s.cmdq.cqs.getD (id - 28) {}).state == .held
  else if id < 64 then false
  else if id < 96 then
    if id = 64 then s.survey.state == .numbered && s.survey.position != 1 && !s.time.locked
    else if id = 65 then s.time.silenced
    else id = 66 && s.time.holdover
  else if id < 128 then
    if id = 96 then s.survey.state != .numbered
    else if id = 99 then s.survey.ports.any fun p => p.crossed || p.split
    else if id = 101 then s.survey.state == .held
    else id = 103 && s.survey.aliasLeft != 0
  else if id < 384 then portLevel s ((id - 128) / 16) (id % 16)
  else if id < 448 then id % 32 = 1 && mdCode s ((id - 384) / 32) == 0x04
  else if id < 512 then canLevel (canAt s ((id - 448) / 16)) (id % 16)
  else if id < 544 then
    if id = 513 then s.twin.role == .standby
    else if id = 514 then s.twin.laneFault
    else if id = 515 then laneUp s && partnerWord s &&& 0xFFF != 0
    else if id = 516 then
      s.twin.role == .standby && s.twin.actlHigh && !(partnerWord s).getLsbD 31
    else if id = 517 then s.twin.configFault
    else id = 519 && s.twin.settingsStale
  else if id < 576 then
    if id = 546 then s.test.quarantine != 0
    else id = 548 && s.test.plan.any fun e => e.overdue
  else if id < 608 then
    if id = 576 then s.flow.degraded
    else id = 577 && s.flow.sump != []
  else if id = 612 then readiness s != 0
  else if id = 613 then s.power.mode == .doze
  else id = 615 && s.power.lantern

/-- The present level of a level source (R437); an edge source has none. -/
def levelOf (s : State) (id : Nat) : Bool := canAssert s id && !edgeId id && rawLevel s id

/-- A source is pending (R437). -/
def isPending (s : State) (id : Nat) : Bool :=
  if isEdge s.part id then s.router.pend.getLsbD id
  else !s.router.service.getLsbD id && levelOf s id

/-! ### Status registers -/

/-- Codes of the Survey states (R555). -/
def stateCode : SurveyState → Nat
  | .boot => 0
  | .listen => 1
  | .settled => 2
  | .claim => 3
  | .counted => 4
  | .numbered => 5
  | .held => 6
  | .dark => 7
  | .parking => 8

/-- The codes of the unnumbered states (R201). -/
def unnumberedCode (c : Nat) : Bool := decide (1 ≤ c) && decide (c ≤ 4) || c == 6

/-- The Survey state as reported. An unnumbered standby holds that of its active unit, which it hears in SV_HELLO on the jumper; what the
unit does in the Survey follows its own sides (R183, R184, R201; DEDUCED, log 65). -/
def shownState (s : State) : Nat :=
  let own := stateCode s.survey.state
  let heard := BPort.all.findSome? fun p => match (neighAt s p).hello with
    | some h => if (bbAt s p).up ∧ s.twin.partner.map (fun t => t.origin) = some h.origin then some h.state else none
    | none => none
  match heard with
  | some c => if isStandby s && unnumberedCode own && unnumberedCode c then c else own
  | none => own

/-- NODE_STATE (R554). -/
def nodeState (s : State) : Nat :=
  flagAt s.store.service 31 + flagAt (s.store.chosen && s.store.slot.isNone) 30 + flagAt (isStandby s) 29
    + flagAt s.twin.partner.isSome 28 + flagAt s.time.silenced 27
    + flagAt (s.planner.silenced || s.planner.silencedTwin) 26 + s.reform.phase % 16 * 2 ^ 8 + shownState s

/-- NODE_ADDR (R556). -/
def nodeAddr (s : State) : Nat :=
  s.survey.epoch % 256 * 2 ^ 24 + consistCount s % 256 * 2 ^ 16 + s.survey.position % 256 * 2 ^ 8 + b2n (isStandby s)

/-- SLOT of BOOT_STAT (R557). -/
def slotCode (s : State) : Nat :=
  if s.store.chosen then match s.store.slot with
    | some n => n % 16
    | none => 0xF
  else 0xE

/-- BOOT_STAT (R557). -/
def bootStat (s : State) : Nat := s.store.cause % 16 * 2 ^ 28 + slotCode s * 2 ^ 24 + s.store.step % 256 * 2 ^ 16

/-- The node is position 1 (R166, REFERENCE). Both units of a pair at position 1 are: neither aligns to the other, as R140 and R149 read,
though the chapter's introduction lets each unit of a pair align like any other node (DESIGN CHOICE, log 63). -/
def isReference (s : State) : Bool := s.survey.position == 1

/-- U in whole ns, 0xFFFF while it is unknown or beyond the field (R166). -/
def uncertNs (s : State) : Nat :=
  match s.time.uncert with
  | some u => sat 16 (u / unitsPerNs)
  | none => 0xFFFF

/-- SERVO_STAT (R166). -/
def servoStat (s : State) : Nat :=
  flagAt (s.time.locked || isReference s) 31 + flagAt s.time.silenced 30 + flagAt s.time.holdover 29
    + flagAt (isReference s) 28 + flagAt s.time.lineA 27 + flagAt s.time.lineB 26 + uncertNs s

/-- Theta in whole ns, saturating (R166). -/
def thetaNs (s : State) : Int :=
  let t := s.time.theta / (unitsPerNs : Int)
  max (-(2 ^ 31 - 1)) (min (2 ^ 31 - 1) t)

/-- A number with bit `i` set for each entry of a list that meets a test, from bit 0 up. -/
def packBits : List Bool → Nat
  | [] => 0
  | b :: bs => b2n b + 2 * packBits bs

/-- GLK_STAT (R166, R569). -/
def glkStat (s : State) : Nat :=
  let here := s.time.glk.take (glkOuts s.part.code)
  packBits (here.map fun g => g.level) * 2 ^ 16 + packBits (here.map fun g => g.mode != 0)

/-- FLW_STAT WINDOW_OPEN (R471): the boot ROM runs, FACTORY_SAFE is in force, or the life cycle opens it. -/
def windowOpen (s : State) : Bool :=
  decide (s.store.step < 6) || (s.store.chosen && s.store.slot.isNone) || s.test.lc == 1 || s.test.lc == 2 || s.test.lc == 4

/-- FLW_STAT (R475). -/
def flwStat (s : State) : Nat :=
  flagAt (windowOpen s) 31 + flagAt s.flow.degraded 30 + flagAt (windowOpen s && s.flow.loaded.isSome) 29
    + flagAt (windowOpen s && s.flow.moved) 28 + flagAt (windowOpen s && s.flow.loadedOpen) 27 + min 64 s.flow.front

/-- SUMP_STAT (R475). -/
def sumpStat (s : State) : Nat := min 255 s.flow.sumpLost * 2 ^ 8 + min 8 s.flow.sump.length

/-- LC_STAT (R498). -/
def lcStat (s : State) : Nat := flagAt s.test.readFault 9 + flagAt s.test.keys.isSome 8 + s.test.lc % 256

/-- ST_STAT (R498). -/
def stStat (s : State) : Nat :=
  flagAt (s.test.tests.any fun t => t.running) 31 + flagAt (opInFlight s 0x0A01) 30
    + flagAt (s.test.plan != [] && s.store.service) 29 + flagAt s.test.dark.isSome 28
    + s.test.statBlock % 256 * 2 ^ 8 + min 255 s.test.statSlices

/-- PWR_STAT (R525). -/
def pwrStat (s : State) : Nat := flagAt (s.power.mode == .doze) 30 + (s.power.domains &&& populated s.part).toNat

/-- SLEEP_STAT (R525). -/
def sleepStat (s : State) : Nat :=
  s.power.sleepPhase % 4 * 2 ^ 30 + s.power.vetoPos % 256 * 2 ^ 16 + s.power.sleepId.toNat

end Sys2Proof.Machine
end

