-- ==== Sys2Proof/Machine/Router.lean ====
section
/-! DEFINITION. The event router: arbitration and delivery (R443, R446, R447), and the end of every command. -/

namespace Sys2Proof.Machine

/-- The state of a target. -/
def targetAt (s : State) (t : Nat) : Target := s.router.targets.getD t {}

/-- One target changed. -/
def setTarget (t : Nat) (f : Target → Target) (s : State) : State :=
  { s with router := { s.router with targets := s.router.targets.modify t f } }

/-- Priority of the top entry of a target's stack, 0 when it is empty (R443). -/
def topPrio (t : Target) : Nat :=
  match t.stack with
  | (_, p) :: _ => p
  | [] => 0

/-- The ID at the top of a target's stack, 0 when it is empty (R444). -/
def topId (t : Target) : Nat :=
  match t.stack with
  | (i, _) :: _ => i
  | [] => 0

/-- A routed source is a candidate of a target (R443). -/
def isCandidate (s : State) (t : Nat) (e : Nat × SrcCfg) : Bool :=
  e.2.target == t && decide (0 < e.2.prio) && isPending s e.1 && !s.router.mask.getLsbD e.1
    && !s.router.service.getLsbD e.1 && decide ((targetAt s t).threshold < e.2.prio)
    && decide (topPrio (targetAt s t) < e.2.prio)

/-- The better of two candidates: the higher priority, then the lower ID (R443). -/
def better (best : Nat × Nat) (e : Nat × SrcCfg) : Nat × Nat := if best.2 < e.2.prio then (e.1, e.2.prio) else best

/-- The winner of a target with its priority; (0, 0) with no candidate. A quarantined CMD block has none (R443, R483). -/
def winner (s : State) (t : Nat) : Nat × Nat :=
  if quarantined s 7 then (0, 0) else (s.router.cfg.filter (isCandidate s t)).foldl better (0, 0)

/-- A target's request (R443). -/
def request (s : State) (t : Nat) : Bool := (winner s t).2 != 0

/-- A message of an MSI-X vector is held back (R447). -/
def msixHeld (r : Router) (v : Nat) : Bool :=
  (r.msix.getD v {}).masked || r.functionMask || !r.d0 || !r.busMaster

/-- The request of a PCIe target rises, as one of T4 to T13 (R446). -/
def rises (s : State) (t : Nat) : Bool := request s t && !(targetAt s t).request

/-- The pending bit array with the bits of the held rises set (R447). -/
def pbaAfter (s : State) : BitVec 10 :=
  (List.range 10).foldl (fun p v => if rises s (v + 4) && msixHeld s.router v then p ||| BitVec.twoPow 10 v else p) s.router.pba

/-- The messages that the rises send (R446). -/
def risesOut (s : State) : List Out :=
  ((List.range 10).filter fun v => rises s (v + 4) && !msixHeld s.router v).map .msix

/-- The requests as they now stand; a core that is asleep wakes on one whose INT_WAKE bit is set (R448). -/
def requestsNow (s : State) : List Target :=
  s.router.targets.mapIdx fun t x => { x with
    request := request s t, asleep := x.asleep && !(request s t && s.router.wake.getLsbD (winner s t).1) }

/-- The router arbitrates every target and signals the rises (R443, R446, R447). -/
def settle (s : State) : State :=
  { s with router := { s.router with targets := requestsNow s, pba := pbaAfter s }, out := s.out ++ risesOut s }

/-- What a command sends starts empty. -/
def begin_ (s : State) : State := { s with out := [] }

/-- The state that an effect leaves: what the effect makes of the state, then the router's arbitration; the queue is the
sender's and stays as it is. -/
def after (f : State → State) (s : State) : State := { settle (f (begin_ s)) with pending := s.pending }

/-- A command runs. -/
def run (f : State → State) (s : State) : Host.Outcome State Fault Refusal := .next (after f s)

end Sys2Proof.Machine
end

