-- ==== Sys2Proof/Machine/MgWire.lean ====
section
/-! DEFINITION. The bytes of management frames and records on the wire (R105, R107, R136, R156, R174 to
R178, R194, R209, R262, R292, R513). -/

namespace Sys2Proof.Machine

/-- `n` bytes of a number, most significant first where `big`. -/
def num (big : Bool) (n x : Nat) : List Byte := if big then be n x else le n x

/-- `n` zero bytes. -/
def zeros (n : Nat) : List Byte := List.replicate n 0

/-- One byte. -/
def byte1 (x : Nat) : List Byte := [BitVec.ofNat 8 x]

/-- FLAGS of a consist entry (R194). -/
def entryFlags (e : Entry) : Nat :=
  packBits [e.reversed, e.cabActive, e.cabPresent, e.twinned, e.sActive, e.innerCab]

/-- LINKS of a consist entry (R194). -/
def entryLinks (e : Entry) : Nat := packBits [e.linkA, e.linkB, e.jumperA, e.jumperB]

/-- A consist entry, 16 bytes (R194). -/
def consistEntry (big : Bool) (e : Entry) : List Byte :=
  byte1 e.position ++ byte1 (entryFlags e) ++ num big 2 e.part ++ byte1 (entryLinks e) ++ zeros 3
    ++ num big 4 e.delayA ++ num big 4 e.delayB

/-- The entries of a record, in position order. -/
def entriesBytes (big : Bool) (es : List Entry) : List Byte := es.flatMap (consistEntry big)

/-- RECORD_CRC of entries 1 to COUNT in network order (R194). -/
def recordCrc (es : List Entry) : BitVec 32 := crc32 (entriesBytes true es)

/-- The header of a consist record, 16 bytes (R194). -/
def recordHeader (big : Bool) (r : Record) : List Byte :=
  byte1 r.epoch ++ byte1 r.entries.length
    ++ byte1 (r.headRule % 8 + packBits [r.truncated, r.lineAWhole, r.lineBWhole, r.innerSeen] * 8) ++ zeros 1
    ++ num big 4 r.crc.toNat ++ num big 8 r.cutover

/-- KEY of a claim or a re-forming message (R176, R209). -/
def keyByte (k : Key) : Nat := packBits [k.front, k.present, k.active]

/-- FLAGS of SV_HELLO (R175). -/
def helloFlags (m : SvHello) : Nat :=
  packBits [m.cabActive, m.cabPresent, m.orient, m.twin, m.active, m.pref, m.settled, m.full]

/-- The common fields of a re-forming message (R209). -/
def jnHead (h : JnHead) : List Byte :=
  be 4 h.origin.toNat ++ be 2 h.serial.toNat ++ byte1 h.epochOf ++ byte1 h.posOf

/-- The fields of JN_TRACK and JN_READY (R209). -/
def jnTrackBody (m : JnTrack) (last : Nat) : List Byte :=
  jnHead m.head ++ be 8 m.at_ ++ be 8 (twos 64 (m.delta / 65536)) ++ be 2 (twos 16 m.delta) ++ be 2 last
    ++ be 4 (twos 32 m.slope)

/-- Codes of the stream states (R262). -/
def streamCode : StreamState → Nat
  | .free => 0
  | .placed => 1
  | .held => 2
  | .loc => 3
  | .dead => 4

/-- Destination pairs as 16 bytes (R262). -/
def destBytes (ds : List (Nat × Nat)) : List Byte := padTo 16 0 (ds.flatMap fun d => byte1 d.1 ++ byte1 d.2)

/-- Bytes 2 to 31 of a stream record, SERIAL at 10 to 11 given (R262). -/
def contractBytes (big : Bool) (c : Contract) (serial : Nat) : List Byte :=
  byte1 c.srcPos ++ byte1 c.srcPort ++ byte1 c.flags.toNat ++ byte1 c.destCount ++ num big 2 c.maxlen
    ++ num big 2 c.fph ++ num big 2 serial ++ num big 4 c.deadline ++ destBytes c.dests

/-- The canonical form of a stream context, 52 bytes (R262). -/
def canonBytes (big : Bool) (c : Canon) : List Byte :=
  byte1 c.context ++ byte1 (streamCode c.state) ++ contractBytes big c.contract c.serial ++ byte1 c.cycOffset
    ++ byte1 c.nSrc ++ byte1 c.lines.toNat ++ byte1 c.served.toNat
    ++ padTo 16 0 (c.srcIndex.map fun i => BitVec.ofNat 8 i)

/-- A mask of 32 bytes, bit k for context k (R85, R292): the byte of contexts 0 to 7 first. -/
def maskBytes (m : BitVec 256) : List Byte := le 32 m.toNat

/-- OP of a planner message (R292). -/
def planOpCode : PlanOp → Nat
  | .declare _ => 1
  | .withdraw _ => 2
  | .view _ => 3
  | .repack => 4
  | .sync => 5

/-- A declared contract as a record with its other fields zero (R292). -/
def declareRecord (c : Contract) : List Byte := zeros 2 ++ contractBytes true c 0 ++ zeros 20

/-- The type and the body of a management message, without padding (R107, R174, R209, R292, R513). -/
def mgBody : MgMsg → Nat × List Byte
  | .echoReq m => (0x0201, be 2 m.probeId.toNat ++ byte1 m.port ++ byte1 m.sync.toNat ++ byte1 m.position ++ zeros 3)
  | .echoResp m => (0x0202, be 2 m.probeId.toNat ++ byte1 m.port ++ byte1 m.sync.toNat ++ byte1 m.position ++ zeros 1
      ++ be 2 (sat 16 m.uncert) ++ be 8 (m.t2 / 65536) ++ be 2 (m.t2 % 65536) ++ be 8 (m.t3 / 65536) ++ be 2 (m.t3 % 65536)
      ++ be 4 (twos 32 m.slew) ++ zeros 4)
  | .calApply m => (0x0203, be 8 m.start ++ byte1 (b2n m.step) ++ zeros 3 ++ be 8 (twos 64 m.change)
      ++ be 8 (twos 64 m.baseOffset) ++ be 4 m.changeId)
  | .svHello m => (0x0101, be 4 m.origin.toNat ++ be 2 m.round.toNat ++ be 2 m.part ++ byte1 (helloFlags m)
      ++ byte1 m.state ++ byte1 m.port ++ byte1 m.position ++ be 4 m.peer.toNat)
  | .svClaim m => (0x0102, be 4 m.origin.toNat ++ be 2 m.round.toNat ++ be 2 m.part ++ byte1 (keyByte m.key)
      ++ byte1 m.units ++ zeros 2 ++ be 4 m.key.nonce.toNat)
  | .svCount m => (0x0103, be 4 m.headOrigin.toNat ++ be 2 m.round.toNat ++ byte1 m.next
      ++ byte1 (b2n m.inVehicle + 2 * (m.headRule % 8)) ++ be 2 m.entries.length ++ zeros 2 ++ entriesBytes true m.entries)
  | .svRecord m => (0x0104, be 4 m.headOrigin.toNat ++ be 2 m.round.toNat ++ zeros 2 ++ recordHeader true m.record
      ++ entriesBytes true m.record.entries)
  | .svCommit m => (0x0105, be 4 m.headOrigin.toNat ++ be 2 m.round.toNat ++ byte1 m.epoch ++ byte1 m.hyper
      ++ be 8 m.cutover ++ be 8 m.cycle ++ be 2 m.squeeze ++ zeros 2 ++ be 4 m.crc.toNat)
  | .svRestart r => (0x0106, be 2 r.toNat ++ zeros 2)
  | .svLink m => (0x0107, byte1 m.position ++ byte1 m.links.toNat ++ zeros 2)
  | .jnEnd m => (0x0401, jnHead m.head ++ byte1 (keyByte m.key + 8 * b2n m.last) ++ byte1 m.count ++ zeros 2
      ++ be 4 m.key.nonce.toNat)
  | .jnOffer m => (0x0402, jnHead m.head ++ byte1 m.entries.length ++ byte1 m.units ++ byte1 (keyByte m.farKey + 8 * b2n m.farLast)
      ++ byte1 (b2n m.couplerIsHead) ++ be 4 m.farKey.nonce.toNat ++ be 4 m.crc.toNat ++ be 4 m.cplDelayA
      ++ be 4 m.cplDelayB ++ zeros 4 ++ entriesBytes true m.entries)
  | .jnMerge m => (0x0403, jnHead m.head ++ byte1 (packBits [m.keeping, m.reverse]) ++ byte1 m.units ++ zeros 6
      ++ recordHeader true m.record ++ entriesBytes true m.record.entries)
  | .jnTrack m => (0x0404, jnTrackBody m 0)
  | .jnReady m => (0x0405, jnTrackBody m m.ready)
  | .jnCutover m => (0x0406, jnHead m.head ++ byte1 m.cause ++ byte1 m.epoch ++ byte1 m.hyper ++ byte1 m.first
      ++ byte1 m.last ++ zeros 1 ++ be 2 m.squeeze ++ be 8 m.cutover ++ be 8 m.cycle ++ be 8 m.leap ++ be 4 m.crc.toNat
      ++ zeros 4 ++ be 8 (twos 64 m.calOffset) ++ be 8 (twos 64 m.calSlew))
  | .jnBreak m => (0x0407, jnHead m.head ++ byte1 m.headPos ++ byte1 m.tailPos ++ zeros 6)
  | .jnAbandon m => (0x0408, jnHead m.head ++ be 4 m.subject.toNat ++ zeros 4)
  | .plRequest m => (0x0301, byte1 m.reqPos ++ byte1 (planOpCode m.op) ++ be 2 m.reqId ++ byte1 m.epoch ++ zeros 3
      ++ padTo 52 0 (match m.op with
        | .declare c => declareRecord c
        | .withdraw k => byte1 k
        | .view x => maskBytes x
        | .repack => []
        | .sync => []))
  | .plResult m => (0x0302, byte1 m.reqPos ++ byte1 m.op ++ be 2 m.reqId ++ byte1 m.outcome ++ byte1 m.code
      ++ byte1 m.codePos ++ byte1 m.context ++ be 2 m.serial ++ zeros 2 ++ be 8 m.swap)
  | .plChange m => (0x0303, be 2 m.serial ++ byte1 (planOpCode m.op) ++ byte1 m.epoch ++ be 8 m.swap ++ byte1 m.target
      ++ zeros 3 ++ padTo 52 0 (match m.op with
        | .declare c => declareRecord c
        | .view x => maskBytes x
        | .withdraw _ => []
        | .repack => []
        | .sync => []))
  | .plDigest m => (0x0304, byte1 m.position ++ byte1 m.epoch ++ be 2 m.lastSerial ++ be 4 m.digest.toNat
      ++ byte1 (packBits [m.planSilenced, m.timeSilenced]) ++ zeros 3)
  | .plTally m => (0x0305, byte1 m.epoch ++ byte1 m.agree ++ be 2 m.lastSerial ++ be 4 m.digest.toNat
      ++ be 8 m.agreeMap.toNat ++ be 8 m.reportMap.toNat)
  | .plContract m => (0x0306, byte1 m.epochOf
      ++ byte1 (match m.item with
        | .selection _ _ => 1
        | _ => 0)
      ++ be 2 m.lastSerial ++ be 2 m.index ++ be 2 m.total ++ padTo 52 0 (match m.item with
        | .record c => canonBytes true c
        | .selection p x => byte1 p ++ zeros 3 ++ maskBytes x
        | .nothing => []))
  | .slPropose i e => (0x0501, be 2 i.toNat ++ byte1 e ++ zeros 5)
  | .slVote m => (0x0502, be 2 m.sleepId.toNat ++ byte1 m.position ++ byte1 m.rank ++ byte1 (b2n m.ready) ++ zeros 3
      ++ be 4 m.reasons.toNat)
  | .slInstant m => (0x0503, be 2 m.sleepId.toNat ++ byte1 m.epoch ++ zeros 1 ++ be 8 m.instant)
  | .slVeto m => (0x0504, be 2 m.sleepId.toNat ++ byte1 m.position ++ byte1 m.rank ++ be 4 m.reasons.toNat)
  | .slCancel i c => (0x0505, be 2 i.toNat ++ byte1 c ++ zeros 1)

/-- MSG_TYPE of a message (R107). -/
def mgType (m : MgMsg) : Nat := (mgBody m).1

/-- Length of the frame from DA to FCS (R105, R292): the header of 24 bytes, the body, the FCS, at least 64 bytes. -/
def mgLength (m : MgMsg) : Nat := max 64 (28 + (mgBody m).2.length)

/-- A management frame on the wire of a line, with its FCS (R105, R106): HOPS as given, DUAL set. -/
def mgBytes (l : Line) (f : MgFrame) : List Byte :=
  let b := mgBody f.msg
  let head := macBytes f.da ++ macBytes f.sa ++ be 2 0x88B6 ++ byte1 (0x1C + l.code) ++ byte1 f.epoch ++ byte1 f.hops
    ++ byte1 1 ++ be 2 f.seq.toNat ++ be 2 b.1 ++ be 2 b.2.length
  withFcs (padTo (max 60 (24 + b.2.length)) 0 (head ++ b.2))

/-- Ticks of line time that a frame of `n` bytes takes on a 10 Gb/s wire, in units of 2^-16 ns (R48, R236). -/
def wire10g (n : Nat) : Nat := (n * 524288 + 9) / 10

end Sys2Proof.Machine
end

