-- ==== Sys2Proof/Machine/Operands.lean ====
section
/-! DEFINITION. The operand forms of a command: its header, inline parameters and buffers (R68 to R70, R86),
the order in which commands run (R74, R75), the checks and their order (R9, R70, R80, R84), and its
completion (R77 to R79). -/

namespace Sys2Proof.Machine

/-! ### The 64-byte command -/

/-- The host of a submission queue (R49). -/
def sqHost (q : Nat) : HostId := if q < 6 then .pcie else .spi

/-- The host of a completion queue (R49). -/
def cqHost (q : Nat) : HostId := if q < 3 then .pcie else .spi

/-- The command that a ring entry spells (R68, R69). -/
def parseCmd (acc sq ps lt : Nat) (e : List Byte) : Cmd :=
  let flags := fld e 4 2
  let buffer := bitOf flags 1
  { acc := acc, sq := sq, tag := BitVec.ofNat 8 (fld e 2 1), opcode := fld e 0 2, fence := bitOf flags 0,
    buffer := buffer, plen := fld e 6 2, epoch := fld e 8 1, timeout := fld e 10 2,
    bufAddr := if buffer then fld e 16 8 else 0, bufLen := if buffer then fld e 24 4 else 0,
    inl := if buffer then slice e 32 32 else slice e 16 48, raw := e, atPs := ps, atLt := lt,
    phase := .fetched, ref := 0, ref2 := 0 }

/-- The host that gave a command. -/
def cmdHost (c : Cmd) : HostId := sqHost c.sq

/-- Inline parameter byte pN (R70). -/
def pB (c : Cmd) (n : Nat) : Nat := (c.inl.getD n 0).toNat

/-- Inline parameter field pN:M of `w` bytes (R70). -/
def pF (c : Cmd) (n w : Nat) : Nat := fld c.inl n w

/-- The offset within the command of inline parameter byte n, as BAD_PARAM reports it (R70). -/
def pOff (c : Cmd) (n : Nat) : Nat := (if c.buffer then 32 else 16) + n

/-- The length of the wait so far in ms (R84). -/
def waitedMs (c : Cmd) (s : State) : Nat := (s.clk.ps - c.atPs) / 10 ^ 9

/-! ### Objects and order -/

/-- The objects that order commands (R74). -/
inductive Obj where
  | port (code : Nat)
  | context (k : Nat)
  | contracts
  | consist
  | calendar
  | log
  | slot
  | power
  deriving DecidableEq, Repr

/-- The objects that a command changes or reads (R74). CONSIST_WAIT is ordered against none; LC_SET to RETIRED changes every
configuration slot (R482; DEDUCED, log 13). -/
def objects (c : Cmd) : List Obj :=
  match c.opcode with
  | 0x0201 | 0x0203 | 0x0204 => [.consist]
  | 0x0302 | 0x0303 => [.calendar]
  | 0x0305 => [.port (pB c 0)]
  | 0x0401 | 0x0404 | 0x0405 | 0x0406 => [.contracts]
  | 0x0402 => [.contracts, .context (pB c 0)]
  | 0x0403 | 0x0407 | 0x0410 | 0x0411 => [.context (pB c 0)]
  | 0x0501 | 0x0502 | 0x0503 | 0x0504 | 0x0505 | 0x0507 | 0x0508 => [.port (pB c 0)]
  | 0x0506 => [.port (pB c 2)]
  | 0x0601 | 0x0602 | 0x0603 => [.port (pB c 0)]
  | 0x0701 | 0x0702 | 0x0703 | 0x0704 | 0x0705 | 0x0706 | 0x0707 | 0x0708 => [.port (pB c 0)]
  | 0x0901 | 0x0902 | 0x0903 => [.log]
  | 0x0A04 => if pB c 0 = 5 then [.slot] else []
  | 0x0B01 | 0x0B02 | 0x0B03 | 0x0B04 | 0x0B05 => [.power]
  | 0x0C01 | 0x0C02 | 0x0C03 => [.slot]
  | _ => []

/-- A started command that no later command on its object waits for: the rules say what a later one does to a CAN_TX_AT that is
pending (R379, R382, R396; DEDUCED, log 13). -/
def yieldsOrder (c : Cmd) : Bool := c.opcode = 0x0705

/-- An earlier command of the same object holds a command back (R74). -/
def heldByOrder (c e : Cmd) : Bool :=
  decide (e.acc < c.acc) && (objects e).any (fun o => (objects c).contains o)
    && (e.phase == .fetched || (e.phase == .started && !yieldsOrder e))

/-- FENCE holds a command back (R75). -/
def heldByFence (c e : Cmd) : Bool := c.fence && e.sq == c.sq && decide (e.acc < c.acc)

/-- A fetched command may start (R74, R75). -/
def mayStart (s : State) (c : Cmd) : Bool :=
  c.phase == .fetched && !s.cmdq.inflight.any fun e => heldByOrder c e || heldByFence c e

/-- The command in flight with a tag (R71). -/
def cmdOf (s : State) (tag : BitVec 8) : Option Cmd := s.cmdq.inflight.find? fun c => c.tag == tag

/-- One command in flight changed. -/
def setCmd (tag : BitVec 8) (f : Cmd → Cmd) (s : State) : State :=
  { s with cmdq := { s.cmdq with inflight := s.cmdq.inflight.map fun c => if c.tag = tag then f c else c } }

/-- A command passes its commit point and waits for its completion (R81). -/
def commitCmd (c : Cmd) (ref : Nat) (s : State) : State :=
  setCmd c.tag (fun x => { x with phase := .committed, ref := ref }) s

/-- A command starts and waits, with what it waits for (R71). -/
def park (c : Cmd) (ref ref2 : Nat) (s : State) : State :=
  setCmd c.tag (fun x => { x with phase := .started, ref := ref, ref2 := ref2 }) s

/-! ### Completion -/

/-- The state of a submission queue. -/
def sqAt (s : State) (q : Nat) : Sq := s.cmdq.sqs.getD q {}

/-- One submission queue changed. -/
def setSq (q : Nat) (f : Sq → Sq) (s : State) : State := { s with cmdq := { s.cmdq with sqs := s.cmdq.sqs.modify q f } }

/-- The state of a completion queue. -/
def cqAt (s : State) (m : Nat) : Cq := s.cmdq.cqs.getD m {}

/-- One completion queue changed. -/
def setCq (m : Nat) (f : Cq → Cq) (s : State) : State := { s with cmdq := { s.cmdq with cqs := s.cmdq.cqs.modify m f } }

/-- Entries of a ring (R49). -/
def ringLen (log2 : Nat) : Nat := 2 ^ log2

/-- A completion queue has no free entry: its tail is one entry behind its head (R53, R79; log 14). -/
def cqFull (q : Cq) : Bool := (q.tail + 1) % ringLen q.log2 == q.head

/-- The 16 bytes of a completion entry (R77). -/
def entryBytes (x : Completion) (head : Nat) (phase : Bool) : List Byte :=
  le 2 x.tag.toNat ++ le 2 x.status ++ le 8 x.result.toNat ++ le 2 (head % 2048) ++ le 1 (x.sq % 8) ++ le 1 (b2n phase)

/-- The bytes of an entry reach the ring (R51, R67, R78). -/
def storeEntry (m addr : Nat) (bytes : List Byte) (s : State) : State :=
  if m < 3 then emit (.hostWrite addr bytes) s else { s with ram := memWrite s.ram addr bytes }

/-- The base of a completion ring (R55, R67). -/
def cqBase (m : Nat) (q : Cq) : Nat := if m < 3 then q.base.toNat else 0x01020000

/-- The base of a submission ring (R55, R67). -/
def sqBase (n : Nat) (q : Sq) : Nat := if n < 6 then q.base.toNat else 0x01000000 + (n - 6) * 0x10000

/-- A completion queue after one entry is written: tail, phase and state (R78, R79). -/
def cqAdvance (q : Cq) : Cq :=
  let tail := (q.tail + 1) % ringLen q.log2
  let q' := { q with tail := tail, phase := if tail = 0 then !q.phase else q.phase }
  { q' with state := if cqFull q' then .held else .running }

/-- An entry is written and its command is no longer in flight (R71, R78). -/
def writeEntry (m : Nat) (x : Completion) (s : State) : State :=
  let q := cqAt s m
  let s := storeEntry m (cqBase m q + 16 * q.tail) (entryBytes x (sqAt s x.sq).head q.phase) s
  let s := setCq m cqAdvance s
  { s with cmdq := { s.cmdq with inflight := s.cmdq.inflight.filter fun c => c.tag != x.tag } }

/-- The command of a completion is finished; its entry waits (R79). -/
def keepEntry (m : Nat) (x : Completion) (s : State) : State :=
  setCmd x.tag (fun c => { c with phase := .finished }) (setCq m (fun q => { q with state := .held, held := q.held ++ [x] }) s)

/-- A command leaves flight without a completion (R89). -/
def discard (tag : BitVec 8) (s : State) : State :=
  { s with cmdq := { s.cmdq with inflight := s.cmdq.inflight.filter fun c => c.tag != tag } }

/-- A completion is written, kept while the queue is HELD, or discarded with a disabled queue (R78, R79, R89). -/
def post (m : Nat) (x : Completion) (s : State) : State :=
  let q := cqAt s m
  if q.state = .disabled then discard x.tag s
  else if q.state = .running ∧ cqFull q = false then writeEntry m x s else keepEntry m x s

/-- Kept completions are written, oldest first, while entries are free (R79). -/
def drainHeld (m : Nat) : List Completion → State → State
  | [], s => s
  | x :: xs, s =>
    if cqFull (cqAt s m) then setCq m (fun q => { q with state := .held, held := x :: xs }) s
    else drainHeld m xs (writeEntry m x s)

/-- The command in flight with a tag lost its completion to a PCIe reset (R89). -/
def lostCmd (s : State) (tag : BitVec 8) : Bool := s.cmdq.inflight.any fun c => c.tag == tag && c.lost

/-- A command in flight completes with a status and a result (R77, R84, R89). -/
def finish (c : Cmd) (status result : Nat) (s : State) : State :=
  if lostCmd s c.tag then discard c.tag s
  else post c.cq { tag := c.tag, status := status, result := BitVec.ofNat 64 result, sq := c.sq } s

/-- The command with a tag, if it is in flight and unfinished, completes. -/
def finishTag (tag : BitVec 8) (status result : Nat) (s : State) : State :=
  match cmdOf s tag with
  | some c => if c.phase = .finished then s else finish c status result s
  | none => s

/-! ### Checks -/

/-- A failed check: status and result (R84). -/
abbrev Fail := Option (Nat × Nat)

/-- The first failure of a list of checks, in the order of R9. -/
def firstFail : List Fail → Fail
  | [] => none
  | none :: t => firstFail t
  | some e :: _ => some e

/-- A check that fails with a status and a result where the condition holds. -/
def failIf (b : Bool) (status result : Nat) : Fail := if b then some (status, result) else none

/-- Parameter length and buffer (R70, R84). -/
def lenCheck (c : Cmd) (plen : Nat) (buffer : Bool) : Fail :=
  failIf (c.plen != plen || c.buffer != buffer) 0x12 (plen + flagAt buffer 16)

/-- BAD_PARAM at an inline byte (R84). -/
def badP (b : Bool) (c : Cmd) (n : Nat) : Fail := failIf b 0x11 (pOff c n)

/-- UNIT_ABSENT (R8). -/
def absent (b : Bool) : Fail := failIf b 0x21 0

/-- The epoch check (R80). -/
def epochFail (c : Cmd) (s : State) : Fail :=
  failIf (c.epoch != 0xFF && c.epoch != s.survey.epoch) 0x50 s.survey.epoch

/-- The result of STATE_REFUSED (R84). -/
def refusedResult (s : State) : Nat := shownState s + s.test.lc % 256 * 2 ^ 8 + flagAt (isStandby s) 16

/-- STATE_REFUSED (R84). -/
def refuseIf (b : Bool) (s : State) : Fail := failIf b 0x20 (refusedResult s)

/-- The unit concerned is quarantined (R84, R489); `none` where the command concerns no block. -/
def quarFail (s : State) : Option Nat → Fail
  | some b => failIf (quarantined s b) 0x22 b
  | none => none

/-- The unit concerned is under test (R84, R484, R492): the retry-after is the time to the end of the slice or the run in µs. -/
def busyFail (s : State) : Option Nat → Fail
  | some b => match s.test.tests.find? fun t => t.block == b && t.running with
    | some t => some (0x23,
        let us := (t.endPs - s.clk.ps + 999999) / 1000000
        if t.kind = .loopback then max 1 (min 30000 us) else max 1 (min 40 us))
    | none => none
  | none => none

/-- The state step of R9 in its order (R80). -/
def stateChecks (c : Cmd) (s : State) (block : Option Nat) (refuse : Bool) : List Fail :=
  [epochFail c s, quarFail s block, refuseIf refuse s, busyFail s block]

/-- A command that changes state in groups 0x02, 0x04 to 0x07 is refused on a standby (R91). -/
def standbyRefused (s : State) : Bool := isStandby s

/-- Another command of the opcode is in flight before this one (R71, R76): it was accepted earlier, or has started already. One that is
finished is in flight until its entry is written (R79). -/
def firstInFlight (c e : Cmd) : Bool :=
  e.opcode == c.opcode && e.tag != c.tag && (decide (e.acc < c.acc) || e.phase != .fetched)

/-- The exclusive operations of R76. -/
def exclusiveFail (c : Cmd) (s : State) : Fail := failIf (s.cmdq.inflight.any (firstInFlight c)) 0x30 3

/-- NO_RESOURCE with a resource code (R84). -/
def noResource (b : Bool) (code : Nat) : Fail := failIf b 0x30 code

/-- The buffer descriptor (R69, R70), and a buffer too short for the opcode. -/
def descChecks (c : Cmd) (least : Nat) : List Fail :=
  let spi := cmdHost c == .spi
  [failIf (c.bufAddr % 4 != 0 || (spi && (decide (c.bufAddr < 0x02000000) || decide (0x02040000 ≤ c.bufAddr)))) 0x11 16,
   failIf (c.bufLen % 4 != 0 || decide (c.bufLen < 4) || decide ((if spi then 0x40000 else 0x80000) < c.bufLen)
      || (spi && decide (0x02040000 < c.bufAddr + c.bufLen)) || decide (c.bufLen < least)) 0x11 24]

/-- What the input buffer of a command holds (R69, R90): the PCIe host's as given, the SPI host's from node memory. -/
def inBuffer (c : Cmd) (buf : Option (List Byte)) (s : State) : Option (List Byte) :=
  match cmdHost c with
  | .pcie => buf.map (padTo c.bufLen 0)
  | .spi => some (memRead s.ram c.bufAddr c.bufLen)

/-- A command's output is written to its buffer; none where the buffer cannot be written (R90). -/
def outBuffer (c : Cmd) (wr : Bool) (bytes : List Byte) (s : State) : Option State :=
  let bytes := bytes.take c.bufLen
  match cmdHost c with
  | .pcie => if wr then some (emit (.hostWrite c.bufAddr bytes) s) else none
  | .spi => some { s with ram := memWrite s.ram c.bufAddr bytes }

/-- A reading command writes its output and completes with OK, or with BAD_PARAM at offset 16 (R78, R90). -/
def finishOut (c : Cmd) (wr : Bool) (bytes : List Byte) (result : Nat) (s : State) : State :=
  match outBuffer c wr bytes s with
  | some s' => finish c 0 result s'
  | none => finish c 0x11 16 s

/-- A command that its checks let through runs; one they stop completes with their status (R9). -/
def checked (c : Cmd) (checks : List Fail) (f : State → State) (s : State) : State :=
  match firstFail checks with
  | some (st, r) => finish c st r s
  | none => f s

/-- The queues work: the node runs and has applied its configuration (R561). -/
def serving (s : State) : Bool := running s && s.store.service

/-- The fetched command with a tag starts, if it has the opcode and nothing holds it back (R74, R75). -/
def starts (op : Nat) (tag : BitVec 8) (s : State) : Option Cmd :=
  if serving s then match cmdOf s tag with
    | some c => if c.opcode = op ∧ mayStart s c then some c else none
    | none => none
  else none

/-- Runs a command of an opcode: nothing happens where no such command may start. -/
def withCmd (op : Nat) (tag : BitVec 8) (f : Cmd → State → State) (s : State) : State :=
  match starts op tag s with
  | some c => f c s
  | none => s

end Sys2Proof.Machine
end

