-- ==== Sys2Proof/Machine/Frames.lean ====
section
/-! DEFINITION. Addresses, sequence windows, and how management frames are sent, checked at an ingress and
forwarded (R93 to R96, R105 to R120, R124, R172, R173). -/

namespace Sys2Proof.Machine

/-- The train address of a station (R93). -/
def trainMac (pos rank : Nat) : Mac := BitVec.ofNat 48 (0x0A5A00000000 + pos % 256 * 256 + rank % 256)

/-- The all-nodes address (R94). -/
def allNodes : Mac := 0x0B5AFF000000

/-- The link-local address (R94). -/
def linkLocal : Mac := 0x0B5AFF000001

/-- The address is a train address (R93). -/
def isTrainMac (m : Mac) : Bool := m.toNat / 2 ^ 16 == 0x0A5A0000

/-- pp of a train address (R93). -/
def macPos (m : Mac) : Nat := m.toNat / 256 % 256

/-- qq of a train address (R93). -/
def macRank (m : Mac) : Nat := m.toNat % 256

/-- A group or broadcast address. -/
def isGroup (m : Mac) : Bool := m.getLsbD 40

/-- The unit's rank (R93, R556). -/
def ownRank (s : State) : Nat := b2n (isStandby s)

/-- The unit's own train address; position 0x00 while unnumbered (R95). -/
def ownMac (s : State) : Mac := trainMac s.survey.position (ownRank s)

/-! ### Sequence windows -/

/-- The outcome of a window test (R117). -/
inductive Verdict where
  | accept
  | duplicate
  | stale
  deriving DecidableEq, Repr

/-- The window test (R117). -/
def winTest (w : Window) (q : BitVec 16) : Window × Verdict :=
  if !w.primed then ({ primed := true, h := q, b := 1, idle := 0 }, .accept)
  else
    let d := (q - w.h).toNat
    if 1 ≤ d ∧ d ≤ 32767 then ({ w with b := (w.b <<< d) ||| 1, h := q, idle := 0 }, .accept)
    else
      let k := (w.h - q).toNat
      if k ≤ 63 then
        if w.b.getLsbD k then (w, .duplicate) else ({ w with b := w.b ||| BitVec.twoPow 64 k, idle := 0 }, .accept)
      else (w, .stale)

/-- The number under which RC and MG windows are kept: the pair of epoch and source position (R119). -/
def winKey (epoch pos : Nat) : Nat := 256 * epoch + pos

/-- A discarded frame counts at the port of arrival (R117). -/
def countVerdict (p : BPort) : Verdict → State → State
  | .accept, s => s
  | .duplicate, s => countBb p 0x68 s
  | .stale, s => countBb p 0x70 s

/-! ### Sending management frames -/

/-- A backbone port passes Parmond traffic: its link is up and it is held neither under R31 nor under R180. -/
def bbOpen (s : State) (p : BPort) : Bool :=
  (bbAt s p).up && !(neighAt s p).crossed && !(neighAt s p).split

/-- A frame that reaches a backbone port enters the node: the unit runs, and neither the port's block nor the fabric is in a
slice, in which frames are lost (R484). -/
def bbTakes (s : State) (p : BPort) : Bool := running s && inService s (8 + p.idx)

/-- The port leads to a unit that all-nodes frames may reach: on a numbered unit a position of the consist (R124, R224). -/
def mgReaches (s : State) (p : BPort) : Bool := bbOpen s p && (!numbered s || innerPort s p)

/-- A management frame joins the queue of each port of a list that is open (R236). -/
def queueMg (ports : List BPort) (f : MgFrame) (s : State) : State :=
  ports.foldl (fun s p => if bbOpen s p then setBb p (fun b => { b with mg := b.mg ++ [f] }) s else s) s

/-- A frame of this unit with a sequence number (R105, R116). -/
def ownFrame (s : State) (da : Mac) (seq : BitVec 16) (m : MgMsg) : MgFrame :=
  { da := da, sa := ownMac s, epoch := s.survey.epoch, hops := 0, seq := seq, msg := m }

/-- A message goes to all nodes: one sequence number on every port that reaches them (R116, R120). -/
def floodMg (m : MgMsg) (s : State) : State :=
  let s := { s with survey := { s.survey with mgSeq := s.survey.mgSeq + 1 } }
  queueMg (BPort.all.filter (mgReaches s)) (ownFrame s allNodes s.survey.mgSeq m) s

/-- A message goes to the units at the far ends of a list of ports only (R94). -/
def linkMg (ports : List BPort) (m : MgMsg) (s : State) : State :=
  let s := { s with survey := { s.survey with mgSeq := s.survey.mgSeq + 1 } }
  queueMg ports (ownFrame s linkLocal s.survey.mgSeq m) s

/-- A re-forming message goes to the units at the far ends of a list of ports, link-local with EPOCH 0xFF (R207). -/
def jnMg (ports : List BPort) (m : MgMsg) (s : State) : State :=
  queueMg ports { ownFrame s linkLocal 0 m with epoch := 0xFF } s

/-- The side of the ports toward another position (R33, R114). -/
def sideTo (s : State) (pos : Nat) : Option Side :=
  s.survey.headSide.map fun h => if pos < s.survey.position then h else h.other

/-- The side by which a unit's own message leaves for a position: across the jumper to its partner (R39). -/
def sideOut (s : State) (pos : Nat) : Option Side := if pos = s.survey.position then s.survey.jumper else sideTo s pos

/-- A message goes to the active unit of a position, on both lines (R114, R116). -/
def sendMgTo (pos : Nat) (m : MgMsg) (s : State) : State :=
  match sideOut s pos with
  | some sd =>
    let s := { s with survey := { s.survey with mgSeq := s.survey.mgSeq + 1 } }
    queueMg sd.ports (ownFrame s (trainMac pos 0) s.survey.mgSeq m) s
  | none => s

/-- Wire time of a management message with preamble and gap (R236). -/
def mgWire (m : MgMsg) : Nat := wire10g (mgLength m + 20)

/-- A message leaves a port at once, with SEQUENCE 0, and takes the wire for its time (R132, R134, R174, R236). -/
def emitMg (p : BPort) (m : MgMsg) (s : State) : State :=
  countBb p 0x08 (setBb p (fun b => { b with freeAt := s.clk.lt + mgWire m }) (emit (.mg p (ownFrame s linkLocal 0 m)) s))

/-! ### Management frames at an ingress -/

/-- The MG window test of R111 step 12, for a frame that the node acts on. EPOCH 0xFF passes none (R172). -/
def mgWindow (rx : MgRx) (s : State) : State × Verdict :=
  if rx.epoch = 0xFF then (s, .accept)
  else
    let k := winKey rx.epoch (macPos rx.sa)
    let r := winTest (tabGet {} s.gallery.mgWin k) rx.seq
    ({ s with gallery := { s.gallery with mgWin := tabSet {} s.gallery.mgWin k r.1 } }, r.2)

/-- A received frame forwarded with HOPS one higher (R108). -/
def relayed (rx : MgRx) (m : MgMsg) : MgFrame :=
  { da := rx.da, sa := rx.sa, epoch := rx.epoch, hops := rx.hops + 1, seq := rx.seq, msg := m }

/-- The frame is addressed to this unit's position, or to its partner in the vehicle (R93, R115). -/
def ownPosition (s : State) (da : Mac) : Bool := numbered s && isTrainMac da && macPos da == s.survey.position

/-- A frame to another position of the consist leaves on the arrival line, unwindowed; one to none is UNRESOLVED (R114). -/
def forwardMg (rx : MgRx) (m : MgMsg) (s : State) : State :=
  let pp := macPos rx.da
  match sideTo s pp with
  | some sd =>
    if isTrainMac rx.da && numbered s && decide (1 ≤ pp) && decide (pp ≤ consistCount s) then
      queueMg [BPort.mk' rx.port.line sd] (relayed rx m) s
    else countBb rx.port 0x78 s
  | none => countBb rx.port 0x78 s

/-- The node acts on a frame that its window accepts (R117). -/
def windowed (rx : MgRx) (act : State → State) (s : State) : State :=
  match mgWindow rx s with
  | (s, .accept) => act s
  | (s, v) => countVerdict rx.port v s

/-- The rest of R111 for a management frame after step 10: where it goes, its window, and what the node does with it. A frame for the
partner in the vehicle only passes on, but that a standby takes part in every MG frame (R115); it passes no window for that (R117). -/
def mgResolve (rx : MgRx) (m : MgMsg) (act : State → State) (s : State) : State :=
  if rx.da = linkLocal then act s
  else if rx.da = allNodes then
    windowed rx (fun s =>
      let away := (rx.port.side.other.ports).filter fun p => !numbered s || innerPort s p
      act (queueMg away (relayed rx m) s)) s
  else if ownPosition s rx.da then
    if 2 ≤ macRank rx.da then countBb rx.port 0x78 s
    else if macRank rx.da = ownRank s then windowed rx act s
    else if s.twin.partner.isNone then countBb rx.port 0x78 s
    else
      let s := if s.survey.jumper = some rx.port.opposite.side then queueMg [rx.port.opposite] (relayed rx m) s else s
      if isStandby s then windowed rx act s else s
  else forwardMg rx m s

/-- The instant at which a received frame's last byte is in. -/
def rxEnd (rx : MgRx) : Nat := rx.sfd + wire10g rx.length

/-- A management frame other than an Echo message arrives at a backbone port (R111). At a port held under R31 or R180 it counts as
received and no more (R125). -/
def mgIn (rx : MgRx) (m : MgMsg) (act : State → State) (s : State) : State :=
  if !(bbTakes s rx.port && (bbAt s rx.port).up) then s
  else
    let s := toLt (rxEnd rx) s
    if rx.length < 64 ∨ 1528 < rx.length then countBb rx.port 0x28 s
    else match rx.fcs with
      | .marked => countBb rx.port 0x18 s
      | .bad => countBb rx.port 0x10 s
      | .good =>
        let s := countBb rx.port 0x00 s
        if !bbOpen s rx.port then s
        else if rx.version ≠ 1 then countBb rx.port 0x30 s
        else if rx.line ≠ rx.port.line.code then countBb rx.port 0x38 s
        else if 127 ≤ rx.hops then countBb rx.port 0x48 s
        else mgResolve rx m act s

/-- The first copy of a Survey message of a type, origin and round in a cycle is relayed (R172). -/
def relayOnce (x : Relayed) (s : State) : Bool := !s.survey.relayed.contains x

/-- A message has been relayed in this cycle (R172). -/
def markRelayed (x : Relayed) (s : State) : State :=
  { s with survey := { s.survey with relayed := x :: s.survey.relayed } }

/-- A Survey message goes on, on both ports of the side away from the port of arrival (R172). -/
def relayAway (rx : MgRx) (m : MgMsg) (s : State) : State := linkMg rx.port.side.other.ports m s

end Sys2Proof.Machine
end

