-- ==== Sys2Proof/Machine/CarOps.lean ====
section
/-! DEFINITION. What car ports, segments and the host's rings share: frame fields, readdressing, egress
queues, policing, the forwarding database, the way into the backbone, and write-back (R93 to R98, R105, R106,
R114, R116, R332 to R338, R350 to R356). Frames are held without their FCS. -/

namespace Sys2Proof.Machine

/-! ### Fields of a frame -/

/-- DA of a frame. -/
def frDa (f : List Byte) : Mac := macOf (slice f 0 6)

/-- SA of a frame. -/
def frSa (f : List Byte) : Mac := macOf (slice f 6 6)

/-- The frame is 802.1Q-tagged (R98). -/
def isTagged (f : List Byte) : Bool := nfld f 12 2 == 0x8100

/-- PCP of a frame; 0 untagged (R98). -/
def frPcp (f : List Byte) : Nat := if isTagged f then nfld f 14 2 / 2 ^ 13 else 0

/-- VID of a frame; 0 untagged. -/
def frVid (f : List Byte) : Nat := if isTagged f then nfld f 14 2 % 2 ^ 12 else 0

/-- Offset of the EtherType behind a tag. -/
def typeAt (f : List Byte) : Nat := if isTagged f then 16 else 12

/-- EtherType behind a tag. -/
def frType (f : List Byte) : Nat := nfld f (typeAt f) 2

/-- Bytes written over a frame at an offset. -/
def overwrite (f : List Byte) (i : Nat) (bs : List Byte) : List Byte := f.take i ++ bs ++ f.drop (i + bs.length)

/-- A frame with another DA. -/
def withDa (f : List Byte) (m : Mac) : List Byte := overwrite f 0 (macBytes m)

/-- A frame with another SA. -/
def withSa (f : List Byte) (m : Mac) : List Byte := overwrite f 6 (macBytes m)

/-- PCP rewritten to 0 (R98). -/
def demote (f : List Byte) : List Byte := overwrite f 14 (be 2 (nfld f 14 2 % 2 ^ 13))

/-! ### Address resolution (R332) -/

/-- An ARP packet of Ethernet and IPv4 starts at the EtherType. -/
def isArp (f : List Byte) : Bool :=
  let p := typeAt f + 2
  frType f == 0x0806 && nfld f p 2 == 1 && nfld f (p + 2) 2 == 0x0800 && fld f (p + 4) 1 == 6

/-- Offset of the options of an ICMPv6 neighbour-discovery message by its type. -/
def ndOptions : Nat → Option Nat
  | 133 => some 8
  | 134 => some 16
  | 135 => some 24
  | 136 => some 24
  | 137 => some 40
  | _ => none

/-- The one's-complement sum of 16-bit words. -/
def sum16 : List Byte → Nat
  | a :: b :: t => a.toNat * 256 + b.toNat + sum16 t
  | [a] => a.toNat * 256
  | [] => 0

/-- The Internet checksum of bytes. -/
def inetSum (bs : List Byte) : Nat :=
  let n := sum16 bs
  let n := n % 65536 + n / 65536
  let n := n % 65536 + n / 65536
  65535 - n

/-- Where the ICMPv6 message of an IPv6 packet starts, from a header of a type at an offset on: behind hop-by-hop, routing, destination
and authentication headers (RFC 8200, PRESUMED, log 72). A fragment is not rewritten. -/
def icmpAt (f : List Byte) : Nat → Nat → Nat → Option Nat
  | 0, _, _ => none
  | n + 1, ty, at_ =>
    if ty = 58 then some at_
    else if ty = 0 ∨ ty = 43 ∨ ty = 60 then icmpAt f n (fld f at_ 1) (at_ + 8 * (fld f (at_ + 1) 1 + 1))
    else if ty = 51 then icmpAt f n (fld f at_ 1) (at_ + 4 * (fld f (at_ + 1) 1 + 2))
    else none

/-- The ICMPv6 checksum of a message at an offset of a packet, computed anew. -/
def fixIcmp6 (f : List Byte) (ip at_ : Nat) : List Byte :=
  let len := nfld f (ip + 4) 2 + ip + 40 - at_
  let msg := overwrite (slice f at_ len) 2 [0, 0]
  let c := inetSum (slice f (ip + 8) 32 ++ be 4 len ++ be 4 58 ++ msg)
  overwrite f (at_ + 2) (be 2 c)

/-- Link-layer address options of the kinds in a list, equal to one address, replaced by another. -/
def ndReplace (kinds : List Nat) (old new : Mac) : Nat → Nat → Nat → List Byte → List Byte
  | 0, _, _, f => f
  | n + 1, at_, stop, f =>
    let len := 8 * fld f (at_ + 1) 1
    if len = 0 ∨ stop < at_ + len then f
    else
      let f := if kinds.contains (fld f at_ 1) && macOf (slice f (at_ + 2) 6) == old then overwrite f (at_ + 2) (macBytes new) else f
      ndReplace kinds old new n (at_ + len) stop f

/-- An ARP hardware address or a neighbour-discovery option equal to one address, replaced by another (R332). -/
def rewriteArp (arpOff : Nat) (kinds : List Nat) (old new : Mac) (f : List Byte) : List Byte :=
  let p := typeAt f + 2
  if isArp f then
    if macOf (slice f (p + arpOff) 6) = old then overwrite f (p + arpOff) (macBytes new) else f
  else if frType f = 0x86DD then
    match icmpAt f 64 (fld f (p + 6) 1) (p + 40) with
    | some m => match ndOptions (fld f m 1) with
      | some o =>
        let f' := ndReplace kinds old new 64 (m + o) (p + 40 + nfld f (p + 4) 2) f
        if f' = f then f else fixIcmp6 f' p m
      | none => f
    | none => f
  else f

/-- Into the node: the learned local address as sender gives way to the port's train address (R332). -/
def resolveIn (learned train : Mac) (f : List Byte) : List Byte := rewriteArp 8 [1, 2] learned train f

/-- Out of the node: the port's train address as target gives way to the learned local address (R332). -/
def resolveOut (train learned : Mac) (f : List Byte) : List Byte := rewriteArp 18 [1, 2] train learned f

/-! ### Car-port egress -/

/-- Where a frame entered the node, for the counters of R114, R116 and R333 and the receive descriptor of R352: `len` is its length on
its car port, `sfd` the line time of its SFD at the MDI. -/
inductive Entry_ where
  | car (n : Nat) (len sfd : Nat)
  | md (seg : Nat) (sfd : Nat)
  | host (tx : Option TxTag)
  | backbone (p : BPort) (sfd : Nat)
  deriving DecidableEq, Repr

/-- The port code of arrival (R86, R352); 0x80 for a frame of the host station itself (DESIGN CHOICE, log 73). -/
def entryCode : Entry_ → Nat
  | .car n _ _ => n
  | .md seg _ => 0x20 + seg
  | .host _ => 0x80
  | .backbone p _ => 0x10 + p.idx

/-- The line time of a frame's SFD at the MDI (R352); the present one for a frame of the host station itself (DESIGN CHOICE, log 73). -/
def entrySfd (s : State) : Entry_ → Nat
  | .car _ _ t => t
  | .md _ t => t
  | .host _ => s.clk.lt
  | .backbone _ t => t

/-- The frame came in by a segment. -/
def cameByMd (e : Entry_) (seg : Nat) : Bool :=
  match e with
  | .md n _ => n == seg
  | _ => false

/-- BE_NO_PATH at the port of entry (R116, R358). A segment and the host station have no such counter. -/
def countNoPath : Entry_ → State → State
  | .car n _ _, s => countCar n 0x48 s
  | .md _ _, s => s
  | .host _, s => s
  | .backbone _ _, s => s

/-- UNRESOLVED at the port of entry (R114, R125, R333, R358, R376). -/
def countUnresolved : Entry_ → State → State
  | .car n _ _, s => countCar n 0x50 s
  | .md n _, s => countMd n 0x50 s
  | .host _, s => s
  | .backbone p _, s => countBb p 0x78 s

/-- The transmit-ring frame that a frame from the host station is (R354). -/
def txOf : Entry_ → Option TxTag
  | .host t => t
  | _ => none

/-- The frame comes from the host station. -/
def fromHost : Entry_ → Bool
  | .host _ => true
  | _ => false

/-- The frame is RC: tagged with PCP 4 or 5 (R98). -/
def isRc (f : List Byte) : Bool := isTagged f && (frPcp f == 4 || frPcp f == 5)

/-- The car port at whose ingress a BE frame counts as held until it starts at an egress (R345). -/
def heldAt (e : Entry_) (f : List Byte) : Option (Nat × Nat) :=
  match e with
  | .car n len _ => if isRc f then none else some (n, len)
  | _ => none

/-- The train address of a car port (R93). -/
def carMac (s : State) (n : Nat) : Mac := trainMac s.survey.position (0x10 + n)

/-- An egress queue of a car port has room (R338). -/
def queueRoom (c : CarPort) (q : Nat) : Bool := decide ((c.queues.getD q []).length < if q < 8 then 64 else 16)

/-- A frame joins an egress queue of a car port whose link is up, or is counted EGRESS_DROP (R327, R338). -/
def joinCar (n q : Nat) (x : TxFrame) (s : State) : State :=
  let c := carAt s n
  if carUp c && queueRoom c q then setCar n (fun c => { c with queues := c.queues.modify q (· ++ [x]) }) s
  else countCar n 0x68 s

/-- DA and address resolution on the way out of the node (R96, R332). -/
def readdressOut (s : State) (n : Nat) (f : List Byte) : List Byte :=
  match (carAt s n).learned with
  | some l =>
    let f := resolveOut (carMac s n) l f
    if frDa f = carMac s n then withDa f l else f
  | none => f

/-- An RC or BE frame goes to a car port's egress (R96, R332, R338); it never leaves by the car port it arrived on (R337). -/
def toCar (e : Entry_) (n : Nat) (f : List Byte) (s : State) : State :=
  let back := match e with
    | .car m _ _ => m == n
    | _ => false
  if back then s else joinCar n (frPcp f) { bytes := readdressOut s n f, joined := s.clk.lt, src := heldAt e f, tx := txOf e } s

/-! ### Rings -/

/-- The receive ring of a number. -/
def rxRing (s : State) (r : Nat) : Ring := tabGet {} s.rings.rx r

/-- The transmit ring of a number. -/
def txRing (s : State) (r : Nat) : Ring := tabGet {} s.rings.tx r

/-- One receive ring changed. -/
def setRx (r : Nat) (f : Ring → Ring) (s : State) : State := { s with rings := { s.rings with rx := tabUpd {} s.rings.rx r f } }

/-- One transmit ring changed. -/
def setTx (r : Nat) (f : Ring → Ring) (s : State) : State := { s with rings := { s.rings with tx := tabUpd {} s.rings.tx r f } }

/-- Posted descriptors that the node has not used (R351, R353). -/
def posted (g : Ring) : Nat := (g.tail + ringLen g.log2 - g.head) % ringLen g.log2

/-- Bytes of the memory of a ring's host. -/
def hostRead (s : State) (h : HostId) (a n : Nat) : List Byte :=
  match h with
  | .pcie => (List.range n).map fun i => Config.hostByte s.clk.draws (a + i)
  | .spi => memRead s.ram a n

/-- Bytes written into the memory of a ring's host. -/
def hostStore (h : HostId) (a : Nat) (bs : List Byte) (s : State) : State :=
  match h with
  | .pcie => emit (.hostWrite a bs) s
  | .spi => { s with ram := memWrite s.ram a bs }

/-- The address of a descriptor, counted from the ring's head (R352). -/
def descAddr (g : Ring) (i : Nat) : Nat := g.base + 32 * ((g.head + i) % ringLen g.log2)

/-- The buffers that a frame fills, from a descriptor on: address and bytes of each; none where the ring runs dry (R353). -/
def fillBuffers (s : State) (g : Ring) : Nat → Nat → List Byte → Option (List (Nat × List Byte))
  | 0, _, bs => if bs = [] then some [] else none
  | n + 1, i, bs =>
    if bs = [] then some []
    else
      let d := hostRead s g.host (descAddr g i) 32
      let len := max 1 (fld d 8 2)
      (fillBuffers s g n (i + 1) (bs.drop len)).map fun r => (fld d 0 8, bs.take len) :: r

/-- The write-back of one receive descriptor (R352). -/
def writeBack (g : Ring) (i n : Nat) (len flags port stamp total : Nat) (s : State) : State :=
  let first := i = 0
  let flags := 1 + flagAt first 1 + flagAt (i + 1 = n) 2 + flags
  let a := descAddr g i
  let s := if first then hostStore g.host (a + 16) (le 8 (stamp / 65536) ++ le 2 (stamp % 65536) ++ le 2 total) s else s
  hostStore g.host (a + 10) (le 2 len ++ le 2 flags ++ byte1 port) s

/-- The write-back of a frame's descriptors: the LAST, then the middle ones, then the FIRST (R353). -/
def writeBacks (g : Ring) (bufs : List (Nat × List Byte)) (flags port stamp total : Nat) (s : State) : State :=
  let n := bufs.length
  let order := if n ≤ 1 then [0] else (n - 1) :: ((List.range (n - 1)).drop 1 ++ [0])
  order.foldl (fun s i => writeBack g i n (bufs.getD i (0, [])).2.length flags port stamp total s) s

/-- The port whose block a ring signals through: LAF for the host station (R359). -/
def ringPort (port : Nat) : EPort := if h : port < 12 then .car ⟨port, h⟩ else .bb .laf

/-- A frame is lost for want of a descriptor (R353, R356, R359). -/
def ringDry (port : Nat) (s : State) : State :=
  let s := assertPort (ringPort port) 4 s
  if port < 12 then countCar port 0xA0 s
  else
    let s := { s with rings := { s.rings with hostDry := s.rings.hostDry + 1 } }
    let due := match s.rings.hostDryPs with
      | none => true
      | some t => decide (t + 10000 * 10 ^ 9 ≤ s.clk.ps)
    if due then
      logEvent 0x05 srcNode (le 4 (sat 32 s.rings.hostDry)) { s with rings := { s.rings with hostDry := 0, hostDryPs := some s.clk.ps } }
    else s

/-- A frame with its FCS goes to the receive ring of a port, if one takes it (R330, R352, R353). -/
def toRing (ring : Option Nat) (port : Nat) (f : List Byte) (flags stamp code : Nat) (s : State) : State :=
  match ring with
  | none => s
  | some r =>
    let g := rxRing s r
    if g.unbinding.isSome then s
    else match fillBuffers s g (posted g) 0 f with
      | none => ringDry port s
      | some bufs =>
        let s := draw s
        let s := bufs.foldl (fun s b => hostStore g.host b.1 b.2 s) s
        let s := writeBacks g bufs flags code stamp f.length s
        let s := setRx r (fun g => { g with head := (g.head + bufs.length) % ringLen g.log2 }) s
        assertPort (ringPort port) 2 s

/-- A frame kept under RX_KEEP_BAD goes to a car port's ring; KEPT_BAD counts it where it was written (R329, R331, R358). -/
def keepBad (n : Nat) (f : List Byte) (flags stamp code : Nat) (s : State) : State :=
  match (carAt s n).rxRing with
  | none => s
  | some r =>
    let s' := toRing (some r) n f flags stamp code s
    if (rxRing s' r).head = (rxRing s r).head then s' else countCar n 0x98 s'

/-- A frame without FCS goes to the host station, with the port and the SFD of its arrival (R93, R350, R352). -/
def toHost (e : Entry_) (f : List Byte) (s : State) : State :=
  toRing s.rings.hostRx 0x80 (withFcs f) 0 (entrySfd s e) (entryCode e) s

/-! ### Policing and the forwarding database -/

/-- A bucket filled up to now (R335). -/
def refill (ps : Nat) (b : Bucket) : Bucket :=
  { b with level := min (b.burst * 10 ^ 12) (b.level + (ps - b.atPs) * b.rate / 8), atPs := ps }

/-- A frame asks a bucket for its bytes: the bucket after, and whether it is admitted (R335). RC_RATE 0 admits none. -/
def police (ps len : Nat) (b : Bucket) : Bucket × Bool :=
  let b := refill ps b
  if b.rate ≠ 0 ∧ len * 10 ^ 12 ≤ b.level then ({ b with level := b.level - len * 10 ^ 12 }, true) else (b, false)

/-- Where a group frame goes locally: car ports, segments, host station, and whether it stays off the backbone (R336, R337, R365). -/
structure GroupWay where
  mask : BitVec 12
  segs : BitVec 2
  host : Bool
  localOnly : Bool
  deriving DecidableEq, Repr

/-- The entry of a group address, or the FLOOD bits without one (R336, R337). -/
def groupWay (s : State) (vid : Nat) (da : Mac) : GroupWay :=
  match s.store.fdb.find? fun e => e.vid == vid && e.addr == da with
  | some e => { mask := e.mask, segs := 0, host := e.host, localOnly := e.localOnly }
  | none => { mask := BitVec.ofNat 12 (packBits (s.car.map fun c => c.floodBit)),
              segs := BitVec.ofNat 2 (packBits (s.md.map fun m => m.floodBit)), host := true, localOnly := false }

/-! ### The way into the backbone -/

/-- The 24-byte header and payload of a general frame, without LINE and FCS (R105, R106): class 1 is RC, 2 is BE. -/
def generalFrame (cls epoch seq : Nat) (f : List Byte) : List Byte :=
  let untagged := !isTagged f
  let head := slice f 0 12 ++ be 2 0x88B6 ++ byte1 (0x10 + 4 * cls) ++ byte1 epoch ++ byte1 0
    ++ byte1 (packBits [cls == 1, untagged]) ++ be 2 seq ++ (if untagged then zeros 2 else slice f 14 2)
    ++ slice f (typeAt f) 2
  padTo (max 60 (24 + (f.length - (typeAt f + 2)))) 0 (head ++ f.drop (typeAt f + 2))

/-- The car frame that a general frame carries (R105). -/
def carFrameOf (g : List Byte) : List Byte :=
  let untagged := bitOf (fld g 17 1) 1
  slice g 0 12 ++ (if untagged then [] else be 2 0x8100 ++ slice g 20 2) ++ slice g 22 2 ++ g.drop 24

/-- The unit of a vehicle that its active unit stands behind, for traffic that comes from its head (`fromHead`) or its tail: the jumper
then lies on the path to it. Unit P stands toward end 1 (R39), and S_ACTIVE names unit S (R194). -/
def behindJumper (e : Entry) (fromHead : Bool) : Bool := (e.sActive != e.reversed) == fromHead

/-- The record shows a line unbroken from this unit to a position, or where `whole` to the end of the train there (R116, R194). The
jumper of this vehicle is on the path on one side only, that of the last vehicle where its active unit, or the end, lies behind it. -/
def unbroken (s : State) (l : Line) (pos : Nat) (whole : Bool) : Bool :=
  let own := s.survey.position
  match s.survey.record with
  | none => false
  | some r => r.entries.all fun e =>
      let inside := decide (min own pos ≤ e.position) && decide (e.position ≤ max own pos)
      let link := match l with
        | .a => e.linkA
        | .b => e.linkB
      let jumper := match l with
        | .a => e.jumperA
        | .b => e.jumperB
      let jumped := if e.position = own then own == pos || s.survey.jumper == sideTo s pos
        else if e.position = pos then whole || behindJumper e (decide (own < pos)) else true
      !inside || ((e.position == min own pos || link) && (!(e.twinned && jumped) || jumper))

/-- The line for a BE frame toward a position (R116). -/
def beLine (s : State) (pos : Nat) : Option Line :=
  if unbroken s .a pos false then some .a else if unbroken s .b pos false then some .b else none

/-- The line for BE group traffic by a list of sides: unbroken to the end of the train in each direction (R116). -/
def groupLine (s : State) (ends : List Nat) : Option Line :=
  if ends.all fun e => unbroken s .a e true then some .a else if ends.all fun e => unbroken s .b e true then some .b else none

/-- A general frame joins the queue of a backbone port that is a member link; its class queue holds 64 (R124, R247, R338). -/
def queueGeneral (p : BPort) (x : BbFrame) (s : State) : State :=
  let same := ((bbAt s p).general.filter fun y => y.rc == x.rc && y.pcp == x.pcp).length
  if (neighAt s p).member && decide (same < 64) then setBb p (fun b => { b with general := b.general ++ [x] }) s else s

/-- The end position of a side of the consist. -/
def endPos (s : State) (sd : Side) : Nat := if s.survey.headSide = some sd then 1 else consistCount s

/-- The unit has positions of its consist on a side. -/
def hasSide (s : State) (sd : Side) : Bool := numbered s && innerPort s (.mk' .a sd)

/-- A BE frame goes out of sides on the line that R116 has picked, or counts BE_NO_PATH. -/
def beSides (e : Entry_) (l : Option Line) (sides : List Side) (f : List Byte) (s : State) : State :=
  match l with
  | some l =>
    let x : BbFrame := { bytes := generalFrame 2 s.survey.epoch 0 f, pcp := frPcp f, rc := false, src := heldAt e f, tx := txOf e }
    sides.foldl (fun s sd => queueGeneral (.mk' l sd) x s) s
  | none => countNoPath e s

/-- An RC frame goes out of a list of sides on both lines with one sequence number (R116). -/
def rcSides (e : Entry_) (sides : List Side) (f : List Byte) (s : State) : State :=
  let s := { s with survey := { s.survey with rcSeq := s.survey.rcSeq + 1 } }
  let x : BbFrame := { bytes := generalFrame 1 s.survey.epoch s.survey.rcSeq.toNat f, pcp := frPcp f, rc := true, tx := txOf e }
  (sides.flatMap Side.ports).foldl (fun s p => queueGeneral p x s) s

/-- A frame enters the backbone toward a position (R114, R116). -/
def toPosition (e : Entry_) (pos : Nat) (f : List Byte) (s : State) : State :=
  match sideTo s pos with
  | some sd => if isRc f then rcSides e [sd] f s else beSides e (beLine s pos) [sd] f s
  | none => countUnresolved e s

/-- A group frame enters the backbone in each direction (R114, R116). -/
def toTrain (e : Entry_) (f : List Byte) (s : State) : State :=
  let sides := [Side.front, Side.rear].filter (hasSide s)
  if sides = [] then s
  else if isRc f then rcSides e sides f s
  else beSides e (groupLine s (sides.map (endPos s))) sides f s

/-! ### Multidrop egress -/

/-- A station of a segment with its local address, if its entry holds one (R361, R362). -/
def stationAddr (s : State) (seg i : Nat) : Option Mac := (tabGet {} (mdAt s seg).stations i).addr

/-- A segment is in service: PD10 is powered and its block is not quarantined (R375, R483). -/
def mdWorks (s : State) (seg : Nat) : Bool := running s && powered s 10 && inService s (24 + seg)

/-- A frame joins a segment's egress queue of its PCP (R367): at most 32 frames, else EGRESS_DROP. -/
def joinMd (seg : Nat) (f : List Byte) (s : State) : State :=
  let q := frPcp f
  if !mdWorks s seg then s
  else if ((mdAt s seg).queues.getD q []).length < 32 then
    setMd seg (fun m => { m with queues := m.queues.modify q (· ++ [f]) }) s
  else countMd seg 0x58 s

/-- A frame goes to a station of a segment: its DA becomes the local address of the station's entry. An empty entry is counted at the
segment, whatever the frame's source (R365, R366, R376). -/
def toStation (seg i : Nat) (f : List Byte) (s : State) : State :=
  match stationAddr s seg i with
  | some a => joinMd seg (withDa f a) s
  | none => countMd seg 0x50 s

/-! ### Local delivery -/

/-- A frame goes to the station of a rank at this position (R93, R114, R333, R365). -/
def toRank (e : Entry_) (rank : Nat) (f : List Byte) (s : State) : State :=
  if rank = ownRank s then toHost e f s
  else if rank ≤ 1 then
    match s.survey.jumper with
    | some sd => if isRc f then rcSides e [sd] f s else beSides e (beLine s s.survey.position) [sd] f s
    | none => countUnresolved e s
  else if 0x10 ≤ rank ∧ rank - 0x10 < carPorts s.part.code then toCar e (rank - 0x10) f s
  else if 0x40 ≤ rank ∧ rank < 0x60 then toStation 0 (rank - 0x40) f s
  else if 0x60 ≤ rank ∧ rank < 0x80 then toStation 1 (rank - 0x60) f s
  else countUnresolved e s

/-- A group frame goes to the car ports, segments and host station of a way, but not where it came from (R336, R337, R365). -/
def toGroup (e : Entry_) (w : GroupWay) (f : List Byte) (s : State) : State :=
  let ports := (List.range 12).filter fun n => w.mask.getLsbD n && decide (n < carPorts s.part.code)
  let s := ports.foldl (fun s n => toCar e n f s) s
  let segs := (List.range 2).filter fun n => w.segs.getLsbD n && !cameByMd e n
  let s := segs.foldl (fun s n => joinMd n f s) s
  if w.host && !fromHost e then toHost e f s else s

/-- A frame from a station of this vehicle, its SA already a train address, goes where its train address names (R114, R116, R333). -/
def toTrainMac (e : Entry_) (f : List Byte) (s : State) : State :=
  let pp := macPos (frDa f)
  if pp = s.survey.position ∧ numbered s then toRank e (macRank (frDa f)) f s
  else if 1 ≤ pp ∧ pp ≤ consistCount s then toPosition e pp f s
  else countUnresolved e s

/-- A group frame from a station of this vehicle goes to the backbone and to local stations (R336, R337). A link-local one never leaves
its link, at whose other end is the node (R94, R114, log 60). -/
def spreadGroup (e : Entry_) (f : List Byte) (s : State) : State :=
  if frDa f = linkLocal then (if fromHost e then s else toHost e f s)
  else
    let w := groupWay s (frVid f) (frDa f)
    let s := toGroup e w f s
    if w.localOnly && !fromHost e then s else toTrain e f s

/-! ### Transmit write-back -/

/-- Flag byte 13 of a transmit descriptor's write-back: DONE with TS_LOST and DROPPED (R352). -/
def txFlags (lost dropped : Bool) : Nat := 1 + flagAt lost 1 + flagAt dropped 2

/-- A frame's descriptors are written back, the LAST with its stamp if one is given, and TX_DONE asserts (R352, R354, R359). -/
def txWriteBack (x : Stall) (s : State) : State :=
  let g := txRing s x.tag.ring
  let s := { s with rings := { s.rings with owed := s.rings.owed.erase x.tag } }
  match g.port with
  | none => s
  | some port =>
    let addr (i : Nat) : Nat := g.base + 32 * ((x.tag.desc + i) % ringLen g.log2)
    let s := match x.at_ with
      | some t => hostStore g.host (addr (x.tag.count - 1) + 16) (le 8 (t / 65536) ++ le 2 (t % 65536)) s
      | none => s
    let s := (List.range x.tag.count).foldl (fun s i => hostStore g.host (addr i + 13) (byte1 x.flags) s) s
    assertPort (ringPort port) 3 s

/-- A copy of a transmit-ring frame still waits at an egress, or its write-back stalls. -/
def txWaits (s : State) (t : TxTag) : Bool :=
  (s.bb.any fun b => b.general.any fun x => x.tx == some t)
    || s.car.any fun c => (c.queues.any fun q => q.any fun x => x.tx == some t) || (c.sending.bind fun x => x.tx) == some t
        || c.stalls.any fun x => x.tag == t

/-- Transmit-ring frames of which no copy waits any more are written back (R354): those of the host station with a zero stamp
(R355), those that a car port dropped with DROPPED (log 20). -/
def sweepTx (s : State) : State :=
  (s.rings.owed.filter fun t => !txWaits s t).foldl (fun s t =>
    match (txRing s t.ring).port with
    | some 0x80 => txWriteBack { tag := t, flags := txFlags false false, at_ := some 0 } s
    | _ => txWriteBack { tag := t, flags := txFlags false true, at_ := none } s) s

/-! ### Rates and pause -/

/-- b, the byte time of a car port's mode, in fifths of a ns (R284); 0 in mode 0. -/
def byte5 (mode : Nat) : Nat :=
  match mode with
  | 1 => 4
  | 2 => 8
  | 3 => 16
  | 4 => 40
  | 5 => 400
  | _ => 0

/-- Line time that `n` bytes take on a car port (R340). -/
def carWire (c : CarPort) (n : Nat) : Nat := (n * byte5 c.mode * unitsPerNs + 4) / 5

/-- Length on the wire of a frame held without FCS. -/
def wireLen (f : List Byte) : Nat := max 60 f.length + 4

/-- Sum of the ingress lengths of a port among frames that wait. -/
def srcBytes (n : Nat) (l : List (Option (Nat × Nat))) : Nat :=
  l.foldl (fun a x => match x with
    | some (m, len) => if m = n then a + len else a
    | none => a) 0

/-- BE bytes of a car port held at ingress (R345; log 21): those of its frames that wait at an egress of the node. -/
def heldBytes (s : State) (n : Nat) : Nat :=
  srcBytes n (s.bb.flatMap fun b => b.general.map fun x => x.src)
    + srcBytes n (s.car.flatMap fun c => c.queues.flatten.map fun x => x.src)

/-- A pause frame leaves a car port (R345, R358). -/
def sendPause (n quanta : Nat) (s : State) : State :=
  countCar n 0x08 (countCar n 0x80 (emit (.pause n quanta) (setCar n (fun c => { c with pausing := decide (quanta ≠ 0), pausePs := s.clk.ps }) s)))

/-- The port's held bytes have changed (R345): the partner is stopped above 49,152 and let go below 24,576. -/
def pauseCheck (n : Nat) (s : State) : State :=
  let c := carAt s n
  if !(c.flags.getLsbD 2 && carUp c && isActive s) then s
  else if !c.pausing && decide (49152 < heldBytes s n) then sendPause n 0xFFFF s
  else if c.pausing && decide (heldBytes s n < 24576) then sendPause n 0 s
  else s

/-- A BE frame that came in by a car port waits at an egress no more: it has started, or it was dropped (R345). -/
def frameStarts (src : Option (Nat × Nat)) (s : State) : State :=
  match src with
  | some (n, _) => pauseCheck n s
  | none => s

end Sys2Proof.Machine
end

