-- ==== Sys2Proof/Machine/Plan.lean ====
section
/-! DEFINITION. Placement: paths, chamber times, footprints, the search and admission, as every node computes them from
the canonical forms, the record and L, H and the Squeeze (R237, R238, R260, R261, R273 to R283, R286). Times are in units
of 2^-16 ns; widths, which are multiples of 1.6 ns, in fifths of that unit. -/

namespace Sys2Proof.Machine

/-! ### What a plan is computed from -/

/-- The record, L, the hyper-period and the Squeeze that a plan is for (R282). -/
structure PlanEnv where
  record : Record
  l : Nat
  hyper : Nat
  squeeze : Nat
  deriving DecidableEq, Repr

/-- One direction of one line's egress at one unit; unit 0 is the headward one of its vehicle (R274). -/
structure PortKey where
  pos : Nat
  unit : Nat
  headward : Bool
  line : Line
  deriving DecidableEq, Repr

/-- An egress footprint: where its chamber starts, its width in fifths of a unit, and the cycles that use it (R237). -/
structure Foot where
  key : PortKey
  start : Nat
  width5 : Nat
  mask : BitVec 128
  deriving DecidableEq, Repr

/-- COUNT of the record. -/
def PlanEnv.count (e : PlanEnv) : Nat := e.record.entries.length

/-- The entry of a position in a record. -/
def recEntry (r : Record) (pos : Nat) : Option Entry := r.entries.find? fun e => e.position == pos

/-- The vehicle at a position is twinned. -/
def isTwinned (r : Record) (pos : Nat) : Bool := ((recEntry r pos).map fun e => e.twinned) == some true

/-- LINKS bit of a line's headward link at a position. -/
def linkBit (r : Record) (l : Line) (pos : Nat) : Bool :=
  match recEntry r pos, l with
  | some e, .a => e.linkA
  | some e, .b => e.linkB
  | none, _ => false

/-- LINKS bit of a line's jumper at a position. -/
def jumperBit (r : Record) (l : Line) (pos : Nat) : Bool :=
  match recEntry r pos, l with
  | some e, .a => e.jumperA
  | some e, .b => e.jumperB
  | none, _ => false

/-- The record delay of a line's headward link at a position. -/
def delayBit (r : Record) (l : Line) (pos : Nat) : Nat :=
  match recEntry r pos, l with
  | some e, .a => e.delayA
  | some e, .b => e.delayB
  | none, _ => 0

/-! ### Contracts -/

/-- A served or servable destination: ACTIVE_CAB's first pair stands for position 1 (R260, R270). -/
def destOf (c : Contract) (i : Nat) : Nat × Nat :=
  let d := c.dests.getD i (0, 0)
  if i = 0 ∧ c.flags.getLsbD 1 then (1, d.2) else d

/-- The destination pairs in use, resolved. -/
def destsOf (c : Contract) : List (Nat × Nat) := (List.range c.destCount).map (destOf c)

/-- n and m of a valid shape, if the contract has one (R261). -/
def shapeOf (hyper : Nat) (c : Contract) : Option (Nat × Nat) :=
  if c.fph % hyper = 0 ∧ 1 ≤ c.fph / hyper ∧ c.fph / hyper ≤ 16 then some (c.fph / hyper, 1)
  else if 0 < c.fph ∧ c.fph < hyper ∧ hyper % c.fph = 0 then some (1, hyper / c.fph)
  else none

/-- Selection of a position: all ones until its host selects (R270). -/
def selectionOf (sels : Tab (BitVec 256)) (pos : Nat) : BitVec 256 := tabGet (BitVec.allOnes 256) sels pos

/-- Destination pair i of a context is served (R270). -/
def isServed (env : PlanEnv) (sels : Tab (BitVec 256)) (k : Nat) (c : Contract) (i : Nat) : Bool :=
  let d := destOf c i
  decide (i < c.destCount) && decide (1 ≤ d.1) && decide (d.1 ≤ env.count) && (selectionOf sels d.1).getLsbD k

/-- SERVED of a context (R262, R270). -/
def servedBits (env : PlanEnv) (sels : Tab (BitVec 256)) (k : Nat) (c : Contract) : BitVec 8 :=
  BitVec.ofNat 8 (packBits ((List.range 8).map (isServed env sels k c)))

/-- The served destinations of a context, resolved. -/
def servedDests (served : BitVec 8) (c : Contract) : List (Nat × Nat) :=
  ((List.range c.destCount).filter fun i => served.getLsbD i).map (destOf c)

/-! ### Paths -/

/-- The units of a vehicle, headward first (R274). -/
def unitsOf (r : Record) (pos : Nat) : List Nat := if isTwinned r pos then [0, 1] else [0]

/-- The stations of a path from a vehicle's far unit to the last unit of a vehicle (R274). -/
def stations (r : Record) (headward : Bool) (src dst : Nat) : List (Nat × Nat) :=
  if headward then (List.range (src + 1 - dst)).flatMap fun i => (unitsOf r (src - i)).reverse.map fun u => (src - i, u)
  else (List.range (dst + 1 - src)).flatMap fun i => (unitsOf r (src + i)).map fun u => (src + i, u)

/-- The delay of the link between two successive stations: 8.0 ns across a jumper (R274). -/
def hopDelay (r : Record) (l : Line) (a b : Nat × Nat) : Nat :=
  if a.1 = b.1 then 8 * unitsPerNs else delayBit r l (max a.1 b.1)

/-- The link between two successive stations was a member link at the cut-over (R275). -/
def hopUp (r : Record) (l : Line) (a b : Nat × Nat) : Bool :=
  if a.1 = b.1 then jumperBit r l a.1 else linkBit r l (max a.1 b.1)

/-- Every link of a path is up on a line (R275). -/
def pathUp (r : Record) (l : Line) : List (Nat × Nat) → Bool
  | a :: b :: t => hopUp r l a b && pathUp r l (b :: t)
  | _ => true

/-- Number of the first link of a path that is missing on a line, with the position of its end nearer the source (R283). -/
def missing (r : Record) (l : Line) : Nat → List (Nat × Nat) → Option (Nat × Nat)
  | n, a :: b :: t => if hopUp r l a b then missing r l (n + 1) (b :: t) else some (n, a.1)
  | _, _ => none

/-- Ingress and egress times of the stations after the first (R276). -/
def laterTimes (r : Record) (l : Line) (prev : Nat × Nat) (e : Nat) : List (Nat × Nat) → List ((Nat × Nat) × Nat × Nat)
  | [] => []
  | st :: t =>
    let i := e + hopDelay r l prev st
    (st, i, i + 1600 * unitsPerNs) :: laterTimes r l st (i + 1600 * unitsPerNs) t

/-- Station, ingress chamber start and egress chamber start along a path, from a source START (R276). -/
def pathTimes (r : Record) (l : Line) (s : Nat) : List (Nat × Nat) → List ((Nat × Nat) × Nat × Nat)
  | [] => []
  | st :: t => (st, s, s) :: laterTimes r l st s t

/-- A path of a stream: its direction, stations, and the lines it is placed on (R274, R275). -/
structure Path where
  headward : Bool
  stations : List (Nat × Nat)
  lines : List Line
  deriving DecidableEq, Repr

/-- The paths of a stream to its served destinations: headward to the least position, tailward to the greatest (R274). -/
def pathsOf (env : PlanEnv) (src : Nat) (dests : List (Nat × Nat)) : List Path :=
  let lo := (dests.map fun d => d.1).foldl min src
  let hi := (dests.map fun d => d.1).foldl max src
  let mk (hw : Bool) (dst : Nat) : Path :=
    let st := stations env.record hw src dst
    { headward := hw, stations := st, lines := [Line.a, Line.b].filter fun l => pathUp env.record l st }
  (if lo < src then [mk true lo] else []) ++ (if src < hi then [mk false hi] else [])

/-- A stream's paths meet R275: both lines on every path with DUAL, at least one without. -/
def pathsUsable (dual : Bool) (ps : List Path) : Bool := ps.all fun p => decide ((if dual then 2 else 1) ≤ p.lines.length)

/-- The position that NO_PATH reports (R283): that of the missing link nearest the source. -/
def noPathPos (env : PlanEnv) (dual : Bool) (ps : List Path) : Nat :=
  let bad := ps.filter fun p => !pathsUsable dual [p]
  let found := bad.flatMap fun p => [Line.a, Line.b].filterMap fun l => missing env.record l 0 p.stations
  match found with
  | [] => 0
  | x :: xs => (xs.foldl (fun b y => if y.1 < b.1 then y else b) x).2

/-! ### Footprints -/

/-- W of a frame length in fifths of a unit (R237). -/
def width5 (squeeze maxlen : Nat) : Nat := max ((maxlen + 21) / 2 * 524288) (squeeze * 327680)

/-- Cycles of the hyper-period in which a chamber is used: the source cycles with h mod m = o, moved on by LAG (R276). -/
def cycleMask (hyper m o lag : Nat) : BitVec 128 :=
  (List.range hyper).foldl (fun x h => if h % m = o then x ||| BitVec.twoPow 128 ((h + lag) % hyper) else x) 0

/-- A phase window in fifths of a unit lies between 8,000 ns and L (R278). -/
def inCycle (env : PlanEnv) (lo hi : Nat) : Bool := decide (8000 * 327680 ≤ lo) && decide (hi ≤ 5 * env.l)

/-- The egress footprints of a frame on one line of one path, or none where R278 forbids a time of it. -/
def lineFeet (env : PlanEnv) (w m o s : Nat) (p : Path) (l : Line) : Option (List Foot) :=
  let sq := env.squeeze * 327680
  let ts := pathTimes env.record l s p.stations
  let n := ts.length - 1
  let ok := (List.range ts.length).all fun i =>
    let x := ts.getD i ((0, 0), 0, 0)
    let egress := decide (x.2.2 / env.l ≤ 2)
      && inCycle env (5 * (x.2.2 % env.l) - sq) (5 * (x.2.2 % env.l) + w) && decide (sq ≤ 5 * (x.2.2 % env.l))
    let ingress := decide (x.2.1 / env.l ≤ 2)
      && inCycle env (5 * (x.2.1 % env.l) - sq) (5 * (x.2.1 % env.l) + sq) && decide (sq ≤ 5 * (x.2.1 % env.l))
    (i == n || egress) && (i == 0 || ingress)
  if ok then some ((ts.take n).map fun x =>
      { key := { pos := x.1.1, unit := x.1.2, headward := p.headward, line := l }, start := x.2.2 % env.l, width5 := w,
        mask := cycleMask env.hyper m o (x.2.2 / env.l) })
  else none

/-- All results, or none where one is missing. -/
def allSome {α : Type} : List (Option (List α)) → Option (List α)
  | [] => some []
  | none :: _ => none
  | some x :: t => (allSome t).map fun r => x ++ r

/-- The egress footprints of a frame at grid index g, cycle offset o, on every usable line (R273, R278). -/
def frameFeet (env : PlanEnv) (w m o g : Nat) (ps : List Path) : Option (List Foot) :=
  allSome (ps.flatMap fun p => p.lines.map fun l => lineFeet env w m o (g * 4000 * unitsPerNs) p l)

/-- Two footprints at one port overlap in a cycle that both use (R238). -/
def clash (squeeze : Nat) (a b : Foot) : Bool :=
  let sq := squeeze * 327680
  a.key == b.key && a.mask &&& b.mask != 0 && decide (5 * a.start < 5 * b.start + b.width5 + sq)
    && decide (5 * b.start < 5 * a.start + a.width5 + sq)

/-- The widest free stretch after the Survey chamber, in fifths of a unit, of footprints in ascending order (R238). -/
def widestGap (squeeze stop : Nat) : Nat → List Foot → Nat
  | from_, [] => stop - from_
  | from_, f :: t => max (5 * f.start - squeeze * 327680 - from_) (widestGap squeeze stop (max from_ (5 * f.start + f.width5)) t)

/-- The sum and the free stretch of R238 hold at a port in a cycle. -/
def portOk (env : PlanEnv) (feet : List Foot) (key : PortKey) (h : Nat) : Bool :=
  let here := (feet.filter fun f => f.key == key && f.mask.getLsbD h).mergeSort fun a b => a.start ≤ b.start
  let sum := (here.map fun f => f.width5 + env.squeeze * 327680).foldl (· + ·) 0
  decide (sum + 8000 * 327680 ≤ 5 * (3 * env.l / 4))
    && decide (6192 * 65536 ≤ widestGap env.squeeze (5 * env.l) (8000 * 327680) here)

/-- A frame fits among footprints (R278): what it adds, or none. -/
def fits (env : PlanEnv) (feet : List Foot) (w m o g : Nat) (ps : List Path) : Option (List Foot) :=
  match frameFeet env w m o g ps with
  | none => none
  | some new =>
    let all := feet ++ new
    if new.any (fun a => feet.any fun b => clash env.squeeze a b) then none
    else if new.all fun a => (List.range env.hyper).all fun h => !a.mask.getLsbD h || portOk env all a.key h then some new
    else none

/-! ### The search -/

/-- G_MAX of a width (R273). -/
def gMax (env : PlanEnv) (w : Nat) : Nat := (5 * env.l - w) / (4000 * 327680)

/-- The next index from g on that fits, with what it adds (R280). -/
def nextFit (env : PlanEnv) (feet : List Foot) (w m o : Nat) (ps : List Path) : Nat → Nat → Option (Nat × List Foot)
  | 0, _ => none
  | fuel + 1, g =>
    match fits env feet w m o g ps with
    | some new => some (g, new)
    | none => nextFit env feet w m o ps fuel (g + 1)

/-- The further frames of a candidate after index g: their indices, and all that the candidate adds (R280). -/
def extendFit (env : PlanEnv) (w m o : Nat) (ps : List Path) (top : Nat) : Nat → Nat → List Foot → List Foot → Option (List Nat × List Foot)
  | 0, _, _, added => some ([], added)
  | n + 1, g, feet, added =>
    match nextFit env feet w m o ps (top + 1 - (g + 1)) (g + 1) with
    | none => none
    | some (g', new) => (extendFit env w m o ps top n g' (feet ++ new) (added ++ new)).map fun r => (g' :: r.1, r.2)

/-- A candidate of the search at g0 and o (R280): its indices and footprints. -/
def candidate (env : PlanEnv) (feet : List Foot) (w n m o g0 : Nat) (ps : List Path) : Option (List Nat × List Foot) :=
  match fits env feet w m o g0 ps with
  | none => none
  | some new => (extendFit env w m o ps (gMax env w) (n - 1) g0 (feet ++ new) new).map fun r => (g0 :: r.1, r.2)

/-- The latency of a candidate in fifths of a unit (R280). -/
def latency5 (env : PlanEnv) (c : Contract) (dests : List (Nat × Nat)) (idx : List Nat) (ps : List Path) : Nat :=
  let first := idx.headD 0 * 4000 * unitsPerNs
  let last := (idx.getLast?.getD 0) * 4000 * unitsPerNs
  let arrivals := ps.flatMap fun p => p.lines.flatMap fun l =>
    let ts := pathTimes env.record l last p.stations
    dests.flatMap fun d => ((ts.filter fun x => x.1.1 == d.1 && d.1 != c.srcPos).getLast?.map fun x => x.2.1).toList
  5 * ((arrivals.foldl max first) - first) + c.maxlen * 262144

/-- The outcome of a search (R280). -/
inductive Found where
  | placed (idx : List Nat) (o : Nat) (feet : List Foot)
  | deadline
  | capacity
  deriving DecidableEq, Repr

/-- The candidates of the search, in its order: g0, then o. -/
def candidates (env : PlanEnv) (w m : Nat) : List (Nat × Nat) :=
  (List.range (gMax env w + 1 - 3)).flatMap fun i => (List.range m).map fun o => (i + 3, o)

/-- The search of R280 over a list of candidates; `late` says that one fitted and missed the deadline. -/
def searchOver (env : PlanEnv) (feet : List Foot) (c : Contract) (dests : List (Nat × Nat)) (w n m : Nat) (ps : List Path) :
    Bool → List (Nat × Nat) → Found
  | late, [] => if late then .deadline else .capacity
  | late, (g0, o) :: t =>
    match candidate env feet w n m o g0 ps with
    | none => searchOver env feet c dests w n m ps late t
    | some (idx, new) =>
      if latency5 env c dests idx ps ≤ 5 * c.deadline * unitsPerNs then .placed idx o new
      else searchOver env feet c dests w n m ps true t

/-- The search of R280. -/
def search (env : PlanEnv) (feet : List Foot) (c : Contract) (dests : List (Nat × Nat)) (n m : Nat) (ps : List Path) : Found :=
  let w := width5 env.squeeze c.maxlen
  searchOver env feet c dests w n m ps false (candidates env w m)

/-! ### Streams in a plan -/

/-- A FREE context. -/
def freeCanon (k : Nat) : Canon :=
  { context := k, state := .free, serial := 0, cycOffset := 0, nSrc := 0, lines := 0, served := 0, srcIndex := [],
    contract := { srcPos := 0, srcPort := 0, flags := 0, destCount := 0, maxlen := 0, fph := 0, deadline := 0, dests := [] } }

/-- m of a canonical form: cycles between its source cycles (R261). -/
def canonM (hyper : Nat) (c : Canon) : Nat := ((shapeOf hyper c.contract).map fun x => x.2).getD 1

/-- A line's bit of LINES (R262). -/
def onLine (c : Canon) (l : Line) : Bool := c.lines.getLsbD (if l = .a then 0 else 1)

/-- The paths of a placed stream, on the lines that it is placed on (R262, R275). -/
def canonPaths (env : PlanEnv) (c : Canon) : List Path :=
  (pathsOf env c.contract.srcPos (servedDests c.served c.contract)).map fun p => { p with lines := p.lines.filter (onLine c) }

/-- The egress footprints of a placed stream where it now stands. -/
def canonFeet (env : PlanEnv) (c : Canon) : List Foot :=
  if c.state = .placed then
    let w := width5 env.squeeze c.contract.maxlen
    c.srcIndex.flatMap fun g => (frameFeet env w (canonM env.hyper c) c.cycOffset g (canonPaths env c)).getD []
  else []

/-- The footprints of every stream of a plan. -/
def planFeet (env : PlanEnv) (cs : List Canon) : List Foot := cs.flatMap (canonFeet env)

/-- LINES of a stream: the lines it is placed on, on at least one path (R262). -/
def linesOf (ps : List Path) : BitVec 8 :=
  BitVec.ofNat 8 (packBits [ps.any fun p => p.lines.contains .a, ps.any fun p => p.lines.contains .b])

/-- A stream that holds no chambers in a state; SRC_INDEX and CYC_OFFSET stay those of its last placement (R262). -/
def unplace (c : Canon) (st : StreamState) (served : BitVec 8) : Canon :=
  { c with state := st, served := served, nSrc := 0, lines := 0 }

/-- A stream placed at indices. -/
def placeAt (c : Canon) (served : BitVec 8) (idx : List Nat) (o serial : Nat) (ps : List Path) : Canon :=
  { c with state := .placed, served := served, nSrc := idx.length, lines := linesOf ps, srcIndex := idx, cycOffset := o, serial := serial }

/-- Why a stream is not placed: reason code and position of R283. -/
abbrev Reject := Nat × Nat

/-- A stream tried at its present indices (R270): every frame fits, in order. -/
def keepFit (env : PlanEnv) (feet : List Foot) (w m o : Nat) (ps : List Path) : List Nat → Option (List Foot)
  | [] => some []
  | g :: t =>
    match fits env feet w m o g ps with
    | none => none
    | some new => (keepFit env (feet ++ new) w m o ps t).map fun r => new ++ r

/-- A stream with a served destination elsewhere passes the checks of R283 from the shape on: n and m, and its paths. -/
def placeable (env : PlanEnv) (c : Canon) (dests : List (Nat × Nat)) : Except Reject (Nat × Nat × List Path) :=
  match shapeOf env.hyper c.contract with
  | none => .error (4, 0)
  | some (n, m) =>
    let ps := pathsOf env c.contract.srcPos dests
    let dual := c.contract.flags.getLsbD 0
    if pathsUsable dual ps then .ok (n, m, ps) else .error (5, noPathPos env dual ps)

/-- Every served destination lies at the source position (R262). -/
def allLocal (c : Contract) (dests : List (Nat × Nat)) : Bool := dests.all fun d => d.1 == c.srcPos

/-- A stream with served destinations is searched among footprints (R270, R275, R280, R283). -/
def placeStream (env : PlanEnv) (feet : List Foot) (c : Canon) (served : BitVec 8) (serial : Nat) : Except Reject Canon :=
  let dests := servedDests served c.contract
  if dests = [] then .ok (unplace c .held served)
  else if allLocal c.contract dests then .ok (unplace c .loc served)
  else match placeable env c dests with
    | .error e => .error e
    | .ok (n, m, ps) => match search env feet c.contract dests n m ps with
      | .placed idx o _ => .ok (placeAt c served idx o serial ps)
      | .deadline => .error (7, c.contract.srcPos)
      | .capacity => .error (6, c.contract.srcPos)

/-- A stream at its present SRC_INDEX and CYC_OFFSET on every line usable for its served destinations, if it has a shape and paths
there (R270). -/
def asItStands (env : PlanEnv) (c : Canon) (serial : Nat) : Option Canon :=
  let dests := servedDests c.served c.contract
  match placeable env c dests with
  | .ok (n, m, ps) =>
    if allLocal c.contract dests = false ∧ c.srcIndex.length = n ∧ c.cycOffset < m then
      some (placeAt c c.served c.srcIndex c.cycOffset (if c.state = .placed then c.serial else serial) ps)
    else none
  | .error _ => none

/-- A stream fits among footprints where it stands: every frame does, in order (R270, R278). -/
def standsFit (env : PlanEnv) (feet : List Foot) (c : Canon) : Bool :=
  (keepFit env feet (width5 env.squeeze c.contract.maxlen) (canonM env.hyper c) c.cycOffset (canonPaths env c) c.srcIndex).isSome

/-! ### Plans -/

/-- The number of links on a stream's longest path. -/
def longest (env : PlanEnv) (served : BitVec 8) (c : Contract) : Nat :=
  ((pathsOf env c.srcPos (servedDests served c)).map fun p => p.stations.length - 1).foldl max 0

/-- The order of the search of several streams (R281). -/
def planBefore (env : PlanEnv) (a b : Canon) : Bool :=
  let x := a.contract
  let y := b.contract
  let lx := longest env a.served x
  let ly := longest env b.served y
  if x.deadline ≠ y.deadline then decide (x.deadline < y.deadline)
  else if lx ≠ ly then decide (ly < lx)
  else if x.fph ≠ y.fph then decide (y.fph < x.fph)
  else if x.maxlen ≠ y.maxlen then decide (y.maxlen < x.maxlen)
  else decide (a.context ≤ b.context)

/-- Streams searched one after another among fixed footprints; those that fail are listed with their reason (R281). -/
def placeAll (env : PlanEnv) (serial : Nat) : List Foot → List Canon → List Canon × List (Nat × Reject)
  | _, [] => ([], [])
  | feet, c :: t =>
    match placeStream env feet c c.served serial with
    | .ok c' =>
      let r := placeAll env serial (feet ++ canonFeet env c') t
      (c' :: r.1, r.2)
    | .error e =>
      let r := placeAll env serial feet t
      (unplace c .dead c.served :: r.1, (c.context, e) :: r.2)

/-- A chamber with a LAG: context, LAG, footprint (R276, R279). -/
abbrev LagFoot := Nat × Nat × Foot

/-- The egress chambers of a stream with LAG of 1 or 2 (R276, R279). -/
def lagFeet (env : PlanEnv) (c : Canon) : List LagFoot :=
  if c.state = .placed then
    (canonPaths env c).flatMap fun p => p.lines.flatMap fun l => c.srcIndex.flatMap fun g =>
      let ts := pathTimes env.record l (g * 4000 * unitsPerNs) p.stations
      ((ts.take (ts.length - 1)).filter fun x => decide (1 ≤ x.2.2 / env.l)).map fun x =>
        let lag := x.2.2 / env.l
        (c.context, lag, {
          key := { pos := x.1.1, unit := x.1.2, headward := p.headward, line := l }, start := x.2.2 % env.l,
          width5 := width5 env.squeeze c.contract.maxlen, mask := cycleMask env.hyper (canonM env.hyper c) c.cycOffset lag })
  else []

/-- Where a chamber of the previous plan lies in the cycles of the plan being built, in every one of them: for each source cycle before
the change that it may still serve (R279). -/
def everyCycle (old env : PlanEnv) (x : LagFoot) : List Foot :=
  let at_ (i : Nat) : Foot := { x.2.2 with start := (i * old.l + x.2.2.start) % env.l, mask := BitVec.allOnes 128 }
  if old.l = env.l then [at_ 0] else (List.range x.2.1).map at_

/-- Footprints of the previous plan, built for `old`, with LAG of 1 or 2 that the plan being built for `env` does not carry over
unchanged: occupied in every cycle (R279, R594). -/
def laggingFeet (old env : PlanEnv) (before after : List Canon) : List Foot :=
  let kept := after.flatMap (lagFeet env)
  ((before.flatMap (lagFeet old)).filter fun x => old.l != env.l || !kept.contains x).flatMap (everyCycle old env)

/-- The canonical form of a context in a table, FREE where none is listed. -/
def canonAt (t : Tab Ctx) (k : Nat) : Canon := ((tabFind t k).map fun c => c.canon).getD (freeCanon k)

/-- The canonical forms that a table lists, in context order. -/
def canons (t : Tab Ctx) : List Canon := t.map fun e => e.2.canon

/-- A context written into a table; a FREE one is not listed (R262, R263). -/
def putCanon (t : Tab Ctx) (c : Canon) : Tab Ctx :=
  match tabFind t c.context with
  | some x =>
    tabPut t c.context { x with canon := c, cause := if c.state = .dead then x.cause else 0, intake := if c.state = .placed then x.intake else 0 }
  | none => tabPut t c.context { canon := c, cause := 0, intake := 0, phase := 0 }

/-- The lowest FREE context, if one is (R263). -/
def lowestFree (t : Tab Ctx) : Option Nat := (List.range 256).find? fun k => (tabFind t k).isNone

/-! ### Admission -/

/-- A named port is absent on the part at its position (R17, R283). -/
def portMissing (env : PlanEnv) (pos port : Nat) : Bool :=
  match recEntry env.record pos with
  | some e => decide (carPorts e.part ≤ port)
  | none => false

/-- The positions and ports that a contract names, the source first (R283). -/
def namedBy (c : Contract) : List (Nat × Nat) := (c.srcPos, c.srcPort) :: destsOf c

/-- Checks 0x01 to 0x04 of R283. -/
def admitChecks (env : PlanEnv) (t : Tab Ctx) (c : Contract) : Option Reject :=
  match (namedBy c).find? fun d => portMissing env d.1 d.2 with
  | some d => some (1, d.1)
  | none =>
    if t.any fun x => !x.2.gone && x.2.canon.contract.srcPos == c.srcPos && x.2.canon.contract.srcPort == c.srcPort then some (2, c.srcPos)
    else match (namedBy c).find? fun d => decide (env.count < d.1) with
      | some d => some (3, d.1)
      | none => if (shapeOf env.hyper c).isNone then some (4, 0) else none

/-- The canonical form of a new contract before placement. -/
def newCanon (k : Nat) (c : Contract) (served : BitVec 8) : Canon := { freeCanon k with state := .held, contract := c, served := served }

/-- The outcome of a change: contexts and selections after it, or a refusal: outcome, code, position of PL_RESULT (R292). -/
abbrev Planned := Except (Nat × Nat × Nat) (Tab Ctx × Tab (BitVec 256))

/-- Entries that the streams of a plan could need at one port, at most (R240, R283). -/
def entriesNeeded (t : Tab Ctx) : Nat := ((canons t).map fun c => c.nSrc).foldl (· + ·) 0

/-- A declared contract in a context (R264, R283): the other streams keep their chambers; `before` is the plan that the new
one replaces. -/
def planDeclare (env : PlanEnv) (before : List Canon) (serial : Nat) (t : Tab Ctx) (sels : Tab (BitVec 256)) (k : Nat) (c : Contract) : Planned :=
  match admitChecks env t c with
  | some (code, pos) => .error (1, code, pos)
  | none =>
    let cur := canons t
    let feet := planFeet env cur ++ laggingFeet env env before cur
    match placeStream env feet (newCanon k c 0) (servedBits env sels k c) serial with
    | .error (code, pos) => .error (1, code, pos)
    | .ok x => if 4096 < entriesNeeded (putCanon t x) then .error (2, 2, 0) else .ok (putCanon t x, sels)

/-- A withdrawn context is FREE (R263). -/
def planWithdraw (t : Tab Ctx) (sels : Tab (BitVec 256)) (k : Nat) : Planned := .ok (tabDel t k, sels)

/-- A stream's served destinations have shrunk to those of a new canonical form, on lines that each of its paths had (R270). -/
def shrinksOn (env : PlanEnv) (old new : Canon) : Bool :=
  (canonPaths env new).all fun p => (canonPaths env old).any fun q => q.headward == p.headward && p.lines.all fun l => q.lines.contains l

/-- A stream under a new selection (R270): as it is, smaller, or, where it is widened, to be checked and placed. A DEAD one only shows what
is served (R262). A path that loses its farthest destinations and could take a further line then is placed as a widened one (R275). -/
def reselect (env : PlanEnv) (sels : Tab (BitVec 256)) (c : Canon) : Canon × Bool :=
  let served := servedBits env sels c.context c.contract
  let dests := servedDests served c.contract
  let gained := servedDests (served &&& ~~~c.served) c.contract
  if c.state = .dead then ({ c with served := served }, false)
  else if served = c.served then (c, false)
  else if dests = [] then (unplace c .held served, false)
  else if allLocal c.contract dests then (if gained = [] then unplace c .loc served else { c with served := served }, gained != [])
  else if c.state = .placed ∧ allLocal c.contract gained then
    let d := { c with served := served, lines := c.lines &&& linesOf (pathsOf env c.contract.srcPos dests) }
    (d, !shrinksOn env c d)
  else ({ c with served := served }, true)

/-- Widened streams that keep their SRC_INDEX and CYC_OFFSET, and those to be searched (R270, R281): each in its turn is tried where it
stands, among the streams fixed so far and what lags of all others. -/
def keepWidened (env : PlanEnv) (before : List Canon) (serial : Nat) : List Canon → List Canon → List Canon × List Canon
  | fixed, [] => (fixed, [])
  | fixed, c :: t =>
    let tried := (asItStands env c serial).filter fun d =>
      standsFit env (planFeet env fixed ++ laggingFeet env env before (fixed ++ [d])) d
    match tried with
    | some d => keepWidened env before serial (fixed ++ [d]) t
    | none =>
      let r := keepWidened env before serial fixed t
      (r.1, c :: r.2)

/-- Streams searched one after another, all of them or a refusal (R270). -/
def placeEach (env : PlanEnv) (serial : Nat) : List Foot → List Canon → Except Reject (List Canon)
  | _, [] => .ok []
  | feet, c :: t =>
    match placeStream env feet c c.served serial with
    | .error e => .error e
    | .ok c' =>
      match placeEach env serial (feet ++ canonFeet env c') t with
      | .error e => .error e
      | .ok r => .ok (c' :: r)

/-- The shape of the widened streams that become LOCAL (R283): the first whose contract has none is refused. -/
def localRefused (env : PlanEnv) (todo : List Canon) : Bool :=
  todo.any fun c => allLocal c.contract (servedDests c.served c.contract) && (shapeOf env.hyper c.contract).isNone

/-- A selection replaced (R270): streams that gain a destination are tried where they stand, then searched (R281). -/
def planView (env : PlanEnv) (before : List Canon) (serial : Nat) (t : Tab Ctx) (sels : Tab (BitVec 256)) (pos : Nat) (mask : BitVec 256) : Planned :=
  let sels' := tabSet (BitVec.allOnes 256) sels pos mask
  let rs := (canons t).map (reselect env sels')
  let fixed := (rs.filter fun r => !r.2).map fun r => r.1
  let todo := ((rs.filter fun r => r.2).map fun r => r.1).mergeSort (planBefore env)
  if localRefused env todo then .error (1, 4, 0)
  else
    let (kept, rest) := keepWidened env before serial fixed todo
    match placeEach env serial (planFeet env kept ++ laggingFeet env env before kept) rest with
    | .error (code, p) => .error (1, code, p)
    | .ok placed =>
      let t' := (kept ++ placed).foldl putCanon t
      if 4096 < entriesNeeded t' then .error (2, 2, 0) else .ok (t', sels')

/-- Every PLACED stream placed afresh (R269). -/
def planRepack (env : PlanEnv) (before : List Canon) (serial : Nat) (t : Tab Ctx) (sels : Tab (BitVec 256)) : Planned :=
  let moving := ((canons t).filter fun c => c.state == .placed).mergeSort (planBefore env)
  let r := placeAll env serial (laggingFeet env env before []) moving
  match r.2 with
  | (_, code, p) :: _ => .error (1, code, p)
  | [] => .ok (r.1.foldl putCanon t, sels)

/-- A change of the contract set planned (R264 to R270). -/
def planChange (env : PlanEnv) (before : List Canon) (serial : Nat) (t : Tab Ctx) (sels : Tab (BitVec 256)) (target : Nat) : PlanOp → Planned
  | .declare c => planDeclare env before serial t sels target c
  | .withdraw k => planWithdraw t sels k
  | .view m => planView env before serial t sels target m
  | .repack => planRepack env before serial t sels
  | .sync => .ok (t, sels)

/-- The number of streams that a change places (R265). -/
def placesOf (env : PlanEnv) (t : Tab Ctx) (sels : Tab (BitVec 256)) (target : Nat) : PlanOp → Nat
  | .view m => (((canons t).map (reselect env (tabSet (BitVec.allOnes 256) sels target m))).filter fun r => r.2).length
  | .repack => 17
  | _ => 1

/-! ### Chamber tables and digest -/

/-- DELIVER of a vehicle for a stream (R276). -/
def deliverMask (c : Canon) (pos : Nat) : BitVec 12 :=
  (servedDests c.served c.contract).foldl (fun x d => if d.1 = pos then x ||| BitVec.twoPow 12 d.2 else x) 0

/-- The entries of one unit's tables that one frame of a stream has on one line of one path: the port's side is headward or
not, and the entry (R276). -/
def lineEntries (env : PlanEnv) (epoch : Nat) (c : Canon) (intake : Nat) (here : Nat × Nat) (p : Path) (l : Line) (g : Nat) :
    List (Bool × Line × Chamber) :=
  let ts := pathTimes env.record l (g * 4000 * unitsPerNs) p.stations
  let n := ts.length - 1
  let m := canonM env.hyper c
  (List.range ts.length).flatMap fun i =>
    let x := ts.getD i ((0, 0), 0, 0)
    if x.1 = here then
      let t := if i = n then x.2.1 else x.2.2
      let kind := if i = 0 then ChKind.source else if i = n then ChKind.terminal else ChKind.forward
      let port := if i = n then !p.headward else p.headward
      [(port, l, {
        start := t % env.l, kind := kind, lag := t / env.l, context := c.context, epoch := epoch, maxlen := c.contract.maxlen,
        deliver := deliverMask c here.1, intake := if i = 0 then intake else 0,
        mask := cycleMask env.hyper m c.cycOffset (t / env.l) })]
    else []

/-- The table entries of a plan at one unit, for its headward or tailward port of a line, in ascending START (R239, R240). -/
def tableOf (env : PlanEnv) (epoch : Nat) (t : Tab Ctx) (here : Nat × Nat) (headward : Bool) (l : Line) : List Chamber :=
  let all := t.flatMap fun e =>
    let c := e.2.canon
    if c.state = .placed then
      (canonPaths env c).flatMap fun p => p.lines.flatMap fun l => c.srcIndex.flatMap (lineEntries env epoch c e.2.intake here p l)
    else []
  ((all.filter fun x => x.1 == headward && x.2.1 == l).map fun x => x.2.2).mergeSort fun a b => a.start ≤ b.start

/-- The plan digest (R286). -/
def planDigest (env : PlanEnv) (epoch lastSerial : Nat) (t : Tab Ctx) : BitVec 32 :=
  crc32 (byte1 epoch ++ byte1 env.hyper ++ be 2 env.squeeze ++ be 8 env.l ++ be 4 env.record.crc.toNat ++ be 2 lastSerial
    ++ zeros 2 ++ (List.range 256).flatMap fun k => canonBytes true (canonAt t k))

end Sys2Proof.Machine
end

