-- ==== Sys2Proof/Machine/Streams.lean ====
section
/-! DEFINITION. Streams inside the node: contexts, the chambers in use, delivery to car ports, and the Video Slice Unit
at the source and at the cab (R47, R101 to R103, R241, R255, R270, R277, R294 to R321, R339). -/

namespace Sys2Proof.Machine

/-! ### Contexts and chambers -/

/-- The context of a number in the plan in force; none when it is FREE. -/
def ctxAt (s : State) (k : Nat) : Option Ctx := tabFind s.planner.ctxs k

/-- The context that a car port of this position is the source of (R98, R99). -/
def ctxOfPort (s : State) (n : Nat) : Option Ctx :=
  if numbered s then (s.planner.ctxs.find? fun e =>
    e.2.canon.contract.srcPos == s.survey.position && e.2.canon.contract.srcPort == n && !e.2.gone).map fun e => e.2
  else none

/-- A context in a state. -/
def ctxIs (c : Option Ctx) (st : StreamState) : Bool := (c.map fun x => x.canon.state) == some st

/-- The stream's source vehicle is this one. -/
def sourcedHere (s : State) (k : Nat) : Bool := (ctxAt s k).any fun c => numbered s && c.canon.contract.srcPos == s.survey.position && !c.gone

/-- The banks of a port. -/
def banksOf (s : State) (p : BPort) : Banks := s.gallery.banks.getD p.idx {}

/-- An entry of ACTIVE or RETIRING is used in a cycle: its source cycle belongs to its bank (R241, R255). -/
def entryUsed (s : State) (retiring : Bool) (k : Nat) (e : Chamber) : Bool :=
  e.mask.getLsbD (if retiring then (k + s.gallery.retShift) % s.gallery.retHyper else k % s.time.hyper) && match s.gallery.lastSwap with
    | none => !retiring
    | some c => if retiring then s.gallery.retiringHeld && decide (k < c + e.lag) else decide (c + e.lag ≤ k)

/-- The entries of a port that are used in a cycle. -/
def entriesIn (s : State) (p : BPort) (k : Nat) : List Chamber :=
  (banksOf s p).active.filter (entryUsed s false k) ++ (banksOf s p).retiring.filter (entryUsed s true k)

/-- The node releases the stream's own frames at this entry: SOURCE, or FORWARD at the active unit of the source vehicle (R277). -/
def releasesAt (s : State) (e : Chamber) : Bool :=
  e.kind == .source || (e.kind == .forward && isActive s && sourcedHere s e.context)

/-- The source cycle that an entry serves in a cycle (R121, R152). -/
def sourceCycle (s : State) (k : Nat) (e : Chamber) : Int := cycleTag s k - e.lag

/-- The chambers of an entry's stream at its port in one source cycle: those of the bank that serves it (R255, R276). -/
def streamChambers (s : State) (p : BPort) (k : Nat) (e : Chamber) : List Chamber :=
  let bank := if s.gallery.lastSwap.any fun c => decide (k < c + e.lag) then (banksOf s p).retiring else (banksOf s p).active
  bank.filter fun x => x.context == e.context && x.kind == e.kind

/-- The number of a chamber of a stream within its source cycle, at a port (R284, R303): later ones may lie in later cycles. -/
def chamberIndex (s : State) (p : BPort) (k : Nat) (e : Chamber) : Nat :=
  ((streamChambers s p k e).filter fun x => decide (x.lag < e.lag) || (x.lag == e.lag && decide (x.start < e.start))).length

/-- Plan-silenced under R289 or R291. -/
def planSilenced (s : State) : Bool := s.planner.silenced || s.planner.silencedTwin

/-- No violation is counted now (R144, R250, R257, R289). -/
def noViolations (s : State) : Bool := s.time.silenced || planSilenced s || s.gallery.waiting

/-- The node forwards no TT frame now (R144, R257, R289, R291). -/
def forwardStopped (s : State) : Bool := s.time.silenced || planSilenced s || s.gallery.waiting

/-- The node releases no frame of a stream now (R246, R425). -/
def releaseStopped (s : State) (k : Nat) : Bool :=
  forwardStopped s || (s.gallery.quietFrom.any fun c => decide (c ≤ s.clk.lt))
    || decide (s.time.cycles < tabGet 0 s.gallery.muteUntil k)

/-! ### Delivery to car ports -/

/-- The queue of a stream at a car port (R339). -/
def ttQueue (c : CarPort) (k : Nat) : Nat := 8 + min 23 ((c.ttStreams.findIdx? fun x => x == k).getD 23)

/-- A TT frame as the backbone carries it, rebuilt for a car port (R103). -/
def rebuildTt (s : State) (n : Nat) (f : List Byte) : List Byte :=
  macBytes ((carAt s n).learned.getD (carMac s n)) ++ slice f 6 6 ++ be 2 0x8100 ++ f.drop 14

/-- A TT frame joins a stream's queue at a car port. -/
def joinTt (n k : Nat) (x : TxFrame) (s : State) : State := joinCar n (ttQueue (carAt s n) k) x s

/-- The ports of a delivery mask that the part has. -/
def maskPorts (s : State) (mask : BitVec 12) : List Nat :=
  (List.range (carPorts s.part.code)).filter fun n => mask.getLsbD n

/-- The copies of a frame for the ports of a delivery mask, as rebuilt now (R103). -/
def copiesOf (s : State) (mask : BitVec 12) (f : List Byte) : Tab (List Byte) := (maskPorts s mask).map fun n => (n, rebuildTt s n f)

/-- Copies go to their ports on the active unit (R47, R113, R409); the lowest port may carry the slice's age. -/
def deliverCopies (copies : Tab (List Byte)) (k : Nat) (hold : Option Nat) (slice : Option (Nat × Option Nat)) (s : State) : State :=
  if isActive s then
    copies.foldl (fun s c => joinTt c.1 k {
      bytes := c.2, joined := s.clk.lt, hold := hold, slice := if (copies.head?.map fun x => x.1) = some c.1 then slice else none } s) s
  else s

/-- A frame goes to each port of a mask on the active unit (R47, R113). -/
def deliverTt (mask : BitVec 12) (k : Nat) (f : List Byte) (s : State) : State := deliverCopies (copiesOf s mask f) k none none s

/-! ### The VSU -/

/-- What the VSU keeps for a context. -/
def vsuAt (s : State) (k : Nat) : Vsu := tabGet {} s.vsu k

/-- The VSU state of a context changed. -/
def setVsu (k : Nat) (f : Vsu → Vsu) (s : State) : State := { s with vsu := tabUpd {} s.vsu k f }

/-- The VSU works: it is on the part, PD11 is powered and its block is not quarantined (R8, R483, R503). -/
def vsuWorks (s : State) : Bool := hasVsu s.part && powered s 11 && inService s 30

/-- The VSU acts on a context (R294, R296). -/
def vsuOn (s : State) (k : Nat) : Bool := vsuWorks s && (vsuAt s k).configured

/-- The VSU has to do with a context at the cab: it serves it, or its service has ended and units of earlier cycles are still to come
(R295, R315, R318). -/
def vsuCab (s : State) (k : Nat) : Bool :=
  let v := vsuAt s k
  vsuWorks s && (v.configured || v.endsAt.isSome) && v.allotted && !v.plain

/-- The VSU orders the frames of a source cycle at the cab (R307, R314, R318). A frame that comes after the service has ended is late. -/
def vsuOrders (s : State) (k : Nat) (sc : Int) : Bool :=
  let v := vsuAt s k
  vsuWorks s && (v.configured || v.endsAt.isSome) && !v.plain && decide (v.since ≤ sc) && (v.allotted || v.closed.any fun c => decide (sc ≤ c))

/-- One of the VSU's records, at most once per 10,000 ms and context, with the occurrences since the last (R320). -/
def vsuRecord (code k : Nat) (s : State) : State :=
  let x := tabGet (0, 0) (vsuAt s k).limits code
  if x.1 = 0 ∨ x.1 - 1 + 10000 * 10 ^ 9 ≤ s.clk.ps then
    logEvent code (srcCtx k) (le 4 (sat 32 (x.2 + 1))) (setVsu k (fun v => { v with limits := tabSet (0, 0) v.limits code (s.clk.ps + 1, 0) }) s)
  else setVsu k (fun v => { v with limits := tabSet (0, 0) v.limits code (x.1, x.2 + 1) }) s

/-- What the VSU reads of a frame: whether it ends a VCL NAL unit, and its time field if valid (R297 to R300). -/
structure Examined where
  ends : Bool
  field : Option Nat
  deriving DecidableEq, Repr

/-- A NAL unit type is VCL (R298). -/
def isVcl (codec t : Nat) : Bool := if codec = 0 then decide (1 ≤ t) && decide (t ≤ 5) else decide (t ≤ 31)

/-- The type in the first byte of a NAL unit header. -/
def nalType (codec b : Nat) : Nat := if codec = 0 then b % 32 else b / 2 % 64

/-- An aggregation packet contains a VCL NAL unit (R299). -/
def aggregates (codec : Nat) : Nat → List Byte → Bool
  | 0, _ => false
  | fuel + 1, bs =>
    let n := nfld bs 0 2
    if bs.length < 3 ∨ n = 0 then false
    else isVcl codec (nalType codec (fld bs 2 1)) || aggregates codec fuel (bs.drop (2 + n))

/-- NAL data examined: none where the packet type is not one of R298. -/
def examineNal (codec : Nat) (bs : List Byte) : Option Bool :=
  match bs with
  | [] => none
  | b :: t =>
    let ty := nalType codec b.toNat
    if codec = 0 then
      if 1 ≤ ty ∧ ty ≤ 23 then some (isVcl 0 ty)
      else if ty = 24 then some (aggregates 0 t.length t)
      else if ty = 28 then some (isVcl 0 (fld t 0 1 % 32) && bitOf (fld t 0 1) 6)
      else none
    else
      if ty ≤ 47 then some (isVcl 1 ty)
      else if ty = 48 then some (aggregates 1 t.length (t.drop 1))
      else if ty = 49 then some (isVcl 1 (fld t 1 1 % 64) && bitOf (fld t 1 1) 6)
      else none

/-- An RTP packet examined (R297): the NAL data follows the fixed header, the CSRC list and any extension. -/
def examineRtp (codec : Nat) (bs : List Byte) : Option Examined :=
  let b0 := fld bs 0 1
  if bs.length < 12 ∨ b0 / 64 ≠ 2 then none
  else
    let h := 12 + 4 * (b0 % 16)
    let h := if bitOf b0 4 then h + 4 + 4 * nfld bs (h + 2) 2 else h
    (examineNal codec (bs.drop h)).map fun e => { ends := e, field := some (nfld bs 4 4) }

/-- A stream frame examined (R297): its EtherType lies at byte 16, its payload at 18. None for an unexamined frame. -/
def examine (form codec : Nat) (f : List Byte) : Option Examined :=
  let ty := nfld f 16 2
  let p := f.drop 18
  match form with
  | 0 => if ty = 0x22F0 ∧ fld p 0 1 = 3 then
      (examineNal codec (p.drop (if codec = 0 then 28 else 24))).map fun e =>
        { ends := e, field := if bitOf (fld p 1 1) 0 then some (nfld p 12 4) else none }
    else none
  | 1 => if ty = 0x0800 ∧ fld p 0 1 / 16 = 4 ∧ fld p 9 1 = 17 ∧ nfld p 6 2 % 2 ^ 14 = 0 then
      examineRtp codec (p.drop (4 * (fld p 0 1 % 16) + 8))
    else none
  | _ => if ty = 0x86DD ∧ fld p 6 1 = 17 then examineRtp codec (p.drop 48) else none

/-- The capture instant in whole ns that a time field spells at an acceptance time, if the stamp is valid (R301). -/
def captureOf (form aNs field : Nat) : Option Nat :=
  let t := if form = 0 then aNs else aNs * 9 / 100000
  let d := (t + 2 ^ 32 - field % 2 ^ 32) % 2 ^ 32
  if t < d then none
  else
    let capture := if form = 0 then t - d else (t - d) * 100000 / 9
    if aNs ≤ capture + 100000000 then some capture else none

/-! ### The source -/

/-- The first valid stamp of a list. -/
def firstStamp (l : List (Option Nat)) : Option Nat := l.findSome? id

/-- SLICE_CUT of a stream sourced at a car port, and VSU_FAULT (R304, R322). -/
def noteCut (k n : Nat) (s : State) : State :=
  if h : n < 12 then assertPort (.car ⟨n, h⟩) 13 (vsuRecord 0x61 k s) else vsuRecord 0x61 k s

/-- The source queue of a car port changed. -/
def setQueue (n : Nat) (f : List SrcFrame → List SrcFrame) (s : State) : State :=
  { s with gallery := { s.gallery with queues := s.gallery.queues.modify n f } }

/-- The source queue of a car port. -/
def queueOf (s : State) (n : Nat) : List SrcFrame := s.gallery.queues.getD n []

/-- A queue without the frames of the unit that its last frame belongs to. -/
def dropLastUnit (q : List SrcFrame) : List SrcFrame :=
  match q.reverse.dropWhile fun f => !f.begins with
  | [] => []
  | _ :: t => t.reverse

/-- A frame that the guardian accepted joins its source queue of 8 frames; a ninth is dropped (R245), and cuts its unit (R304): what of
it is queued goes, and what is still to come is discarded. -/
def joinSource (n k : Nat) (f : SrcFrame) (ends : Bool) (s : State) : State :=
  if (queueOf s n).length < 8 then setQueue n (· ++ [f]) s
  else
    let s := countCar n 0x38 s
    if vsuOn s k then
      noteCut k n (setQueue n (fun q => if f.begins then q else dropLastUnit q)
        (setVsu k (fun v => { v with cutting := !ends, unitOpen := false }) s))
    else s

/-- A frame accepted at the source of a PLACED stream (R244, R245, R299, R304): it comes without FCS, with its train SA. -/
def acceptSource (n k : Nat) (bytes : List Byte) (s : State) : State :=
  let plain : SrcFrame := { bytes := bytes, done := s.clk.lt, begins := false, ends := false, stamp := none }
  if vsuOn s k then
    let v := vsuAt s k
    let x := examine v.form v.codec bytes
    let ends := (x.map fun e => e.ends) == some true
    if v.cutting then (if ends then setVsu k (fun v => { v with cutting := false }) s else s)
    else if x.isNone && !v.unitOpen then s
    else
      let f := { plain with begins := !v.unitOpen, ends := ends, stamp := (x.bind fun e => e.field).bind (captureOf v.form (ltNs s)) }
      joinSource n k f ends (setVsu k (fun v => { v with unitOpen := !ends, restart := false }) s)
  else joinSource n k plain false s

/-- The source forgets the unit that it was taking in and the one that it was releasing. -/
def restartVsu (v : Vsu) : Vsu :=
  { v with restart := true, unitOpen := false, cutting := false, boundCycle := none, srcStamp := none }

/-- The source of a stream restarts (R305): queued frames before the next unit are discarded, and where none is left the first examined
frame to come begins a unit (R299). -/
def restartSource (n k : Nat) (s : State) : State :=
  let q := (queueOf s n).dropWhile fun f => !f.begins
  setVsu k (fun v => if q = [] then restartVsu v else { v with boundCycle := none, srcStamp := none }) (setQueue n (fun _ => q) s)

/-- A unit is cut at its release (R304): its queued frames go, and where it is still open those to come are discarded. -/
def cutRelease (k n : Nat) (s : State) : State :=
  let q := (queueOf s n).dropWhile fun f => !f.begins
  let open_ := (vsuAt s k).unitOpen && q == []
  noteCut k n (setVsu k (fun v => { v with
    cutting := v.cutting || open_, unitOpen := v.unitOpen && !open_, restart := v.restart || open_, boundCycle := none, srcStamp := none })
    (setQueue n (fun _ => q) s))

/-- The head of a source queue may be released in chamber j of a source cycle (R45, R245, R303). -/
def headReady (s : State) (n k : Nat) (sc : Int) (j start : Nat) : Option SrcFrame :=
  match (queueOf s n).head? with
  | none => none
  | some f =>
    if start < f.done + 800 * unitsPerNs then none
    else if !vsuOn s k then some f
    else if f.begins then (if j = 0 then some f else none)
    else if (vsuAt s k).boundCycle = some sc ∧ 0 < j then some f else none

/-- The VSU's part in a release (R300, R302, R303, R308): `start` is the chamber's START in line time. -/
def noteRelease (k : Nat) (sc : Int) (start : Nat) (f : SrcFrame) (s : State) : State :=
  if !vsuOn s k then s
  else
    let stamp := if f.begins then f.stamp else firstStamp [(vsuAt s k).srcStamp, f.stamp]
    let s := setVsu k (fun v => { v with boundCycle := some sc, srcStamp := stamp }) s
    if f.ends then
      let cab := (vsuAt s k).allotted
      match stamp with
      | some c => if cab then s else setVsu k (fun v => { v with age := min 0xFFFFFFFE (start / unitsPerNs - c) }) s
      | none =>
        let s := vsuRecord 0x60 k s
        if cab then s else setVsu k (fun v => { v with age := 0xFFFFFFFF }) s
    else s

/-- The unit's frames still queued after the last source chamber of its source cycle are cut (R304). -/
def lastChamber (n k : Nat) (last : Bool) (s : State) : State :=
  if last && vsuOn s k && ((queueOf s n).head?.any fun f => !f.begins) then cutRelease k n s else s

/-! ### The cab -/

/-- The delivery deadline D of a source cycle under a canonical form, in line time (R306). -/
def deadlineOf (s : State) (c : Canon) (sc : Int) : Nat :=
  tagBoundary s sc + (c.srcIndex.headD 0 * 4000 + c.contract.deadline) * unitsPerNs

/-- D of a source cycle at this cab: as it stood when the cycle began (R302, R306), or by the plan in force. -/
def dueOf (s : State) (k : Nat) (sc : Int) : Option Nat :=
  match (vsuAt s k).dues.find? fun d => d.1 == sc with
  | some d => some d.2
  | none => (ctxAt s k).map fun x => deadlineOf s x.canon sc

/-- The stream uses a source cycle (R262, CYC_OFFSET). -/
def usesCycle (s : State) (c : Canon) (sc : Nat) : Bool := sc % s.time.hyper % canonM s.time.hyper c == c.cycOffset

/-- Repetitions of a context that have not started are dropped from an egress (R311). -/
def dropHolds (k n : Nat) (s : State) : State :=
  setCar n (fun c => { c with queues := c.queues.map fun q => q.filter fun x => x.hold != some k }) s

/-- The unit of a source cycle among the frames passed on, when its last frame ends it: whole from its first frame on (R306). -/
def wholeUnit (passed : List CabFrame) (f : CabFrame) : Option (List CabFrame) :=
  let unit := passed.filter fun x => x.cycle == f.cycle
  match unit.find? fun x => x.begins with
  | some b => if f.ends && unit.length == (f.seq - b.seq).toNat + 1 then some unit else none
  | none => none

/-- A frame passes on to the DELIVER ports (R306 to R309, R311): a unit that is complete by its D is good and becomes the store. -/
def passOn (k : Nat) (f : CabFrame) (s : State) : State :=
  let s := (maskPorts s f.mask).foldl (fun s n => dropHolds k n s) s
  let f := { f with copies := copiesOf s f.mask f.bytes }
  let s := setVsu k (fun v => { v with last := some f.seq, passed := v.passed ++ [f] }) s
  let dOk := (dueOf s k f.cycle).any fun d => decide (s.clk.lt ≤ d)
  match wholeUnit (vsuAt s k).passed f, dOk with
  | some unit, true =>
    let stamp := firstStamp (unit.map fun x => x.stamp)
    let s := if stamp.isNone then vsuRecord 0x60 k s else s
    let s := setVsu k (fun v => { v with good := v.good ++ [f.cycle], store := unit.map (fun x => x.copies), misses := 0, owed := 0 }) s
    deliverCopies f.copies k none (some (k, stamp)) s
  | _, _ => deliverCopies f.copies k none none s

/-- Held frames pass on while the next in SEQUENCE is there (R307). -/
def drainCab (k : Nat) : Nat → State → State
  | 0, s => s
  | fuel + 1, s =>
    let v := vsuAt s k
    match v.held, v.last with
    | f :: t, some l => if f.seq = l + 1 then drainCab k fuel (passOn k f (setVsu k (fun v => { v with held := t }) s)) else s
    | _, _ => s

/-- A frame takes its place among those held, in order of SEQUENCE. -/
def holdIn (f : CabFrame) : List CabFrame → List CabFrame
  | [] => [f]
  | x :: t => if (x.seq - f.seq).toNat < 32768 then f :: x :: t else x :: holdIn f t

/-- A frame is held after a gap; its unit counts once as out of order (R307). -/
def holdFrame (k : Nat) (f : CabFrame) (s : State) : State :=
  setVsu k (fun v => { v with
    held := holdIn f v.held,
    heldUnits := if v.heldUnits.contains f.cycle then v.heldUnits else v.heldUnits ++ [f.cycle],
    disorder := if v.heldUnits.contains f.cycle then v.disorder else v.disorder + 1 }) s

/-- The D of a frame's source cycle has passed (R307). -/
def cabLate (s : State) (k : Nat) (sc : Int) : Bool :=
  ((vsuAt s k).closed.any fun c => decide (sc ≤ c)) || (dueOf s k sc).all fun d => decide (d < s.clk.lt)

/-- A frame accepted at the cab (R307): passed on in SEQUENCE order, held after a gap, or late. -/
def cabFrame (k : Nat) (unprimed : Bool) (f : CabFrame) (s : State) : State :=
  if cabLate s k f.cycle then vsuRecord 0x62 k s
  else match (if unprimed then none else (vsuAt s k).last) with
    | none => drainCab k 64 (passOn k f s)
    | some l =>
      if f.seq = l + 1 then drainCab k 64 (passOn k f s)
      else if (f.seq - l).toNat < 32768 then holdFrame k f s
      else s

/-- A valid copy that completes at the node (R47, R117): the first is delivered, in slices where the VSU acts. `first` marks
the first chamber of its source cycle, `aNs` is the line time of its acceptance by the guardian. Frames of source cycles before those
that the VSU orders are delivered plain or discarded (R294, R317, R318). -/
def acceptCopy (port : Option BPort) (k : Nat) (seq : BitVec 16) (sc : Int) (first : Bool) (mask : BitVec 12) (aNs : Nat)
    (f : List Byte) (s : State) : State :=
  let w := tabGet {} s.gallery.ttWin k
  let r := winTest w seq
  let s := { s with gallery := { s.gallery with ttWin := tabSet {} s.gallery.ttWin k r.1 } }
  match r.2 with
  | .accept =>
    let s := match port with
      | some p => countBb p 0x90 s
      | none => s
    let v := vsuAt s k
    if vsuOrders s k sc then
      let x := examine v.form v.codec f
      cabFrame k (!w.primed) {
        seq := seq, cycle := sc, bytes := f, copies := [], begins := first, ends := (x.map fun e => e.ends) == some true,
        stamp := (x.bind fun e => e.field).bind (captureOf v.form aNs), mask := mask } s
    else if vsuOn s k && !v.plain && decide (sc < v.since) && !v.sincePlain then s
    else deliverTt mask k f s
  | v => match port with
    | some p => countVerdict p v s
    | none => s

end Sys2Proof.Machine
end

