-- ==== Sys2Proof/Machine/Gallery.lean ====
section
/-! DEFINITION. The Gallery: chambers, the guardian, banks and swaps, and general frames on the backbone (R110 to R123,
R234 to R259). -/

namespace Sys2Proof.Machine

/-- The Gallery changed by a function. -/
def updGallery (f : Gallery → Gallery) (s : State) : State := { s with gallery := f s.gallery }

/-! ### Violations -/

/-- The state of an ingress. -/
def ingressAt (s : State) (p : EPort) : Ingress := s.gallery.ingress.getD p.num {}

/-- One ingress changed. -/
def setIngress (p : EPort) (f : Ingress → Ingress) (s : State) : State :=
  updGallery (fun g => { g with ingress := g.ingress.modify p.num f }) s

/-- The violations of the current cycle and the 15 before it (R251, R253). -/
def recentViolations (s : State) (p : EPort) : List (Nat × Nat) :=
  (ingressAt s p).violations.filter fun v => decide (s.time.cycles < v.1 + 16)

/-- A violation of a kind at an ingress (R250, R251): counted, and at the third in 16 cycles the ingress closes. -/
def violation (p : EPort) (kind : Nat) (s : State) : State :=
  let s := setIngress p (fun i => { i with dirty := true }) s
  if noViolations s then s
  else
    let s := assertPort p 8 (setIngress p (fun i => { i with violations := (s.time.cycles, kind) :: i.violations }) s)
    let recent := recentViolations s p
    if 3 ≤ recent.length ∧ (ingressAt s p).closed = false then
      let kinds := ((recent.take 3).reverse).map fun v => BitVec.ofNat 8 v.2
      logEvent 0x51 (srcPort p.code) kinds (setIngress p (fun i => { i with closed := true, clean := 0 }) s)
    else s

/-- A closed ingress reopens (R252): 1 clean cycles, 2 link, 3 PORT_CONFIG. -/
def reopen (p : EPort) (reason : Nat) (s : State) : State :=
  if (ingressAt s p).closed then
    logEvent 0x52 (srcPort p.code) (byte1 reason) (setIngress p (fun i => { i with closed := false, clean := 0, violations := [] }) s)
  else s

/-- INGRESS_REOPEN (R252): the end of 256 consecutive cycles without a violation. -/
def execIngressReopen (p : EPort) : State → Host.Outcome State Fault Refusal :=
  run fun s => if running s && decide (256 ≤ (ingressAt s p).clean) then reopen p 1 s else s

/-! ### Release and forwarding -/

/-- A TT frame leaves a port that is a member link, its SFD at its chamber's START (R46, R113, R236). A copy whose FCS proved wrong
ends with a marked FCS and counts MARKED_FCS_TX (R112), one that was cut only with the mark (R249). -/
def sendTt (p : BPort) (start : Nat) (f : List Byte) (how : Fcs) (s : State) : State :=
  if (neighAt s p).member && bbOpen s p then
    let bytes := if how = .good then withFcs f else withMark f
    let s := if how = .marked then countBb p 0x20 s else s
    countBb p 0x08 (emit (.backbone p start bytes (if how = .good then .good else .marked))
      (setBb p (fun b => { b with freeAt := start + wire10g (bytes.length + 20) }) s))
  else s

/-- The backbone frame of a released car frame (R100, R102). -/
def ttFrame (epoch k : Nat) (seq : BitVec 16) (f : List Byte) : List Byte :=
  [0x0B, 0x5A] ++ byte1 epoch ++ byte1 k ++ be 2 seq.toNat ++ slice f 6 6 ++ be 2 0x88B5 ++ f.drop 14

/-- A source chamber with release stopped consumes the frame it would have released (R246, R304). -/
def consume (n k : Nat) (sc : Int) (j start : Nat) (last : Bool) (s : State) : State :=
  match headReady s n k sc j start with
  | none => lastChamber n k last s
  | some _ =>
    let s := countCar n 0x38 (setQueue n (fun q => q.drop 1) s)
    if vsuOn s k then cutRelease k n s else s

/-- A source chamber releases its frame (R101, R102, R245, R303): the frame as the backbone carries it, if there is one. -/
def release (n : Nat) (e : Chamber) (sc : Int) (j start : Nat) (last : Bool) (s : State) : State × Option (List Byte) :=
  let k := e.context
  match headReady s n k sc j start with
  | none => (lastChamber n k last s, none)
  | some f =>
    let seq := tabGet 0 s.gallery.nextSeq k
    let s := setQueue n (fun q => q.drop 1) (updGallery (fun g => { g with nextSeq := tabSet 0 g.nextSeq k (seq + 1) }) s)
    let b := ttFrame e.epoch k seq f.bytes
    let s := noteRelease k sc start f s
    let s := if e.deliver = 0 then s else acceptCopy none k seq sc (j == 0) e.deliver (start / unitsPerNs) b s
    (lastChamber n k last s, some b)

/-- The accepted frame that waits at a hop for this FORWARD chamber (R46, R241). -/
def waitingFlight (s : State) (p : BPort) (k : Nat) (e : Chamber) : Option TtFlight :=
  s.gallery.flights.find? fun f => f.port == p.opposite && f.forward && !f.dropped && !f.sent && f.context == e.context && f.cycle == cycleTag s k
    && f.start + 1600 * unitsPerNs == e.start

/-- A flight replaced, or removed. -/
def setFlight (old : TtFlight) (new : Option TtFlight) (s : State) : State :=
  updGallery (fun g => { g with flights := match new with
    | some f => g.flights.map fun x => if x = old then f else x
    | none => g.flights.erase old }) s

/-- Line time of the START of a flight's FORWARD chamber (R46). -/
def egressStart (s : State) (f : TtFlight) : Nat := tagBoundary s f.cycle + f.start + 1600 * unitsPerNs

/-- The flight is needed on: it still arrives, or its delivery waits for a tie (R47). -/
def flightStays (f : TtFlight) : Bool := f.arriving || f.tied

/-- A flight's copy leaves the egress, its SFD at the START of its chamber (R46, R112, R249): the whole copy is known at once where the
frame is whole or cut, else when it ends. -/
def sendFlight (p : BPort) (f : TtFlight) (s : State) : State :=
  match f.body with
  | some (b, how) => sendTt p (egressStart s f) b how (setFlight f (if flightStays f then some { f with sent := true } else none) s)
  | none => setFlight f (some { f with sent := true }) s

/-- A FORWARD chamber's START (R46, R144, R289): the frame that waits for it leaves, unless forwarding is stopped. -/
def forwardChamber (p : BPort) (e : Chamber) (k : Nat) (s : State) : State :=
  match waitingFlight s p k e with
  | none => s
  | some f =>
    if forwardStopped s then setFlight f (if flightStays f then some { f with forward := false, sent := true } else none) s
    else sendFlight p f s

/-- A source chamber's START at a port (R45, R245, R246, R277): the first port of the chamber releases, the others send the same. -/
def sourceChamber (p : BPort) (e : Chamber) (k : Nat) (s : State) : State :=
  match ctxAt s e.context with
  | none => s
  | some c =>
    if !isActive s then s
    else
      let n := c.canon.contract.srcPort
      let sc := sourceCycle s k e
      let j := chamberIndex s p k e
      let last := (streamChambers s p k e).length == j + 1
      let stored := tabGet {} s.gallery.released e.context
      let r := if stored.chamber = some (sc, j) then (s, stored.frame)
        else if releaseStopped s e.context then (consume n e.context sc j s.clk.lt last s, none)
        else release n e sc j s.clk.lt last s
      let s := updGallery (fun g => { g with released := tabSet {} g.released e.context { chamber := some (sc, j), frame := r.2 } }) r.1
      match waitingFlight s p k e, r.2 with
      | some _, _ => forwardChamber p e k s
      | none, some b => sendTt p s.clk.lt b .good s
      | none, none => s

/-- CHAMBER_START (R241, R245, R277): a SOURCE or FORWARD chamber of a port in the present cycle begins. -/
def execChamberStart (p : BPort) (start : Nat) : State → Host.Outcome State Fault Refusal :=
  run fun s =>
    if running s && numbered s then
      let s := toPhase start s
      let k := cycleNow s
      match (entriesIn s p k).find? fun e => e.start == start && e.kind != .terminal with
      | some e => if releasesAt s e then sourceChamber p e k s else forwardChamber p e k s
      | none => s
    else s

/-! ### The guardian at a backbone ingress -/

/-- The ingress chambers of a port in a cycle: the entry, where the chamber starts, and whether it forwards (R241). -/
def ingressChambers (s : State) (p : BPort) (k : Nat) : List (Chamber × Nat × Bool) :=
  (((entriesIn s p k).filter fun e => e.kind == .terminal).map fun e => (e, e.start, false))
    ++ ((entriesIn s p.opposite k).filter fun e => e.kind == .forward && decide (1600 * unitsPerNs ≤ e.start)).map fun e =>
        (e, e.start - 1600 * unitsPerNs, true)

/-- The chamber whose window holds a phase (R248). -/
def windowAt (s : State) (p : BPort) (k t : Nat) : Option (Chamber × Nat × Bool) :=
  let sq := s.time.squeeze * unitsPerNs
  (ingressChambers s p k).find? fun c => decide (c.2.1 ≤ t + sq) && decide (t < c.2.1 + sq)

/-- A TT frame that a check drops (R111, R248, R250). -/
def dropTt (p : BPort) (off : Nat) (kind : Option Nat) (s : State) : State :=
  let s := countBb p off s
  match kind with
  | some x => violation (.bb p) x s
  | none => s

/-- A TT frame fails a check at its SFD: it counts when its end shows that it is no runt (R111, log 59). -/
def rejectTt (p : BPort) (off : Nat) (kind : Option Nat) (s : State) : State :=
  updGallery (fun g => { g with
    rejects := { port := p, counter := off, kind := kind } :: g.rejects.filter fun x => x.port != p }) s

/-- The guardian's judgement of a TT frame at a member link (R248). -/
inductive Judgement where
  | drop (counter : Nat) (kind : Option Nat)
  | fits (e : Chamber) (start : Nat) (forward : Bool)
  deriving DecidableEq, Repr

/-- The judgement of a header whose SFD lies in cycle `k` (R248). -/
def judgement (s : State) (p : BPort) (k : Nat) (sfd : Nat) (h : List Byte) : Judgement :=
  match windowAt s p k (phaseOf s sfd) with
  | none => .drop 0x80 (some 1)
  | some (e, start, fwd) =>
    if s.gallery.accepted.contains (p.idx, start, cycleTag s k) then .drop 0x80 (some 2)
    else if fld h 3 1 ≠ e.context then .drop 0x80 (some 3)
    else if fld h 2 1 ≠ e.epoch then .drop 0x50 none
    else .fits e start fwd

/-- A frame that fits its chamber is in the node from now on; at a closed ingress it will be dropped, but is judged on (R251, R252). -/
def flightOf (s : State) (p : BPort) (k sfd : Nat) (h : List Byte) (e : Chamber) (start : Nat) (fwd : Bool) : TtFlight :=
  { port := p, context := e.context, seq := BitVec.ofNat 16 (nfld h 4 2), epoch := e.epoch, sourceCycle := sourceCycle s k e,
    first := chamberIndex s (if fwd then p.opposite else p) k e == 0, start := start, cycle := cycleTag s k, forward := fwd, deliver := e.deliver,
    maxlen := e.maxlen, sfd := sfd, arriving := true, sent := false, cut := false, dropped := (ingressAt s (.bb p)).closed, tied := false
    body := none }

/-- The guardian judges a TT header at a member link (R248, R251, R252): the frame is taken into its chamber or dropped. -/
def judge (p : BPort) (sfd : Nat) (h : List Byte) (s : State) : State :=
  let k := cycleOf s sfd
  match judgement s p k sfd h with
  | .drop off kind => rejectTt p (if (ingressAt s (.bb p)).closed then 0x80 else off) kind s
  | .fits e start fwd => updGallery (fun g => { g with
      accepted := (p.idx, start, cycleTag s k) :: g.accepted, flights := g.flights ++ [flightOf s p k sfd h e start fwd] }) s

/-- TT_INGRESS_SFD (R37, R111, R248): a TT header arrives at a backbone port. -/
def execTtIngressSfd (p : BPort) (sfd : Nat) (header : List Byte) : State → Host.Outcome State Fault Refusal :=
  run fun s =>
    if !(bbTakes s p && bbOpen s p) then s
    else
      let s := toLt sfd s
      if nfld header 12 2 ≠ 0x88B5 ∨ nfld header 0 2 ≠ 0x0B5A ∨ fld header 2 1 = 0xFF then rejectTt p 0x30 none s
      else if !(neighAt s p).member then rejectTt p 0x80 none s
      else judge p sfd header s

/-- The frame now arriving at a port that fits its chamber. -/
def arrivingAt (s : State) (p : BPort) : Option TtFlight := s.gallery.flights.find? fun f => f.port == p && f.arriving

/-- The frame now arriving at a port that failed a check at its SFD. -/
def rejectedAt (s : State) (p : BPort) : Option TtReject := s.gallery.rejects.find? fun x => x.port == p

/-- The egress port's copy of a flight after its body is known: sent now if its chamber has started. -/
def settleFlight (old new : TtFlight) (s : State) : State :=
  if old.sent && new.forward then sendFlight old.port.opposite new (setFlight old (some new) s) else setFlight old (some new) s

/-- A frame that runs past MAXLEN is cut at a FORWARD chamber, dropped at a TERMINAL one, and is a violation (R249). A closed ingress
drops it whole, as any other (R251). -/
def truncate (f : TtFlight) (bytes : List Byte) (s : State) : State :=
  if f.dropped then setFlight f (some { f with cut := true }) (violation (.bb f.port) 4 s)
  else
    let s := violation (.bb f.port) 4 (countBb f.port 0x88 s)
    let body := bytes.take (f.maxlen - 4)
    if f.forward then settleFlight f { f with cut := true, body := some (body, .bad) } s
    else setFlight f (some { f with cut := true }) s

/-- TT_MAXLEN_REACHED (R249): the frame now arriving reaches MAXLEN without ending. -/
def execTtMaxlenReached (p : BPort) (bytes : List Byte) : State → Host.Outcome State Fault Refusal :=
  run fun s =>
    match arrivingAt s p with
    | some f => if running s && !f.cut then truncate f bytes (toLt (f.sfd + wire10g f.maxlen) s) else s
    | none => s

/-- The frame has arrived: it leaves the node, or waits for its egress chamber (R46) or for a tie to be settled (R47). -/
def endArrival (f : TtFlight) (s : State) : State :=
  setFlight f (if (f.forward && !f.sent && !f.dropped) || f.tied then some { f with arriving := false } else none) s

/-- A copy with a wrong FCS goes to the ring of each DELIVER port that keeps bad frames (R331). -/
def keepBadTt (f : TtFlight) (bytes : List Byte) (how : Fcs) (s : State) : State :=
  ((maskPorts s f.deliver).filter fun n => (carAt s n).flags.getLsbD 0 && isActive s).foldl (fun s n =>
    keepBad n bytes (2 ^ 3 + flagAt (how == .marked) 4) f.sfd f.port.code s) s

/-- A whole valid copy is delivered, or discarded by the window (R47, R117). -/
def deliverCopy (f : TtFlight) (body : List Byte) (s : State) : State :=
  acceptCopy (some f.port) f.context f.seq f.sourceCycle f.first f.deliver (f.sfd / unitsPerNs) body s

/-- The line A copy of a line B copy that is whole now, if it completes in the same FABCLK tick (R47, R126). -/
def tieOf (s : State) (f : TtFlight) (len : Nat) : Option TtFlight :=
  if f.port.line == .b then s.gallery.flights.find? fun g =>
    g.port.line == .a && g.arriving && !g.cut && !g.dropped && g.context == f.context && g.seq == f.seq && g.deliver != 0
      && decide (s.clk.lt ≤ g.sfd + wire10g len) && tickOf s (g.sfd + wire10g len) == tickOf s s.clk.lt
  else none

/-- The line B copies that waited for a line A copy take their turn after it (R47). -/
def settleTies (a : TtFlight) (s : State) : State :=
  (s.gallery.flights.filter fun f => f.tied && f.context == a.context && f.seq == a.seq).foldl (fun s f =>
    let s := setFlight f (if f.forward && !f.sent then some { f with tied := false } else none) s
    match f.body with
    | some (b, _) => deliverCopy f b s
    | none => s) s

/-- The end of an accepted frame whose bytes are whole (R47, R110 to R112): its FCS is checked, its copies settled, and a
valid one delivered, but that a line B copy lets a line A copy of the same tick go first. -/
def endTt (f : TtFlight) (bytes : List Byte) (s : State) : State :=
  let p := f.port
  let how := fcsOf bytes
  let body := stripFcs bytes
  let delivered := how = .good ∧ f.deliver ≠ 0 ∧ !s.gallery.waiting
  let tie := decide delivered && (tieOf s f bytes.length).isSome
  let s := settleFlight f { f with body := some (body, if how = .good then .good else .marked), tied := tie } s
  let s := match arrivingAt s p with
    | some g => endArrival g s
    | none => s
  match how with
  | .good => let s := countBb p 0x00 s; if delivered ∧ !tie then deliverCopy f body s else s
  | h => keepBadTt f bytes h (countBb p (if h = .marked then 0x18 else 0x10) s)

/-- The end of a frame that fits its chamber (R111, R249, R251). -/
def endFlight (f : TtFlight) (bytes : List Byte) (s : State) : State :=
  let p := f.port
  let drop (s : State) : State := match arrivingAt s p with
    | some g => endArrival g s
    | none => s
  if bytes.length < 64 then setFlight f none (countBb p 0x28 s)
  else if f.dropped then
    let s := if f.maxlen < bytes.length ∧ !f.cut then truncate f bytes s else s
    drop (countBb p 0x80 (if fcsOf bytes = .good then countBb p 0x00 s else s))
  else if f.cut then endArrival f s
  else if f.maxlen < bytes.length then drop (truncate f bytes s)
  else endTt f bytes s

/-- The end of a frame that failed a check at its SFD (R111): step 1 comes before that check. -/
def endReject (x : TtReject) (bytes : List Byte) (s : State) : State :=
  let p := x.port
  let s := updGallery (fun g => { g with rejects := g.rejects.filter fun y => y.port != p }) s
  if bytes.length < 64 then countBb p 0x28 s
  else dropTt p x.counter x.kind (if fcsOf bytes = .good then countBb p 0x00 s else s)

/-- TT_FRAME_END (R47, R111, R112): the last byte of a TT frame arrives. At a port held under R31 or R180 it counts as received and
no more (R125). -/
def execTtFrameEnd (p : BPort) (bytes : List Byte) : State → Host.Outcome State Fault Refusal :=
  run fun s =>
    if !(bbTakes s p && (bbAt s p).up) then s
    else match arrivingAt s p, rejectedAt s p with
      | some f, _ => settleTies f (endFlight f bytes (toLt (f.sfd + wire10g bytes.length) s))
      | none, some x => endReject x bytes s
      | none, none => if bytes.length < 64 then countBb p 0x28 s else if fcsOf bytes = .good then countBb p 0x00 s else s

/-! ### General frames -/

/-- The position that a position of the previous consist has now, if its vehicle is still in the train (R123, R224). -/
def aliasPos (s : State) (pos : Nat) : Option Nat :=
  match tabFind s.survey.aliasMap pos with
  | some p => if p = 0 then none else some p
  | none => none

/-- An address of the previous epoch mapped to the current consist; a group address stays (R123). -/
def aliasMac (s : State) (m : Mac) : Option Mac :=
  if isTrainMac m then (aliasPos s (macPos m)).map fun p => trainMac p (macRank m) else some m

/-- A general frame of the previous epoch with its addresses mapped, its EPOCH current and ALIASED set (R123). -/
def aliasFrame (s : State) (g : List Byte) (da sa : Mac) : List Byte :=
  overwrite (overwrite (withSa (withDa g da) sa) 15 (byte1 s.survey.epoch)) 17 (byte1 (fld g 17 1 ||| 4))

/-- A general frame forwarded: HOPS one higher (R108). -/
def hopped (g : List Byte) : List Byte := overwrite g 16 (byte1 (fld g 16 1 + 1))

/-- The queue entry of a forwarded general frame (R338). -/
def forwarded (g : List Byte) : BbFrame :=
  { bytes := hopped g, pcp := if bitOf (fld g 17 1) 1 then 0 else nfld g 20 2 / 2 ^ 13, rc := fld g 14 1 / 4 % 4 == 1 }

/-- The RC window of R111 step 12, for a frame that this node delivers: by the EPOCH the frame came with (R117, R119). -/
def rcWindow (epoch pos : Nat) (g : List Byte) (s : State) : State × Verdict :=
  if fld g 14 1 / 4 % 4 ≠ 1 then (s, .accept)
  else
    let k := winKey epoch pos
    let r := winTest (tabGet {} s.gallery.rcWin k) (BitVec.ofNat 16 (nfld g 18 2))
    (updGallery (fun x => { x with rcWin := tabSet {} x.rcWin k r.1 }) s, r.2)

/-- The node delivers a general frame to this address, and does not only pass it on (R111 step 12, R114, R115). -/
def delivers (s : State) (da : Mac) : Bool :=
  if isGroup da then isActive s
  else ownPosition s da && (macRank da == ownRank s || (decide (2 ≤ macRank da) && !isStandby s))

/-- The ports of a group frame away from its port of arrival (R114); the link-local address is never forwarded. -/
def onward (s : State) (p : BPort) (da : Mac) : List BPort :=
  if da = linkLocal then [] else p.side.other.ports.filter fun q => q.line == p.line && innerPort s q

/-- Where a checked general frame goes (R114, R115): to a station here, on toward another position, or both ways of a group. `v` is the
verdict of its window where the node delivers it. A link-local frame is for the node itself (log 60). -/
def routeGeneral (p : BPort) (sfd : Nat) (v : Verdict) (g : List Byte) (s : State) : State :=
  let da := frDa g
  let deliver (act : State → State) (s : State) : State := if v = .accept then act s else countVerdict p v s
  if isGroup da then
    let s := (onward s p da).foldl (fun s q => queueGeneral q (forwarded g) s) s
    if !isActive s then s
    else if da = linkLocal then deliver (toHost (.backbone p sfd) (carFrameOf g)) s
    else deliver (toGroup (.backbone p sfd) (groupWay s (frVid (carFrameOf g)) da) (carFrameOf g)) s
  else if ownPosition s da then
    if macRank da = ownRank s then deliver (toHost (.backbone p sfd) (carFrameOf g)) s
    else if macRank da ≤ 1 || isStandby s then
      if s.survey.jumper == some p.opposite.side then queueGeneral p.opposite (forwarded g) s else countBb p 0x78 s
    else deliver (toRank (.backbone p sfd) (macRank da) (carFrameOf g)) s
  else
    let pp := macPos da
    match sideTo s pp with
    | some sd =>
      if isTrainMac da && decide (1 ≤ pp) && decide (pp ≤ consistCount s) then queueGeneral (BPort.mk' p.line sd) (forwarded g) s
      else countBb p 0x78 s
    | none => countBb p 0x78 s

/-- The window of a frame where this node delivers it to an address (R111 step 12). -/
def windowAtNode (epoch src : Nat) (g : List Byte) (da : Mac) (s : State) : State × Verdict :=
  if delivers s da then rcWindow epoch src g s else (s, .accept)

/-- A frame of the previous epoch within the alias period (R123): its window comes first, then its addresses are mapped. -/
def aliasGeneral (p : BPort) (sfd : Nat) (g : List Byte) (s : State) : State :=
  match aliasMac s (frDa g) with
  | none => countBb p 0x78 s
  | some da =>
    let r := windowAtNode (fld g 15 1) (macPos (frSa g)) g da s
    if r.2 ≠ .accept ∧ (isGroup da = false ∨ onward s p da = []) then countVerdict p r.2 r.1
    else match aliasMac s (frSa g) with
      | none => countBb p 0x78 r.1
      | some sa => routeGeneral p sfd r.2 (aliasFrame s g da sa) (countBb p 0x60 r.1)

/-- Step 11 of R111 and R123: the frame's EPOCH is current, or the previous one within the alias period. -/
def epochGeneral (p : BPort) (sfd : Nat) (g : List Byte) (s : State) : State :=
  let epoch := fld g 15 1
  if epoch = s.survey.epoch then
    let r := windowAtNode epoch (macPos (frSa g)) g (frDa g) s
    routeGeneral p sfd r.2 g r.1
  else if epoch = s.survey.prevEpoch ∧ 0 < s.survey.aliasLeft ∧ epoch ≠ 0xFF then aliasGeneral p sfd g s
  else countBb p 0x58 s

/-- Steps 7 to 11 of R111 for a general frame with a good FCS (R107, R123). An MG frame comes here only with a type that is not defined,
which is found with its VERSION and CLASS (log 61). -/
def checkGeneral (p : BPort) (sfd : Nat) (g : List Byte) (s : State) : State :=
  let cls := fld g 14 1 / 4 % 4
  if fld g 14 1 / 16 ≠ 1 ∨ cls = 0 ∨ cls = 3 then countBb p 0x30 s
  else if fld g 14 1 % 4 ≠ p.line.code then countBb p 0x38 s
  else if !(neighAt s p).member then countBb p 0x40 s
  else if 127 ≤ fld g 16 1 then countBb p 0x48 s
  else epochGeneral p sfd g s

/-- BACKBONE_GENERAL_RX (R111, R114, R123): an RC or BE frame is received whole at a backbone port. A frame of another EtherType fails
before its FCS counts. At a port held under R31 or R180 it counts as received and no more (R125). -/
def execBackboneGeneralRx (p : BPort) (sfd : Nat) (bytes : List Byte) : State → Host.Outcome State Fault Refusal :=
  run fun s =>
    if !(bbTakes s p && (bbAt s p).up) then s
    else
      let s := toLt (sfd + wire10g bytes.length) s
      let g := stripFcs bytes
      if bytes.length < 64 ∨ 1528 < bytes.length then countBb p 0x28 s
      else match fcsOf bytes with
        | .good =>
          let s := countBb p 0x00 s
          if !bbOpen s p then s else if nfld g 12 2 ≠ 0x88B6 then countBb p 0x30 s else checkGeneral p sfd g s
        | how => if nfld g 12 2 ≠ 0x88B6 then countBb p 0x30 s else countBb p (if how = .marked then 0x18 else 0x10) s

/-- The order of the general queues (R92, R247, R338): RC of PCP 5, RC of PCP 4, then BE. -/
def generalOrder : List (Bool × Nat) := [(true, 5), (true, 4), (false, 7), (false, 6), (false, 5), (false, 4), (false, 3), (false, 2), (false, 1), (false, 0)]

/-- The next general frame of a port. -/
def nextGeneral (b : BbPort) : Option BbFrame :=
  generalOrder.findSome? fun q => b.general.find? fun x => x.rc == q.1 && x.pcp == q.2

/-- The first instant after now at which a footprint or the next cycle begins, as a phase (R247). -/
def nextBusy (s : State) (p : BPort) : Nat :=
  let t := phaseOf s s.clk.lt
  let sq := s.time.squeeze * unitsPerNs
  let starts := ((entriesIn s p (cycleNow s)).filter fun e => e.kind != .terminal && decide (t < e.start + wire10g (e.maxlen + 20))).map fun e => e.start - sq
  (starts.filter fun x => decide (t ≤ x)).foldl min s.time.l

/-- The port is inside a footprint or the Survey chamber (R235, R237). -/
def insideFootprint (s : State) (p : BPort) : Bool :=
  let t := phaseOf s s.clk.lt
  let sq := s.time.squeeze * unitsPerNs
  decide (t < 8000 * unitsPerNs)
    || (entriesIn s p (cycleNow s)).any fun e => e.kind != .terminal && decide (e.start ≤ t + sq)
        && decide (5 * t < 5 * e.start + width5 s.time.squeeze e.maxlen)

/-- GENERAL_EGRESS_START (R106, R247): the next RC or BE frame starts where it ends before the next footprint or boundary. -/
def execGeneralEgressStart (p : BPort) : State → Host.Outcome State Fault Refusal :=
  run fun s =>
    if !(running s && numbered s && (neighAt s p).member && bbOpen s p) then s
    else match nextGeneral (bbAt s p) with
      | none => s
      | some x =>
        let s := toLt (bbAt s p).freeAt s
        let b := withFcs (overwrite x.bytes 14 (byte1 (fld x.bytes 14 1 / 4 * 4 + p.line.code)))
        if !insideFootprint s p && decide (phaseOf s s.clk.lt + wire10g (b.length + 20) ≤ nextBusy s p) then
          let s := setBb p (fun q => { q with general := q.general.erase x, freeAt := s.clk.lt + wire10g (b.length + 20) }) s
          sweepTx (frameStarts x.src (countBb p 0x08 (emit (.backbone p s.clk.lt b .good) s)))
        else s

end Sys2Proof.Machine
end

