-- ==== Sys2Proof/Machine/SettingOps.lean ====
section
/-! DEFINITION. Settings: what a setting command's object is, how the active unit passes it to the standby
before it takes effect, and what stays in force (R8, R86, R417, R489, R503). -/

namespace Sys2Proof.Machine

/-! ### The object of a command -/

/-- The self-test block of a port code (R483). -/
def blockOf (code : Nat) : Option Nat :=
  if code < 0x0C then some (12 + code)
  else if 0x10 ≤ code ∧ code < 0x14 then some (8 + (code - 0x10))
  else if 0x20 ≤ code ∧ code < 0x22 then some (24 + (code - 0x20))
  else if 0x30 ≤ code ∧ code < 0x34 then some (26 + (code - 0x30))
  else none

/-- The instance of a port code lies in a switchable domain that is off (R501, R503). -/
def codeOff (s : State) (code : Nat) : Bool :=
  if code < 0x0C then !powered s (7 + code / 4)
  else decide (0x20 ≤ code) && decide (code < 0x34) && !powered s 10

/-- The port code names an instance that the part lacks (R6, R8). -/
def codeAbsent (s : State) (code : Nat) : Bool :=
  (decide (code < 0x0C) && decide (carPorts s.part.code ≤ code))
    || (decide (0x30 ≤ code) && decide (code < 0x34) && decide (0x30 + canCtls s.part.code ≤ code))

/-- A port code lies in the range that a row admits (R86). -/
def inRange (lo hi code : Nat) : Bool := decide (lo ≤ code) && decide (code < hi)

/-- Presence and state of a command whose object is a port code in a range (R8, R9, R86, R489, R503): the code is p`n`. -/
def objectState (c : Cmd) (s : State) (n lo hi : Nat) (refuse : Bool) : List Fail :=
  let code := pB c n
  let inside := inRange lo hi code
  [absent (inside && codeAbsent s code)]
    ++ stateChecks c s (if inside then blockOf code else none) (refuse || (inside && codeOff s code))

/-- The same, with the check of the code itself (R86). -/
def objectChecks (c : Cmd) (s : State) (n lo hi : Nat) (refuse : Bool) : List Fail :=
  objectState c s n lo hi refuse ++ [badP (!inRange lo hi (pB c n)) c n]

/-- The commit point of a command with an epoch of its own finds another epoch (R81). -/
def epochMoved (s : State) (tag : Option (BitVec 8)) : Bool :=
  match tag.bind (cmdOf s) with
  | some c => (epochFail c s).isSome
  | none => false

/-- The input buffer could not be read (R90). -/
def unread (buf : Option (List Byte)) : Fail := failIf buf.isNone 0x11 16

/-! ### Passing settings -/

/-- The lane passes settings: the unit is active and its partner is heard (R417). -/
def passesSettings (s : State) : Bool := isActive s && laneUp s

/-- The SETTINGS message of a command and its input buffer (R417). -/
def settingsOf (c : Cmd) (buf : List Byte) : Settings := { command := c.raw, buffer := buf }

/-- The command that a SETTINGS message carries. -/
def settingsCmd (x : Settings) : Cmd := parseCmd 0 0 0 0 x.command

/-- The opcode and the parameter bytes that name what a setting sets. -/
def settingKey (x : Settings) : Nat × List Byte :=
  let c := settingsCmd x
  let n := if c.opcode = 0x0503 ∨ c.opcode = 0x0504 ∨ c.opcode = 0x0702 ∨ c.opcode = 0x0707 then 2 else 1
  (c.opcode, c.inl.take n)

/-- A setting ends another's force: the same setting of the same thing. -/
def endsForce (x y : Settings) : Bool := settingKey x == settingKey y

/-- A setting is in force from now on (R417). -/
def noteSetting (x : Settings) (s : State) : State :=
  { s with twin := { s.twin with inForce := s.twin.inForce.filter (fun y => !endsForce x y) ++ [x] } }

/-- A setting's effect: the command to complete, if one waits, the command, its input buffer and the state. -/
abbrev Effect := Option (BitVec 8) → Cmd → List Byte → State → State

/-- The command of a setting completes with OK, if one waits (R84). -/
def doneOk (tag : Option (BitVec 8)) (result : Nat) (s : State) : State :=
  match tag with
  | some t => finishTag t 0 result s
  | none => s

/-- A command reaches its commit point (R81): its effect, then OK; or EPOCH_CHANGED and no effect. -/
def atCommit (tag : Option (BitVec 8)) (result : Nat) (effect : State → State) (s : State) : State :=
  if epochMoved s tag then match tag with
    | some t => finishTag t 0x50 s.survey.epoch s
    | none => s
  else doneOk tag result (effect s)

/-- A setting takes effect and is in force. -/
def takeSetting (effect : Effect) (tag : Option (BitVec 8)) (c : Cmd) (buf : List Byte) (s : State) : State :=
  effect tag c buf (noteSetting (settingsOf c buf) s)

/-- A setting command past its checks (R417): passed to the standby first where the lane is up, else in effect at once, and the
standby of a pair no longer holds what is in force. -/
def startSetting (effect : Effect) (c : Cmd) (buf : List Byte) (s : State) : State :=
  let s := park c 0 0 s
  if passesSettings s then
    let x := settingsOf c buf
    let s := emit (.lane (.settings x)) s
    { s with twin := { s.twin with awaiting := s.twin.awaiting ++ [(some c.tag, x, s.clk.ps)] } }
  else
    let s := takeSetting effect (some c.tag) c buf s
    if isActive s && s.twin.partner.isSome then { s with twin := { s.twin with settingsStale := true } } else s

/-- A state-changing command of groups 0x02 and 0x04 to 0x07 is refused on a standby, a mirrored one is not (R91, R417). -/
def standbyRefuses (lane : Bool) (s : State) : Bool := !lane && isStandby s

end Sys2Proof.Machine
end

