-- ==== Sys2Proof/Machine/Multidrop.lean ====
section
/-! DEFINITION. The multidrop segments: the commands of group 0x06, reception, CSMA/CD and PLCA (R360 to R377). -/

namespace Sys2Proof.Machine

/-! ### State -/

/-- MD_STATE_CHANGE for each segment whose state differs from what it was (R377). -/
def mdNotice (before s : State) : State :=
  [0, 1].foldl (fun s seg => if mdCode before seg = mdCode s seg then s else assertEdge (384 + 32 * seg) s) s

/-- The edge source at an offset of a segment's block asserts (R377). -/
def assertMd (seg off : Nat) (s : State) : State := assertEdge (384 + 32 * seg + off) s

/-- The node may transmit on the segment (R374): it works and the unit is the active one. -/
def mdTransmits (s : State) (seg : Nat) : Bool := mdWorks s seg && isActive s

/-- The segment runs under CSMA/CD: mode 0, or a follower in fallback (R368, R372). -/
def mdCsma (m : MdSeg) : Bool := m.mode == 0 || m.fallback

/-- The segment is in PLCA with the node as coordinator (R371). -/
def mdCoordinates (m : MdSeg) : Bool := m.mode == 1 && m.nodeId == 0

/-! ### Configuration -/

/-- A configuration takes effect (R370, R373): mode, ID, count and burst. -/
def mdTake (seg mode id count burst : Nat) (s : State) : State :=
  mdNotice s (setMd seg (fun m =>
    if mode = 0 then { m with mode := 0, due := none, fallback := false, credit := 0 }
    else { m with
      mode := 1, nodeId := id, count := count, burst := burst, due := none, credit := 0, backoffPs := none,
      fallback := m.fallback && decide (id ≠ 0), beaconPs := s.clk.ps }) s)

/-- The frame in progress on the segment has ended (R369, R373): it was sent, and the queue goes on. -/
def mdSent (seg : Nat) (s : State) : State :=
  if (mdAt s seg).onPair then
    countMd seg 0x08 (setMd seg (fun m => { m with onPair := false, current := none, collisions := 0 }) s)
  else s

/-- MD_CONFIG's commit once no frame is in progress (R373): a coordinator's change waits for the next BEACON. -/
def mdCommit (seg : Nat) (s : State) : State :=
  match (mdAt s seg).due with
  | some (tag, mode, id, count, burst) =>
    if epochMoved s tag then setMd seg (fun m => { m with due := none }) (atCommit tag 0 (fun s => s) s)
    else
    let s := doneOk tag 0 s
    if mdCoordinates (mdAt s seg) && mdTransmits s seg then setMd seg (fun m => { m with due := some (none, mode, id, count, burst) }) s
    else mdTake seg mode id count burst s
  | none => s

/-- The parameter checks of MD_CONFIG (R85, R370). -/
def mdConfigChecks (lane : Bool) (c : Cmd) (_ : Option (List Byte)) (s : State) : List Fail :=
  [lenCheck c 5 false] ++ objectChecks c s 0 0x20 0x22 (standbyRefuses lane s)
    ++ [badP (decide (1 < pB c 1)) c 1,
        badP (pB c 1 == 1 && (decide (31 < pB c 2) || decide (pB c 3 ≤ pB c 2))) c 2,
        badP (pB c 1 == 1 && (decide (pB c 3 < 1) || decide (32 < pB c 3))) c 3]

/-- MD_CONFIG's effect (R373): at once between frames, else when the frame in progress has ended. A configuration that still
waits gives way to the later one. -/
def mdConfigEffect : Effect := fun tag c _ s =>
  let seg := pB c 0 - 0x20
  let s := match (mdAt s seg).due with
    | some (old, _) => doneOk old 0 s
    | none => s
  let s := setMd seg (fun m => { m with due := some (tag, pB c 1, pB c 2, pB c 3, pB c 4) }) s
  if (mdAt s seg).onPair then s else mdCommit seg s

/-- MD_CONFIG (R370, R373, R417). -/
def execMdConfig (tag : BitVec 8) : State → Host.Outcome State Fault Refusal :=
  run (withCmd 0x0601 tag fun c s => checked c (mdConfigChecks false c none s) (startSetting mdConfigEffect c []) s)

/-- MD_CONFIG_APPLY (R373): the frame in progress ends and the configuration that waits for it commits. -/
def execMdConfigApply (seg : Fin 2) : State → Host.Outcome State Fault Refusal :=
  run fun s => if mdWorks s seg then mdCommit seg (mdSent seg s) else s

/-- MD_STATUS (R375): it reports OFF while PD10 is off, so the off domain does not refuse it (R503). -/
def execMdStatus (tag : BitVec 8) : State → Host.Outcome State Fault Refusal :=
  run (withCmd 0x0602 tag fun c s =>
    let seg := pB c 0 - 0x20
    let inside := decide (0x20 ≤ pB c 0) && decide (pB c 0 < 0x22)
    checked c ([lenCheck c 1 false] ++ stateChecks c s (if inside then blockOf (pB c 0) else none) false ++ [badP (!inside) c 0])
      (finish c 0 (mdCode s seg + tabGet 0 (mdAt s seg).counters 6 % 2 ^ 16 * 2 ^ 16)) s)

/-- A block of 64-bit counters, `n` of them, in order of their offsets (R125, R358, R376). -/
def counterBytes (t : Tab Nat) (n : Nat) : List Byte := (List.range n).flatMap fun i => le 8 (tabGet 0 t i)

/-- MD_COUNTERS (R376). -/
def execMdCounters (tag : BitVec 8) (wr : Bool) : State → Host.Outcome State Fault Refusal :=
  run (withCmd 0x0603 tag fun c s =>
    checked c ([lenCheck c 1 true] ++ objectState c s 0 0x20 0x22 false ++ descChecks c 128 ++ [badP (!inRange 0x20 0x22 (pB c 0)) c 0])
      (finishOut c wr (counterBytes (mdAt s (pB c 0 - 0x20)).counters 16) 0) s)

/-! ### Reception -/

/-- The station-table index of an address, if an entry holds it (R362). -/
def stationOf (s : State) (seg : Nat) (a : Mac) : Option Nat :=
  ((mdAt s seg).stations.find? fun e => e.2.addr == some a).map fun e => e.1

/-- The lowest empty entry of a station table (R363). -/
def emptyStation (s : State) (seg : Nat) : Option Nat := (List.range 32).find? fun i => (stationAddr s seg i).isNone

/-- An unknown SA is learned into the lowest empty entry, or its frame is dropped (R363). -/
def learnStation (seg : Nat) (a : Mac) (s : State) : State × Option Nat :=
  match stationOf s seg a with
  | some i => (s, some i)
  | none =>
    match (mdAt s seg).learn, emptyStation s seg with
    | true, some i =>
      let s := setMd seg (fun m => { m with stations := tabSet {} m.stations i { addr := some a, pinned := false } }) s
      (assertMd seg 5 (logEvent 0x70 (srcPort (0x20 + seg)) (byte1 i ++ zeros 1 ++ macBytes a) s), some i)
    | _, _ => (assertMd seg 4 (countMd seg 0x38 s), none)

/-- The train address of a station (R93). -/
def stationMac (s : State) (seg i : Nat) : Mac := trainMac s.survey.position (0x40 + 0x20 * seg + i)

/-- A link-local group address (R97). -/
def isLinkLocalDa (m : Mac) : Bool := m.toNat / 16 == 0x0180C200000

/-- The DA of a segment frame is resolved (R365). -/
def resolveMd (seg sfd : Nat) (f : List Byte) (s : State) : State :=
  let da := frDa f
  if isGroup da then spreadGroup (.md seg sfd) f s
  else if isTrainMac da then toTrainMac (.md seg sfd) f s
  else if (stationOf s seg da).isSome then s
  else countUnresolved (.md seg sfd) s

/-- A segment frame is classed (R364): PCP 6 becomes BE with PCP 0; RC passes the policer, or is dropped. -/
def classMd (seg : Nat) (f : List Byte) (s : State) : State × Option (List Byte) :=
  if isRc f then
    let r := police s.clk.ps (f.length + 4) (mdAt s seg).bucket
    let s := setMd seg (fun m => { m with bucket := r.1 }) s
    if r.2 then (s, some f) else (countMd seg 0x48 s, none)
  else if isTagged f && frPcp f == 6 then (countMd seg 0x40 s, some (demote f))
  else (s, some f)

/-- Length within the bounds of step 1 of R329. -/
def lengthOk (bytes : List Byte) : Bool :=
  decide (64 ≤ bytes.length) && decide (bytes.length ≤ if isTagged bytes then 1522 else 1518)

/-- Time that `n` bytes take on a segment, in ps: 10 Mb/s (R360, R368). -/
def mdWirePs (n : Nat) : Nat := n * 800000

/-- The interframe gap of 9,600 ns, in ps (R368). -/
def mdGapPs : Nat := 9600000

/-- Carrier ends after a time, and the interframe gap runs from there (R368). -/
def mdCarrier (seg ps : Nat) (s : State) : State := setMd seg (fun m => { m with freePs := max m.freePs (s.clk.ps + ps + mdGapPs) }) s

/-- The line time of the SFD of a segment frame whose last byte has arrived now (R352, R360). -/
def mdSfd (s : State) (len : Nat) : Nat := s.clk.lt - mdWirePs len / 1000 * unitsPerNs

/-- MD_RX_FRAME (R361, R363 to R366, R368, R374). A standby counts and learns, and forwards nothing. -/
def execMdRxFrame (seg : Fin 2) (bytes : List Byte) : State → Host.Outcome State Fault Refusal :=
  run fun s =>
    if !mdWorks s seg then s
    else
    let s := mdCarrier seg 0 s
    if !lengthOk bytes then countMd seg 0x18 s
    else if fcsOf bytes != .good then countMd seg 0x10 s
    else
      let s := countMd seg 0x00 s
      let f := stripFcs bytes
      if isLinkLocalDa (frDa f) then s
      else if isGroup (frSa f) then assertMd seg 4 (countMd seg 0x38 s)
      else match learnStation seg (frSa f) s with
        | (s, none) => s
        | (s, some i) =>
          if !isActive s then s
          else match classMd seg f s with
            | (s, none) => s
            | (s, some f) =>
              let a := frSa f
              resolveMd seg (mdSfd s bytes.length) (resolveIn a (stationMac s seg i) (withSa f (stationMac s seg i))) s

/-! ### Access -/

/-- The order in which a segment serves its queues (R367). -/
def mdOrder : List Nat := [5, 4, 7, 6, 3, 2, 1, 0]

/-- The next frame: the one that waits for another attempt, or the head of the first queue in order (R367 to R369). -/
def mdNext (m : MdSeg) : Option (Nat × List Byte) :=
  match m.current with
  | some x => some x
  | none => mdOrder.findSome? fun q => ((m.queues.getD q []).head?).map fun f => (q, f)

/-- A frame starts on the pair (R367 to R369, R371): it has left its queue, a new one counts its collisions from 0, and it takes one
place of a PLCA opportunity. Its carrier lasts for the 8 bytes before its DA and its own. -/
def mdStart (seg q : Nat) (f : List Byte) (s : State) : State :=
  mdCarrier seg (mdWirePs (8 + wireLen f)) (emit (.md seg (withFcs f)) (setMd seg (fun m => { m with
    queues := if m.current.isSome then m.queues else m.queues.modify q (fun l => l.drop 1),
    collisions := if m.current.isSome then m.collisions else 0,
    current := some (q, f), onPair := true, credit := if mdCsma m then m.credit else m.credit - 1 }) s))

/-- MD_TX_START (R368, R371): under CSMA/CD outside a backoff wait and after the interframe gap, under PLCA inside the node's
opportunity. -/
def execMdTxStart (seg : Fin 2) : State → Host.Outcome State Fault Refusal :=
  run fun s =>
    if mdTransmits s seg then
      let s := mdCommit seg (mdSent seg s)
      let m := mdAt s seg
      let may := if mdCsma m then m.backoffPs.isNone else decide (0 < m.credit)
      match mdNext m with
      | some (q, f) => if may then mdStart seg q f (if mdCsma m then toPs m.freePs s else s) else s
      | none => s
    else s

/-- The frame in progress is dropped, and the next one starts its own count (R369). -/
def mdDrop (seg : Nat) (s : State) : State :=
  setMd seg (fun m => { m with current := none, onPair := false, collisions := 0, backoffPs := none, credit := if mdCsma m then m.credit else 0 }) s

/-- The wait after the n-th collision, in ps, after the 3,200 ns jam (R368): r from the random source. -/
def backoffPs (s : State) (n : Nat) : Nat := 3200000 + (drawn s).toNat % 2 ^ (min n 10) * 51200000

/-- MD_COLLISION (R368, R369, R371): jam and another attempt, or a drop after the 16th collision or a late one. -/
def execMdCollision (seg : Fin 2) (late : Bool) : State → Host.Outcome State Fault Refusal :=
  run fun s =>
    if mdTransmits s seg && (mdAt s seg).onPair then
      let s := emit (.mdJam seg) (countMd seg 0x20 (setMd seg (fun m => { m with freePs := s.clk.ps + 3200000 + mdGapPs }) s))
      let n := (mdAt s seg).collisions + 1
      if late then mdDrop seg (assertMd seg 3 (countMd seg 0x28 s))
      else if 16 ≤ n then mdDrop seg (assertMd seg 2 (countMd seg 0x30 s))
      else if mdCsma (mdAt s seg) then
        draw (setMd seg (fun m => { m with onPair := false, collisions := n, backoffPs := some (s.clk.ps + backoffPs s n) }) s)
      else setMd seg (fun m => { m with onPair := false, collisions := n, credit := 0 }) s
    else s

/-- MD_BACKOFF_END (R368): the wait is over and the frame may try again. -/
def execMdBackoffEnd (seg : Fin 2) : State → Host.Outcome State Fault Refusal :=
  run fun s =>
    match (mdAt s seg).backoffPs with
    | some t => if mdWorks s seg then setMd seg (fun m => { m with backoffPs := none }) (toPs t s) else s
    | none => s

/-- PLCA_BEACON_SEND (R371, R373): the coordinator opens a PLCA cycle; a change that waits for the BEACON takes effect. -/
def execPlcaBeaconSend (seg : Fin 2) : State → Host.Outcome State Fault Refusal :=
  run fun s =>
    if mdTransmits s seg && mdCoordinates (mdAt s seg) then
      let s := mdSent seg s
      let s := match (mdAt s seg).due with
        | some (tag, mode, id, count, burst) => mdTake seg mode id count burst (doneOk tag 0 s)
        | none => s
      if mdCoordinates (mdAt s seg) then
        countMd seg 0x60 (emit (.mdBeacon seg) (setMd seg (fun m => { m with beaconPs := s.clk.ps, credit := 0 }) s))
      else s
    else s

/-- PLCA_BEACON_RX (R372): counted, and a clash at a coordinator; a follower leaves fallback. -/
def execPlcaBeaconRx (seg : Fin 2) : State → Host.Outcome State Fault Refusal :=
  run fun s =>
    if mdWorks s seg then
      let s := countMd seg 0x68 s
      if (mdAt s seg).mode = 0 then s
      else if mdCoordinates (mdAt s seg) then (if isActive s then countMd seg 0x70 s else s)
      else mdNotice s (setMd seg (fun m => { m with fallback := false, beaconPs := s.clk.ps, credit := 0, backoffPs := none }) s)
    else s

/-- PLCA_OPPORTUNITY (R371): the opportunity opens for 1 + burst count frames, or an unused one expires. -/
def execPlcaOpportunity (seg : Fin 2) : State → Host.Outcome State Fault Refusal :=
  run fun s =>
    if mdTransmits s seg && (mdAt s seg).mode == 1 && !(mdAt s seg).fallback then
      let s := mdSent seg s
      setMd seg (fun m => { m with credit := if m.credit = 1 + m.burst then 0 else 1 + m.burst }) s
    else s

/-- PLCA_BURST_TIMER (R370, R371): no frame started within 12,800 ns of the last, and the opportunity ends. -/
def execPlcaBurstTimer (seg : Fin 2) : State → Host.Outcome State Fault Refusal :=
  run fun s => if mdTransmits s seg then setMd seg (fun m => { m with credit := 0 }) (mdSent seg s) else s

/-- PLCA_FALLBACK (R372, R374): a follower without a BEACON for 400,000 ns accesses the segment under CSMA/CD. -/
def execPlcaFallback (seg : Fin 2) : State → Host.Outcome State Fault Refusal :=
  run fun s =>
    let m := mdAt s seg
    if mdWorks s seg && m.mode == 1 && m.nodeId != 0 && !m.fallback then
      let s := toPs (m.beaconPs + 400000000) s
      let s := countMd seg 0x78 s
      mdNotice s (setMd seg (fun m => { m with fallback := true, credit := 0 }) s)
    else s

end Sys2Proof.Machine
end

