-- ==== Sys2Proof/Machine/PortCmds.lean ====
section
/-! DEFINITION. The car ports' commands: modes, filters, wake patterns, gate lists, rings, counters and 802.1AS (R323 to R327,
R334, R341 to R343, R348, R350, R357, R358). -/

namespace Sys2Proof.Machine

/-! ### Link state -/

/-- LINK_CHANGE where a car port's link state changes (R359); a state begins now (R325). -/
def setLink (n : Nat) (l : LinkState) (s : State) : State :=
  if (carAt s n).link = l then s
  else
    let s := setCar n (fun c => { c with link := l, linkPs := s.clk.ps }) s
    if h : n < 12 then assertPort (.car ⟨n, h⟩) 0 s else s

/-- A car port's link trains from now on (R323, R325). -/
def trainLink (n : Nat) (s : State) : State := setCar n (fun c => { c with linkPs := s.clk.ps }) (setLink n .training s)

/-- Frames in the egress queues of a car port. -/
def queuedFrames (c : CarPort) : List TxFrame := c.queues.flatten ++ c.sending.toList

/-- A car port's link goes down or trains anew (R327): the learned address, every queued frame and the source queue go. -/
def clearPort (n : Nat) (s : State) : State :=
  let lost := (queuedFrames (carAt s n)).length
  let srcs := ((queuedFrames (carAt s n)).filterMap fun x => x.src).map fun x => x.1
  let s := setCar n (fun c => { c with
    learned := none, queues := List.replicate 32 [], sending := none, counters := bumpBy 0x68 lost c.counters,
    pausedUntil := List.replicate 8 0, pausing := false, partnerTw := none }) s
  let s := setQueue n (fun _ => []) s
  let s := match ctxOfPort s n with
    | some c => setVsu c.canon.context restartVsu s
    | none => s
  sweepTx (srcs.foldl (fun s m => pauseCheck m s) s)

/-- Every PHY is powered down (R497, R502): each link that changes its state says so (R359), and a car link that was up leaves nothing
queued (R327). No link is up any more when the queues are emptied, so no pause frame leaves. -/
def phyDown (s : State) : State :=
  let up := (List.range 12).filter fun n => carUp (carAt s n)
  let s := BPort.all.foldl (fun s p =>
    if (bbAt s p).up then assertPort (.bb p) 0 (setBb p (fun b => { b with up := false }) s) else s) s
  let s := (List.range 12).foldl (fun s n => setLink n .disabled s) s
  up.foldl (fun s n => clearPort n s) s

/-! ### Low-power idle -/

/-- L × H, the hyper-period, in units of 2^-16 ns. -/
def hyperLen (s : State) : Nat := s.time.l * s.time.hyper

/-- The stretches of a gate list over a hyper-period: length and open gates (R342). No list leaves every gate open. -/
def gateSegs : Nat → List Gate → List (Nat × BitVec 32)
  | total, [] => [(total, BitVec.allOnes 32)]
  | total, [g] => [(total, g.gates)]
  | total, g :: t =>
    let d := min total (g.interval * unitsPerNs)
    (d, g.gates) :: gateSegs (total - d) t

/-- Time since the last hyper-period boundary. -/
def hyperPhase (s : State) : Nat := (s.clk.lt - s.time.base) % hyperLen s

/-- Line times after now at which a TT delivery to a port is due (R347): chambers of this cycle and the next that name it, and
openings of a TT queue's gate. -/
def dueTimes (s : State) (n : Nat) : List Nat :=
  let k := cycleNow s
  let chambers := BPort.all.flatMap fun p => [k, k + 1].flatMap fun j =>
    ((entriesIn s p j).filter fun e => e.deliver.getLsbD n).map fun e => boundary s j + e.start
  let segs := gateSegs (hyperLen s) (carAt s n).gates
  let tt (g : BitVec 32) : BitVec 32 := g >>> 8
  let opens := (List.range segs.length).filterMap fun i =>
    let g := (segs.getD i (0, 0)).2
    let before := (segs.getD (if i = 0 then segs.length - 1 else i - 1) (0, 0)).2
    if tt g &&& ~~~(tt before) = 0 then none
    else
      let at_ := ((segs.take i).map fun x => x.1).foldl (· + ·) 0
      let start := s.clk.lt - hyperPhase s
      some (if hyperPhase s < at_ then start + at_ else start + hyperLen s + at_)
  (chambers ++ opens).filter fun t => decide (s.clk.lt < t)

/-- The next due time, if any. -/
def nextDue (s : State) (n : Nat) : Option Nat :=
  match dueTimes s n with
  | [] => none
  | t :: ts => some (ts.foldl min t)

/-- Tw + 2,000 ns in line time (R347). -/
def lpiLead (tw : Nat) : Nat := (tw + 2000) * unitsPerNs

/-- The port enters low-power idle on transmit where R347 lets it (R346, R347, R358). -/
def lpiCheck (n : Nat) (s : State) : State :=
  let c := carAt s n
  match c.partnerTw with
  | none => s
  | some tw =>
    if c.flags.getLsbD 1 && c.link == .up && c.sending.isNone && c.queues.all (fun q => q == [])
        && (nextDue s n).all fun t => decide (s.clk.lt + lpiLead tw < t) then
      countCar n 0x88 (setLink n .upLpi s)
    else s

/-! ### PORT_CONFIG -/

/-- The checks of PORT_CONFIG (R85, R86, R323). -/
def portConfigChecks (lane : Bool) (c : Cmd) (_ : Option (List Byte)) (s : State) : List Fail :=
  [lenCheck c 4 false] ++ objectChecks c s 0 0 0x0C (standbyRefuses lane s)
    ++ [badP (decide (5 < pB c 1)) c 1, badP (bitOf (pB c 2) 1 && pB c 1 == 5) c 2, badP (decide (2 < pB c 3)) c 3]

/-- PORT_CONFIG's effect (R252, R323, R327): mode, flags and role; a change of mode or role trains the link anew. -/
def portConfigEffect : Effect := fun tag c _ s => atCommit tag 0 (fun s =>
  let n := pB c 0
  let p := carAt s n
  let anew := p.mode ≠ pB c 1 ∨ p.role ≠ pB c 3
  let s := setCar n (fun p => { p with mode := pB c 1, flags := BitVec.ofNat 3 (pB c 2), role := pB c 3 }) s
  let s := if anew then (if pB c 1 = 0 then setLink n .disabled (clearPort n s) else trainLink n (clearPort n s))
    else if p.link = .upLpi ∧ !bitOf (pB c 2) 1 then setLink n .up s
    else s
  let s := if bitOf (pB c 2) 2 then s else setCar n (fun p => { p with pausedUntil := List.replicate 8 0, pausing := false }) s
  let s := lpiCheck n s
  if h : n < 12 then reopen (.car ⟨n, h⟩) 3 s else s) s

/-- PORT_CONFIG (R323, R417). -/
def execPortConfig (tag : BitVec 8) : State → Host.Outcome State Fault Refusal :=
  run (withCmd 0x0501 tag fun c s => checked c (portConfigChecks false c none s) (startSetting portConfigEffect c []) s)

/-! ### PORT_STATUS and PORT_COUNTERS -/

/-- Codes of the link states (R326). -/
def linkCode : LinkState → Nat
  | .disabled => 0
  | .training => 1
  | .up => 2
  | .upLpi => 3
  | .failed => 4

/-- The Ethernet port of a code (R86). -/
def ethOf (code : Nat) : EPort :=
  if h : code < 12 then .car ⟨code, h⟩ else .bb (BPort.all.getD (code - 0x10) .laf)

/-- The result of PORT_STATUS (R253, R326). -/
def portStatus (s : State) (code : Nat) : Nat :=
  let p := ethOf code
  let lm := match p with
    | .car n => (linkCode (carAt s n).link, (carAt s n).mode)
    | .bb b => (if (bbAt s b).up then 2 else 1, 1)
  lm.1 + lm.2 * 2 ^ 8 + sat 16 (recentViolations s p).length * 2 ^ 16

/-- A code of no Ethernet port (R86). -/
def notEth (code : Nat) : Bool := (decide (0x0C ≤ code) && decide (code < 0x10)) || decide (0x14 ≤ code)

/-- PORT_STATUS (R253, R326). -/
def execPortStatus (tag : BitVec 8) : State → Host.Outcome State Fault Refusal :=
  run (withCmd 0x0502 tag fun c s =>
    checked c ([lenCheck c 1 false] ++ objectState c s 0 0 0x14 false ++ [badP (notEth (pB c 0)) c 0])
      (finish c 0 (portStatus s (pB c 0))) s)

/-- The counters of an Ethernet port (R125, R358). -/
def portCounters (s : State) (code : Nat) : Tab Nat :=
  match ethOf code with
  | .car n => (carAt s n).counters
  | .bb b => (bbAt s b).counters

/-- PORT_COUNTERS (R125, R358): 256 bytes. -/
def execPortCounters (tag : BitVec 8) (wr : Bool) : State → Host.Outcome State Fault Refusal :=
  run (withCmd 0x0507 tag fun c s =>
    checked c ([lenCheck c 1 true] ++ objectState c s 0 0 0x14 false ++ descChecks c 256 ++ [badP (notEth (pB c 0)) c 0])
      (finishOut c wr (counterBytes (portCounters s (pB c 0)) 32) 0) s)

/-! ### Filters and wake patterns -/

/-- The checks of UCAST_FILTER_SET (R85, R334). -/
def ucastFilterChecks (lane : Bool) (c : Cmd) (_ : Option (List Byte)) (s : State) : List Fail :=
  [lenCheck c 10 false] ++ objectChecks c s 0 0 0x0C (standbyRefuses lane s)
    ++ [badP (decide (31 < pB c 1)) c 1, badP (bitOf (pB c 2) 0 && isGroup (macOf (slice c.inl 4 6))) c 4]

/-- UCAST_FILTER_SET's effect (R334). -/
def ucastFilterEffect : Effect := fun tag c _ s => atCommit tag 0
  (setCar (pB c 0) fun p =>
    let x : Filter := { enable := bitOf (pB c 2) 0, addr := macOf (slice c.inl 4 6) }
    { p with filters := tabSet {} p.filters (pB c 1) x }) s

/-- UCAST_FILTER_SET (R334, R417). -/
def execUcastFilterSet (tag : BitVec 8) : State → Host.Outcome State Fault Refusal :=
  run (withCmd 0x0503 tag fun c s => checked c (ucastFilterChecks false c none s) (startSetting ucastFilterEffect c []) s)

/-- The checks of WAKE_PATTERN_SET (R85, R357). -/
def wakePatternChecks (lane : Bool) (c : Cmd) (_ : Option (List Byte)) (s : State) : List Fail :=
  [lenCheck c 20 false] ++ objectChecks c s 0 0 0x0C (standbyRefuses lane s) ++ [badP (decide (15 < pB c 1)) c 1]

/-- WAKE_PATTERN_SET's effect (R357): bit i of mask byte j is bit 8j + i. -/
def wakePatternEffect : Effect := fun tag c _ s => atCommit tag 0
  (setCar (pB c 0) fun p =>
    let x : WakePattern := { check := BitVec.ofNat 16 (pF c 2 2), mask := BitVec.ofNat 128 (pF c 4 16) }
    { p with patterns := tabSet {} p.patterns (pB c 1) x }) s

/-- WAKE_PATTERN_SET (R357, R417). -/
def execWakePatternSet (tag : BitVec 8) : State → Host.Outcome State Fault Refusal :=
  run (withCmd 0x0504 tag fun c s => checked c (wakePatternChecks false c none s) (startSetting wakePatternEffect c []) s)

/-! ### Gate lists -/

/-- The first `n` entries of a gate list in a buffer (R341). -/
def gateEntries (buf : List Byte) (n : Nat) : List Gate :=
  (List.range n).map fun i => { gates := BitVec.ofNat 32 (fld buf (8 * i) 4), interval := fld buf (8 * i + 4) 4 }

/-- Number of the first entry with an INTERVAL of 0 (R341). -/
def zeroInterval (l : List Gate) : Option Nat := l.findIdx? fun g => g.interval == 0

/-- The checks of a gate list's buffer (R341). -/
def gateBufFail (c : Cmd) (buf : List Byte) : Fail :=
  let n := pF c 2 2
  if buf.length < 8 * n then some (0x11, 24 + 0xFFFF * 2 ^ 16)
  else match zeroInterval (gateEntries buf n) with
    | some i => some (0x11, 24 + i * 2 ^ 16)
    | none => none

/-- The checks of GATE_LIST_SET (R69, R85, R90, R341). -/
def gateListChecks (lane : Bool) (c : Cmd) (buf : Option (List Byte)) (s : State) : List Fail :=
  [lenCheck c 4 true] ++ objectState c s 0 0 0x0C (standbyRefuses lane s) ++ (if lane then [] else descChecks c 0)
    ++ [unread buf, badP (!inRange 0 0x0C (pB c 0)) c 0, badP (decide (pF c 2 2 < 1) || decide (1024 < pF c 2 2)) c 2,
        gateBufFail c (buf.getD [])]

/-- The cycle of the first hyper-period boundary at least 2 cycles after a line time, and not past (R343). -/
def gateCycle (s : State) (lt : Nat) : Nat :=
  let k := cycleOf s lt
  let k := max (if boundary s k = lt then k + 2 else k + 3) (cycleNow s + 1)
  (k + s.time.hyper - 1) / s.time.hyper * s.time.hyper

/-- A later GATE_LIST_SET for the same port is accepted already. -/
def laterGates (c e : Cmd) : Bool := e.opcode == 0x0505 && decide (c.acc < e.acc) && pB e 0 == pB c 0

/-- GATE_LIST_SET's effect (R343): the list is loaded and waits for its boundary, unless a later command was accepted before it could
start: that one replaces it at once, and this one completes with ABORTED. -/
def gateListEffect : Effect := fun tag c buf s =>
  match tag with
  | some t =>
    if s.cmdq.inflight.any (laterGates c) then finishTag t 0x80 5 s
    else setCar (pB c 0) (fun p => { p with gateDue := some (tag, gateCycle s c.atLt, gateEntries buf (pF c 2 2)) }) s
  | none => setCar (pB c 0) (fun p => { p with gateDue := some (tag, gateCycle s c.atLt, gateEntries buf (pF c 2 2)) }) s

/-- GATE_LIST_SET (R341, R343, R417). -/
def execGateListSet (tag : BitVec 8) (buf : Option (List Byte)) : State → Host.Outcome State Fault Refusal :=
  run (withCmd 0x0505 tag fun c s =>
    let b := inBuffer c buf s
    checked c (gateListChecks false c b s) (fun s => startSetting gateListEffect c (b.getD []) s) s)

/-- A gate list is in force from a boundary on (R342): its first entry. -/
def takeGates (l : List Gate) (at_ : Nat) (p : CarPort) : CarPort :=
  { p with gates := l, gateIdx := 0, gateNext := match l with
    | g :: _ => at_ + g.interval * unitsPerNs
    | [] => at_ }

/-- A hyper-period begins at a car port (R342, R343): a list that is due takes effect, else the list runs again. -/
def gateBoundary (n : Nat) (s : State) : State :=
  let k := cycleNow s
  match (carAt s n).gateDue with
  | some (tag, due, l) =>
    if due ≤ k then
      let s := setCar n (fun p => { p with gateDue := none }) s
      atCommit tag 0 (setCar n (takeGates l (boundary s k))) s
    else setCar n (fun p => takeGates p.gates (boundary s k) p) s
  | none => setCar n (fun p => takeGates p.gates (boundary s k) p) s

/-! ### Rings -/

/-- The ring that RING_SET names (R350). -/
def ringOf (c : Cmd) (s : State) : Ring := if pB c 1 = 0 then rxRing s (pB c 0) else txRing s (pB c 0)

/-- n of an entry count of 2^n, 4 to 12 (R350). -/
def ringLog2 (entries : Nat) : Option Nat := [4, 5, 6, 7, 8, 9, 10, 11, 12].find? fun n => 2 ^ n == entries

/-- The ring of a direction that a port or the host station has (R350). -/
def boundAt (s : State) (dir port : Nat) : Option Nat :=
  if port = 0x80 then (if dir = 0 then s.rings.hostRx else s.rings.hostTx)
  else if dir = 0 then (carAt s port).rxRing else (carAt s port).txRing

/-- The ring base is aligned and, for the SPI host, the ring lies in its buffer area (R350). -/
def ringBaseOk (c : Cmd) (n : Nat) : Bool :=
  let a := pF c 8 8
  a % 64 == 0 && (cmdHost c == .pcie || (decide (0x02000000 ≤ a) && decide (a + 32 * 2 ^ n ≤ 0x02040000)))

/-- The checks of RING_SET (R84, R91, R350). -/
def ringSetChecks (c : Cmd) (s : State) : List Fail :=
  let port := pB c 2
  let entries := pF c 4 2
  let g := ringOf c s
  let named := decide (pB c 0 ≤ 63) && decide (pB c 1 ≤ 1)
  [lenCheck c 16 false, absent (inRange 0 0x0C port && codeAbsent s port)]
    ++ stateChecks c s (if port < 0x0C then blockOf port else none)
        (isStandby s || (inRange 0 0x0C port && codeOff s port) || (named && g.port.isSome && g.host != cmdHost c))
    ++ [badP (decide (63 < pB c 0)) c 0, badP (decide (1 < pB c 1)) c 1, badP (!inRange 0 0x0C port && port != 0x80) c 2,
        badP (entries != 0 && (ringLog2 entries).isNone) c 4,
        badP (entries != 0 && !ringBaseOk c ((ringLog2 entries).getD 0)) c 8,
        noResource (entries != 0 && (g.port.isSome || (boundAt s (pB c 1) port).isSome)) 5]

/-- A port or the host station gets or gives up its ring of a direction. -/
def setBound (dir port : Nat) (r : Option Nat) (s : State) : State :=
  if port = 0x80 then
    if dir = 0 then { s with rings := { s.rings with hostRx := r } } else { s with rings := { s.rings with hostTx := r } }
  else if dir = 0 then setCar port (fun p => { p with rxRing := r }) s else setCar port (fun p => { p with txRing := r }) s

/-- One ring of a direction changed. -/
def setRing (dir r : Nat) (f : Ring → Ring) (s : State) : State := if dir = 0 then setRx r f s else setTx r f s

/-- RING_SET past its checks (R350, R351): a binding stands at once, an unbinding when the ring is quiet. -/
def ringSetGo (c : Cmd) (s : State) : State :=
  let r := pB c 0
  let dir := pB c 1
  let port := pB c 2
  match ringLog2 (pF c 4 2) with
  | some n =>
    let ring : Ring := { port := some port, host := cmdHost c, log2 := n, base := pF c 8 8, head := 0, tail := 0, unbinding := none }
    finish c 0 0 (setBound dir port (some r) (setRing dir r (fun _ => ring) s))
  | none =>
    if (ringOf c s).port.isNone then finish c 0 0 s
    else park c r dir (setRing dir r (fun g => { g with unbinding := some c.tag }) s)

/-- RING_SET (R350). -/
def execRingSet (tag : BitVec 8) : State → Host.Outcome State Fault Refusal :=
  run (withCmd 0x0506 tag fun c s => checked c (ringSetChecks c s) (ringSetGo c) s)

/-- The write-backs of a port that stalled are made. -/
def flushStalls (n : Nat) (s : State) : State :=
  let l := (carAt s n).stalls
  l.foldl (fun s x => txWriteBack x s) (setCar n (fun c => { c with stalls := [] }) s)

/-- A ring is quiet (R350): no frame read from it is still to be written back. -/
def ringQuiet (s : State) (tx : Bool) (r : Nat) : Bool := !tx || !(s.rings.owed.any fun t => t.ring == r)

/-- RING_UNBIND_DONE (R350): the ring is quiet and unbound, and its command completes. -/
def execRingUnbindDone (tx : Bool) (ring : Fin 64) : State → Host.Outcome State Fault Refusal :=
  run fun s =>
    let g := if tx then txRing s ring else rxRing s ring
    match g.unbinding, g.port with
    | some tag, some port =>
      let s := if tx && decide (port < 12) then flushStalls port s else s
      if running s && ringQuiet s tx ring then
        let dir := b2n tx
        atCommit (some tag) 0 (fun s => setBound dir port none (setRing dir ring (fun _ => {}) s)) s
      else s
    | _, _ => s

/-- A doorbell of a ring (R351): ignored for an unbound ring or from the other host; RING_DB_ERR where it breaks R64. -/
def ringDoorbell (dir : Nat) (h : HostId) (r : Nat) (val : Word) (s : State) : State :=
  let g := if dir = 0 then rxRing s r else txRing s r
  let i := bits val.toNat 11 0
  let n := ringLen g.log2
  if g.port.isNone ∨ g.host ≠ h then s
  else if n ≤ i ∨ (i + n - g.head) % n < (g.tail + n - g.head) % n then logEvent 0x07 srcNode (byte1 r ++ byte1 dir) s
  else setRing dir r (fun g => { g with tail := i }) s

/-- RX_RING_DOORBELL (R351). -/
def execRxRingDoorbell (host : HostId) (ring : Fin 64) (val : Word) : State → Host.Outcome State Fault Refusal :=
  run fun s => if s.store.service then ringDoorbell 0 host ring val s else s

/-- TX_RING_DOORBELL (R351). -/
def execTxRingDoorbell (host : HostId) (ring : Fin 64) (val : Word) : State → Host.Outcome State Fault Refusal :=
  run fun s => if s.store.service then ringDoorbell 1 host ring val s else s

/-! ### 802.1AS -/

/-- The checks of AS_CONFIG (R85, R348). -/
def asConfigChecks (lane : Bool) (c : Cmd) (_ : Option (List Byte)) (s : State) : List Fail :=
  [lenCheck c 2 false] ++ objectChecks c s 0 0 0x0C (standbyRefuses lane s)

/-- AS_CONFIG's effect (R348, R359). -/
def asConfigEffect : Effect := fun tag c _ s => atCommit tag 0
  (setCar (pB c 0) fun p => { p with asOn := bitOf (pB c 1) 0, asPeerPs := if p.asOn then p.asPeerPs else s.clk.ps, asNoPeer := p.asNoPeer && bitOf (pB c 1) 0 }) s

/-- AS_CONFIG (R348, R417). -/
def execAsConfig (tag : BitVec 8) : State → Host.Outcome State Fault Refusal :=
  run (withCmd 0x0508 tag fun c s => checked c (asConfigChecks false c none s) (startSetting asConfigEffect c []) s)

end Sys2Proof.Machine
end

