-- ==== Sys2Proof/Machine/CanOps.lean ====
section
/-! DEFINITION. The commands of group 0x07: bit timing, buffers, receive records, transmission at an instant, the schedule matrix
and wake filters (R379 to R407). -/

namespace Sys2Proof.Machine

/-! ### Controllers -/

/-- A CAN controller works: present, powered, not quarantined (R378, R483). -/
def canWorks (s : State) (n : Nat) : Bool :=
  running s && decide (n < canCtls s.part.code) && powered s 10 && inService s (26 + n)

/-- A frame in progress at a controller may end (R508): in service, and during Park entry, which waits for it. -/
def canEnds (s : State) (n : Nat) : Bool :=
  canWorks s n || (s.power.mode == .parking && decide (n < canCtls s.part.code) && powered s 10)

/-- The event source at an offset of a controller's block asserts (R408). -/
def assertCan (n off : Nat) (s : State) : State := assertEdge (448 + 16 * n + off) s

/-- A controller's state, with CAN_STATE_CHANGE at a change (R384, R408). -/
def setCanState (n : Nat) (st : CanState) (s : State) : State :=
  if (canAt s n).state = st then s else assertCan n 0 (setCan n (fun c => { c with state := st }) s)

/-- Codes of R384. -/
def canCode : CanState → Nat
  | .off => 0
  | .integrating => 1
  | .errorActive => 2
  | .errorPassive => 3
  | .busOff => 4
  | .alone => 5
  | .listenOnly => 6
  | .standby => 7

/-- Message buffer b of a controller. -/
def bufAt (c : CanCtl) (b : Nat) : CanBuffer := tabGet {} c.buffers b

/-- One message buffer changed. -/
def setBuf (n b : Nat) (f : CanBuffer → CanBuffer) (s : State) : State :=
  setCan n (fun c => { c with buffers := tabUpd {} c.buffers b f }) s

/-- A buffer is pending no longer (R393). -/
def notPending (b : CanBuffer) : CanBuffer := { b with pending := false, txTag := none, attempted := false, kept := none }

/-- The state that a configured controller of this unit takes (R379, R384, R407): every one of a standby is in STANDBY, and only the
active unit's join the bus. -/
def canEntry (s : State) (mode : Nat) : CanState :=
  if isStandby s then .standby else if mode = 0 then .off else if isActive s then .integrating else .standby

/-- A controller starts in its mode with its error counters at 0 (R379, R407). -/
def canRestart (n : Nat) (s : State) : State :=
  setCanState n (canEntry s (canAt s n).mode)
    (setCan n (fun c => { c with tec := 0, recv := 0, ackErrors := 0, aloneTry := false, awaitsIdle := false, sending := none, column := none }) s)

/-! ### CAN_CONFIG -/

/-- CANCLK periods of a bit (R380). -/
def bitPeriods (bs : List Byte) (i : Nat) : Nat := fld bs i 1 * (1 + fld bs (i + 1) 1 + fld bs (i + 2) 1)

/-- A byte of the timing lies outside a range. -/
def outside (bs : List Byte) (i lo hi : Nat) : Bool := decide (fld bs i 1 < lo) || decide (hi < fld bs i 1)

/-- The index in p4:15 of the first field that R380 refuses, for a mode: in mode 1 the bytes of the data phase are ignored, and the limits of
the data bit time hold in modes 2 and 3 alone. -/
def timingBad (mode : Nat) (t : List Byte) : Option Nat :=
  let tms := bitOf (fld t 9 1) 1
  let tests : List (Bool × Nat) := [
    (outside t 0 1 32, 0), (outside t 1 2 255, 1), (outside t 2 1 128, 2), (outside t 3 1 (fld t 2 1), 3),
    (decide (mode ≠ 1) && outside t 4 1 32, 4), (decide (mode ≠ 1) && outside t 5 1 255, 5),
    (decide (mode ≠ 1) && outside t 6 1 128, 6), (decide (mode ≠ 1) && outside t 7 1 (fld t 6 1), 7),
    (decide (mode ≠ 1) && (decide (8 ≤ fld t 9 1) || (tms && mode != 3)), 9),
    (decide (mode ≠ 1) && (if tms then outside t 10 1 63 else fld t 10 1 != 0), 10),
    (decide (mode ≠ 1) && (if tms then outside t 11 1 63 else fld t 11 1 != 0), 11),
    (decide (bitPeriods t 0 < 250), 0),
    (decide (2 ≤ mode) && (decide (bitPeriods t 0 < bitPeriods t 4) || decide (bitPeriods t 4 < if mode = 2 then 25 else 12)), 4)]
  (tests.find? fun x => x.1).map fun x => x.2

/-- A CAN_TX_AT on a controller is in flight (R71, R379): it has started, and its completion entry is not written yet. -/
def txAtInFlight (s : State) (n : Nat) : Bool :=
  s.cmdq.inflight.any fun e => e.opcode == 0x0705 && pB e 0 == 0x30 + n && e.phase != .fetched

/-- The checks of CAN_CONFIG (R86, R91, R379, R380). -/
def canConfigChecks (lane : Bool) (c : Cmd) (_ : Option (List Byte)) (s : State) : List Fail :=
  let mode := pB c 1 % 4
  let n := pB c 0 - 0x30
  [lenCheck c 16 false]
    ++ objectChecks c s 0 0x30 0x34 (standbyRefuses lane s || (inRange 0x30 0x34 (pB c 0) && txAtInFlight s n))
    ++ [badP (bits (pB c 1) 6 2 != 0) c 1,
        (timingBad mode (slice c.inl 4 12)).bind fun i => badP true c (4 + i)]

/-- A configuration is in force (R379, R384): the controller is OFF first, then as its mode. -/
def takeCanConfig (n : Nat) (s : State) : State :=
  match (canAt s n).due with
  | some (tag, mode, timing) =>
    let s := setCan n (fun c => { c with due := none }) s
    atCommit tag 0 (fun s => canRestart n (setCan n (fun c => { c with
      mode := mode.toNat % 4, listenOnly := mode.getLsbD 7, timing := timing }) (setCanState n .off s))) s
  | none => s

/-- A frame has ended at a controller: a configuration that waits is in force (R379), and during Park entry the controller leaves the bus
(R508). -/
def canFrameEnd (n : Nat) (s : State) : State :=
  if s.power.mode = .parking then setCanState n .off (setCan n (fun c => { c with sending := none }) s) else takeCanConfig n s

/-- The controller is on its bus and hears it (R381, R382, R384, R407). -/
def canHears (c : CanCtl) : Bool :=
  c.mode != 0 && !c.awaitsIdle
    && (c.state == .errorActive || c.state == .errorPassive || c.state == .alone || c.state == .listenOnly || c.state == .standby)

/-- A frame is in progress at a controller (R379): its own, or one that it receives, whose start no command shows (log 76). -/
def canInFrame (s : State) (n : Nat) : Bool := (canAt s n).sending.isSome || (canHears (canAt s n) && Config.canBusy s.clk.draws n)

/-- CAN_CONFIG's effect (R379): at once, or at the end of the frame in progress. -/
def canConfigEffect : Effect := fun tag c _ s =>
  let n := pB c 0 - 0x30
  let t := setCan n (fun x => { x with due := some (tag, BitVec.ofNat 8 (pB c 1), slice c.inl 4 12) }) (draw s)
  if canInFrame s n then t else takeCanConfig n t

/-- CAN_CONFIG (R379, R417). -/
def execCanConfig (tag : BitVec 8) : State → Host.Outcome State Fault Refusal :=
  run (withCmd 0x0701 tag fun c s => checked c (canConfigChecks false c none s) (startSetting canConfigEffect c []) s)

/-! ### CAN_BUFFER_SET -/

/-- Data lengths of a format (R386). -/
def canLengths (format n : Nat) : Bool :=
  if format = 0 then decide (n ≤ 8)
  else if format = 1 then decide (n ≤ 8) || [12, 16, 20, 24, 32, 48, 64].contains n
  else decide (1 ≤ n) && decide (n ≤ 56)

/-- The offset of the first byte of a buffer definition that R386 or R387 refuses, for a controller's mode. -/
def bufferBad (mode : Nat) (d : List Byte) : Option Nat :=
  let kind := fld d 0 1
  let fmt := fld d 1 1
  let len := fld d 12 2
  let tx := kind == 2
  let tests : List (Bool × Nat) := [
    (decide (3 < kind), 0),
    (decide (64 ≤ fmt) || (tx && (decide (mode ≤ fmt % 4) || (bitOf fmt 4 && fmt % 4 != 0) || (bitOf fmt 5 && fmt % 4 != 2))), 1),
    (if tx then fld d 2 1 != 0 else decide (8 ≤ fld d 2 1), 2),
    (decide (8 ≤ fld d 3 1), 3),
    (decide (2 ^ 29 ≤ fld d 4 4), 4),
    (tx && !canLengths (fmt % 4) len, 12),
    (fld d 24 8 != 0, 24)]
  (tests.find? fun x => x.1).map fun x => x.2

/-- The length of buffer that a definition needs (R386). -/
def bufferLen (d : List Byte) : Nat := if fld d 0 1 = 2 then 32 + (fld d 12 2 + 3) / 4 * 4 else 32

/-- The check of a buffer definition (R386, R387). -/
def bufferFail (mode : Nat) (d : List Byte) : Fail :=
  if d.length < 32 then some (0x11, 24 + 0xFFFF * 2 ^ 16)
  else match bufferBad mode d with
    | some i => some (0x11, 24 + i * 2 ^ 16)
    | none => if d.length = bufferLen d then none else some (0x11, 24 + 0xFFFF * 2 ^ 16)

/-- The matrix in force, or one that waits, names a buffer (R387, R396). -/
def matrixNames (c : CanCtl) (b : Nat) : Bool :=
  let named (m : Matrix) : Bool := m.cells.any fun x => (x.kind == 1 || x.kind == 2) && x.buffer == b
  c.matrix.any named || c.matrixDue.any fun d => d.2.2.any named

/-- The checks of CAN_BUFFER_SET (R69, R90, R386, R387). -/
def canBufferChecks (lane : Bool) (c : Cmd) (buf : Option (List Byte)) (s : State) : List Fail :=
  let x := canAt s (pB c 0 - 0x30)
  let d := buf.getD []
  let names := inRange 0x30 0x34 (pB c 0) && buf.isSome && fld d 0 1 != 2 && matrixNames x (pB c 1)
  [lenCheck c 2 true] ++ objectState c s 0 0x30 0x34 (standbyRefuses lane s || names) ++ (if lane then [] else descChecks c 0)
    ++ [unread buf, badP (!inRange 0x30 0x34 (pB c 0)) c 0, badP (decide (127 < pB c 1)) c 1, bufferFail x.mode d]

/-- A buffer as a definition gives it (R386, R387, R397, R402): empty, unlocked and not suspended; a transmit buffer stays pending. -/
def bufferOf (old : CanBuffer) (d : List Byte) : CanBuffer :=
  let kind := fld d 0 1
  let keep := kind == 2 && old.kind == 2
  { kind := kind, format := d.getD 1 0, accept := d.getD 2 0, ctrl := d.getD 3 0, ident := w32 (fld d 4 4), mask := w32 (fld d 8 4),
    length := fld d 12 2, sdt := d.getD 14 0, vcid := d.getD 15 0, af := w32 (fld d 16 4), afMask := w32 (fld d 20 4),
    data := if kind = 2 then slice d 32 (fld d 12 2) else [],
    pending := keep && old.pending, txTag := if keep then old.txTag else none, target := old.target, late := old.late,
    attempted := keep && old.attempted, kept := if keep then old.kept else none }

/-- CAN_BUFFER_SET's effect (R386, R387): a CAN_TX_AT on a buffer that is a transmit buffer no longer is refused. -/
def canBufferEffect : Effect := fun tag c buf s => atCommit tag 0 (fun s =>
  let n := pB c 0 - 0x30
  let old := bufAt (canAt s n) (pB c 1)
  let s := setBuf n (pB c 1) (fun b => bufferOf b buf) s
  match old.txTag with
  | some t => if fld buf 0 1 = 2 then s else finishTag t 0x20 (refusedResult s) s
  | none => s) s

/-- CAN_BUFFER_SET (R386, R417). -/
def execCanBufferSet (tag : BitVec 8) (buf : Option (List Byte)) : State → Host.Outcome State Fault Refusal :=
  run (withCmd 0x0702 tag fun c s =>
    let b := inBuffer c buf s
    checked c (canBufferChecks false c b s) (fun s => startSetting canBufferEffect c (b.getD []) s) s)

/-! ### Receive records -/

/-- Length of a frame's record (R390, R392). -/
def rxLen (f : CanFrame) : Nat := (if f.format = .xl then 24 else 16) + (if f.rtr then 0 else f.data.length)

/-- Codes of the formats (R386). -/
def formatCode : CanFormat → Nat
  | .classical => 0
  | .fd => 1
  | .xl => 2

/-- The receive record of a frame (R390). -/
def rxRecord (x : CanRx) : List Byte :=
  let f := x.frame
  let data := if f.rtr then [] else f.data
  le 8 x.sofLt ++ le 4 (f.ident.toNat + flagAt f.ide 29 + flagAt f.rtr 30) ++ le 2 data.length
    ++ byte1 (formatCode f.format + flagAt f.brs 2 + flagAt f.esi 3 + flagAt f.sec 4) ++ byte1 (flagAt x.lost 0 + flagAt x.new 2)
    ++ (if f.format = .xl then le 4 f.af.toNat ++ [f.sdt, f.vcid, 0, 0] else []) ++ data

/-- The record of an empty buffer or FIFO (R390, R392). -/
def emptyRecord : List Byte := padTo 80 0 (zeros 15 ++ byte1 8)

/-- A record as a buffer of some length takes it, with TRUNC where it does not fit (R391). -/
def fitRecord (len : Nat) (r : List Byte) : List Byte :=
  if r.length ≤ len then r else (overwrite r 15 [r.getD 15 0 ||| 2]).take len

/-- p1 names a receive buffer or a FIFO (R390). -/
def readable (c : CanCtl) (p : Nat) : Bool := (decide (p ≤ 127) && (bufAt c p).kind == 1) || (decide (0x80 ≤ p) && decide (p ≤ 0x83))

/-- The checks of a read or a release (R390, R391). A standby refuses them (log 30). -/
def canReadChecks (c : Cmd) (s : State) (out : Bool) : List Fail :=
  let x := canAt s (pB c 0 - 0x30)
  [lenCheck c 2 out] ++ objectState c s 0 0x30 0x34 (standbyRefused s) ++ (if out then descChecks c 80 else [])
    ++ [badP (!inRange 0x30 0x34 (pB c 0)) c 0, badP (!readable x (pB c 1)) c 1]

/-- The record that a read writes, and its stamp. -/
def readOf (c : CanCtl) (p : Nat) : List Byte × Nat :=
  let x := if p ≤ 127 then (bufAt c p).main else (c.fifos.getD (p - 0x80) []).head?
  match x with
  | some r => (rxRecord r, r.sof.toNat)
  | none => (emptyRecord, 0)

/-- The lock is taken and NEW cleared, once the record is written (R90, R390). -/
def afterRead (n p : Nat) (s : State) : State :=
  if p ≤ 127 then
    setBuf n p (fun b => { b with main := b.main.map fun r => { r with new := false }, locked := some (b.locked.getD s.clk.ps) }) s
  else setCan n (fun c => { c with fifos := c.fifos.modify (p - 0x80) fun q => match q with
    | r :: t => { r with new := false } :: t
    | [] => [] }) s

/-- CAN_READ_LOCK (R90, R390 to R392). -/
def execCanReadLock (tag : BitVec 8) (wr : Bool) : State → Host.Outcome State Fault Refusal :=
  run (withCmd 0x0703 tag fun c s =>
    checked c (canReadChecks c s true) (fun s =>
      let n := pB c 0 - 0x30
      let r := readOf (canAt s n) (pB c 1)
      match outBuffer c wr (fitRecord c.bufLen r.1) s with
      | some s => finish c 0 r.2 (afterRead n (pB c 1) s)
      | none => finish c 0x11 16 s) s)

/-- A buffer is unlocked (R389): a frame held in the shadow moves to main. -/
def unlockBuf (b : CanBuffer) : CanBuffer :=
  if b.locked.isNone then b
  else match b.shadow with
    | some r => { b with locked := none, main := some r, shadow := none }
    | none => { b with locked := none }

/-- CAN_READ_RELEASE (R391, R392). -/
def execCanReadRelease (tag : BitVec 8) : State → Host.Outcome State Fault Refusal :=
  run (withCmd 0x0704 tag fun c s =>
    checked c (canReadChecks c s false) (fun s =>
      let n := pB c 0 - 0x30
      let p := pB c 1
      finish c 0 0 (if p ≤ 127 then setBuf n p unlockBuf s
        else setCan n (fun x => { x with fifos := x.fifos.modify (p - 0x80) (List.drop 1) }) s)) s)

/-! ### CAN_TX_AT -/

/-- The target of a CAN_TX_AT in ns: 0 stands for its acceptance (R394). -/
def txTarget (c : Cmd) : Nat := if pF c 8 8 = 0 then c.atLt / unitsPerNs else pF c 8 8

/-- The checks of CAN_TX_AT (R91, R382, R394 to R396). -/
def canTxAtChecks (c : Cmd) (s : State) : List Fail :=
  let x := canAt s (pB c 0 - 0x30)
  let b := bufAt x (pB c 1)
  let named := inRange 0x30 0x34 (pB c 0) && decide (pB c 1 ≤ 127)
  [lenCheck c 20 false]
    ++ objectState c s 0 0x30 0x34 (standbyRefused s
        || (named && (x.state == .listenOnly || x.listenOnly || matrixNames x (pB c 1) || b.suspended || b.kind != 2)))
    ++ [badP (!inRange 0x30 0x34 (pB c 0)) c 0, badP (decide (127 < pB c 1)) c 1,
        badP (decide (c.atLt / unitsPerNs + 60000000000 < txTarget c)) c 8, badP (decide (1000000000 < pF c 16 4)) c 16,
        noResource (b.pending || b.txTag.isSome) 3]

/-- CAN_TX_AT past its checks (R394, R395): the buffer waits for its target; a limit already past ends the command at once. -/
def canTxAtGo (c : Cmd) (s : State) : State :=
  let target := txTarget c
  let late := pF c 16 4
  if target + late < c.atLt / unitsPerNs then finish c 0x70 (waitedMs c s) s
  else
    setBuf (pB c 0 - 0x30) (pB c 1) (fun b => { b with
      txTag := some c.tag, target := target, late := late, pending := decide (target ≤ ltNs s), attempted := false, kept := none })
      (park c (pB c 0 - 0x30) (pB c 1) s)

/-- CAN_TX_AT (R394 to R396). -/
def execCanTxAt (tag : BitVec 8) : State → Host.Outcome State Fault Refusal :=
  run (withCmd 0x0705 tag fun c s => checked c (canTxAtChecks c s) (canTxAtGo c) s)

/-! ### CAN_SCHEDULE_SET -/

/-- The entries of a matrix buffer that are not empty (R398). -/
def matrixCells (d : List Byte) : List Cell :=
  (List.range 1024).filterMap fun i =>
    let e := slice d (8 * i) 8
    if fld e 5 1 = 0 then none
    else some { row := i / 64, col := i % 64, start := fld e 0 4, buffer := fld e 4 1, kind := fld e 5 1 }

/-- An entry breaks R399: `cells` are all that are not empty, `limit` is BC × L in whole ns. -/
def cellBad (x : CanCtl) (limit : Nat) (cells : List Cell) (e : Cell) : Bool :=
  decide (3 < e.kind)
    || cells.any (fun f => (f.col == e.col && decide (f.row < e.row) && f.start != e.start) || (decide (f.col < e.col) && decide (e.start ≤ f.start)))
    || decide (limit ≤ e.start) || ((e.kind == 1 || e.kind == 2) && (decide (127 < e.buffer) || (bufAt x e.buffer).kind != 2))

/-- Index of the first entry of a matrix buffer that breaks R398 or R399. -/
def matrixBad (x : CanCtl) (l : Nat) (d : List Byte) : Option Nat :=
  let bc := fld d 6 2
  let cells := matrixCells d
  let limit := bc * l / unitsPerNs
  if cells = [] then none
  else if bc < 1 ∨ 64 < bc then some 0
  else (List.range 1024).find? fun i =>
    (decide (0 < i) && fld d (8 * i + 6) 2 != 0)
      || (cells.find? fun e => e.row * 64 + e.col == i).any (cellBad x limit cells)

/-- The checks of CAN_SCHEDULE_SET (R69, R90, R398, R399). -/
def canScheduleChecks (lane : Bool) (c : Cmd) (buf : Option (List Byte)) (s : State) : List Fail :=
  let d := buf.getD []
  [lenCheck c 1 true] ++ objectState c s 0 0x30 0x34 (standbyRefuses lane s) ++ (if lane then [] else descChecks c 0)
    ++ [failIf (buf.isSome && d.length != 8192) 0x11 (24 + 0xFFFF * 2 ^ 16), unread buf,
        badP (!inRange 0x30 0x34 (pB c 0)) c 0,
        (matrixBad (canAt s (pB c 0 - 0x30)) s.time.l d).map fun i => (0x11, 24 + i * 2 ^ 16)]

/-- CAN_SCHEDULE_SET's effect (R399): the matrix waits for the first boundary at least 2 cycles after acceptance. -/
def canScheduleEffect : Effect := fun tag c buf s =>
  let k := cycleOf s c.atLt
  let k := max (if boundary s k = c.atLt then k + 2 else k + 3) (cycleNow s + 1)
  let cells := matrixCells buf
  let m := if cells = [] then none else some { bc := fld buf 6 2, cells := cells : Matrix }
  setCan (pB c 0 - 0x30) (fun x => { x with matrixDue := some (tag, s.time.cycles + (k - cycleNow s), m) }) s

/-- CAN_SCHEDULE_SET (R398, R399, R417). -/
def execCanScheduleSet (tag : BitVec 8) (buf : Option (List Byte)) : State → Host.Outcome State Fault Refusal :=
  run (withCmd 0x0706 tag fun c s =>
    let b := inBuffer c buf s
    checked c (canScheduleChecks false c b s) (fun s => startSetting canScheduleEffect c (b.getD []) s) s)

/-! ### CAN_WAKE_FILTER_SET and CAN_STATUS -/

/-- The checks of CAN_WAKE_FILTER_SET (R405). -/
def canWakeChecks (lane : Bool) (c : Cmd) (_ : Option (List Byte)) (s : State) : List Fail :=
  [lenCheck c 20 false] ++ objectChecks c s 0 0x30 0x32 (standbyRefuses lane s)
    ++ [badP (decide (7 < pB c 1)) c 1, badP (decide (8 < pB c 2)) c 2, badP (decide (8 ≤ pB c 3)) c 3, badP (decide (2 ^ 29 ≤ pF c 4 4)) c 4]

/-- CAN_WAKE_FILTER_SET's effect (R405): it takes effect at the next entry to Park. -/
def canWakeEffect : Effect := fun tag c _ s => atCommit tag 0
  (setCan (pB c 0 - 0x30) fun x => { x with wake := tabSet {} x.wake (pB c 1) {
    dlc := pB c 2, flags := BitVec.ofNat 8 (pB c 3), ident := w32 (pF c 4 4), mask := w32 (pF c 8 4),
    dataMask := BitVec.ofNat 64 (pF c 12 8) } }) s

/-- CAN_WAKE_FILTER_SET (R405, R417). -/
def execCanWakeFilterSet (tag : BitVec 8) : State → Host.Outcome State Fault Refusal :=
  run (withCmd 0x0707 tag fun c s => checked c (canWakeChecks false c none s) (startSetting canWakeEffect c []) s)

/-- CAN_STATUS (R384). -/
def execCanStatus (tag : BitVec 8) : State → Host.Outcome State Fault Refusal :=
  run (withCmd 0x0708 tag fun c s =>
    let x := canAt s (pB c 0 - 0x30)
    checked c ([lenCheck c 1 false] ++ objectChecks c s 0 0x30 0x34 false)
      (finish c 0 (min 255 x.tec + min 255 x.recv * 2 ^ 8 + canCode x.state * 2 ^ 16)) s)

end Sys2Proof.Machine
end

