-- ==== Sys2Proof/Machine/PowerOps.lean ====
section
/-! DEFINITION. What other units ask of the power unit: latching a wake reason and leaving Doze (R501, R506, R510). -/

namespace Sys2Proof.Machine

/-- The power state changed by a function. -/
def updPower (f : Power → Power) (s : State) : State := { s with power := f s.power }

/-- A reason is set in WAKE_LATCH (R510, R525). -/
def latchReason (bit : Nat) (s : State) : State :=
  updPower (fun p => { p with wakeLatch := p.wakeLatch ||| BitVec.twoPow 32 bit }) s

/-- A reason is enabled in WAKE_EN (R510). -/
def reasonOn (s : State) (bit : Nat) : Bool := s.power.wakeEn.getLsbD bit

/-- Cores 1 to 3 sleep or wake (R448, R501). -/
def setAsleep (b : Bool) (s : State) : State :=
  { s with router := { s.router with targets := s.router.targets.mapIdx fun t x => { x with asleep := b && decide (1 ≤ t) && decide (t ≤ 3) } } }

/-- The node returns from Doze to Run for a list of reasons (R501, R506): WAKE_LATCH holds the reasons, DOZE_EXIT is
written, PD11 is on again unless DOMAIN_SET turned it off. -/
def dozeExit (reasons : List Nat) (s : State) : State :=
  if s.power.mode = .doze then
    let s := reasons.foldl (fun s b => latchReason b s) (updPower (fun p => { p with wakeLatch := 0 }) s)
    let on := !s.power.vsuOff && (populated s.part).getLsbD 11
    let s := updPower (fun p => { p with mode := .run, domains := if on then p.domains ||| BitVec.twoPow 14 11 else p.domains }) s
    logEvent 0xE6 srcNode (le 2 (reasons.foldl (fun n b => n + 2 ^ b) 0)) (setAsleep false s)
  else s

end Sys2Proof.Machine
end

