-- ==== Sys2Proof/Machine/Vsu.lean ====
section
/-! DEFINITION. The Video Slice Unit's commands, buffers and deadlines (R294 to R322). -/

namespace Sys2Proof.Machine

/-! ### Commands -/

/-- The VSU's commands are refused: PD11 is off (R503). -/
def vsuRefused (s : State) : Bool := !powered s 11

/-- The checks of VSU_CONFIG (R8, R85, R91, R294). -/
def vsuConfigChecks (lane : Bool) (c : Cmd) (_ : Option (List Byte)) (s : State) : List Fail :=
  [lenCheck c 3 false, absent (!hasVsu s.part)] ++ stateChecks c s (some 30) (standbyRefuses lane s || vsuRefused s)
    ++ [badP (ctxAt s (pB c 0)).isNone c 0, badP (decide (2 < pB c 1)) c 1, badP (decide (1 < pB c 2)) c 2]

/-- VSU_CONFIG's effect (R294, R321): the setting waits for the next cycle boundary. -/
def vsuConfigEffect : Effect := fun tag c _ s => atCommit tag 0
  (setVsu (pB c 0) fun v => { v with due := some (pB c 1, pB c 2), holds := 0, disorder := 0 }) s

/-- VSU_CONFIG (R294, R417). -/
def execVsuConfig (tag : BitVec 8) : State → Host.Outcome State Fault Refusal :=
  run (withCmd 0x0410 tag fun c s => checked c (vsuConfigChecks false c none s) (startSetting vsuConfigEffect c []) s)

/-- The DELIVER mask of this vehicle for a stream. -/
def maskHere (s : State) (c : Canon) : BitVec 12 := if numbered s then deliverMask c s.survey.position else 0

/-- The VSU has a role for a context here (R295). -/
def vsuRole (s : State) (k : Nat) : Bool :=
  match ctxAt s k with
  | some x => x.canon.state == .placed && (sourcedHere s k || maskHere s x.canon != 0)
  | none => false

/-- The result of VSU_STATUS (R321). -/
def vsuStatus (s : State) (k : Nat) : Nat :=
  let v := vsuAt s k
  if v.configured && vsuRole s k then v.age % 2 ^ 32 + v.holds.toNat * 2 ^ 32 + v.disorder.toNat * 2 ^ 48 else 0

/-- VSU_STATUS (R321). -/
def execVsuStatus (tag : BitVec 8) : State → Host.Outcome State Fault Refusal :=
  run (withCmd 0x0411 tag fun c s =>
    checked c ([lenCheck c 1 false, absent (!hasVsu s.part)] ++ stateChecks c s (some 30) (vsuRefused s))
      (finish c 0 (vsuStatus s (pB c 0))) s)

/-! ### Buffers -/

/-- The VSU serves a context at this cab (R295): configured, PLACED and delivered here. -/
def cabServed (s : State) (x : Ctx) : Bool :=
  x.canon.state == .placed && maskHere s x.canon != 0 && (vsuAt s x.canon.context).configured

/-- Frame buffers in use (R318). -/
def buffersUsed (s : State) : Nat :=
  (s.vsu.map fun v => if v.2.allotted then 3 * (canonAt s.planner.ctxs v.1).nSrc else 0).foldl (· + ·) 0

/-- VSU_FAULT at every port of a mask (R322). -/
def vsuFaults (mask : BitVec 12) (s : State) : State :=
  (maskPorts s mask).foldl (fun s n => if h : n < 12 then assertPort (.car ⟨n, h⟩) 13 s else s) s

/-- A stream that the cab serves and that has no buffers gets them from a source cycle on, or falls back to plain delivery (R318). -/
def allotOne (cut : Int) (x : Ctx) (s : State) : State :=
  let k := x.canon.context
  let v := vsuAt s k
  if !cabServed s x || v.allotted then s
  else if buffersUsed s + 3 * x.canon.nSrc ≤ 768 then 
    setVsu k (fun v => { v with
      allotted := true, plain := false, since := cut, sincePlain := v.sincePlain || v.plain, closed := none, dues := [], last := none }) s
  else if v.plain then s
  else vsuFaults (maskHere s x.canon) (vsuRecord 0x64 k (setVsu k (fun v => { v with plain := true }) s))

/-- Buffers are allotted, in ascending context order (R318). -/
def allotVsu (cut : Int) (s : State) : State :=
  if vsuWorks s then s.planner.ctxs.foldl (fun s e => allotOne cut e.2 s) s else s

/-- What the VSU holds for a context goes (R294). -/
def flushVsu (v : Vsu) : Vsu :=
  { v with
    last := none, held := [], passed := [], heldUnits := [], good := [], dues := [], store := [], misses := 0, owed := 0, unitOpen := false,
    cutting := false, restart := true, boundCycle := none, srcStamp := none }

/-- A setting that waits takes effect in a context from a source cycle on (R294): what is held goes. Frames of earlier source cycles that
are still to come are delivered plain (DESIGN CHOICE, log 74). -/
def takeVsu (cut : Int) (v : Vsu) : Vsu :=
  match v.due with
  | some (f, c) =>
    { flushVsu v with
      form := f, codec := c, configured := true, due := none, since := cut, sincePlain := true, closed := none, endsAt := none }
  | none => v

/-- The frames held in the source queue of a context sourced here go with the setting that they were examined under (R294). -/
def emptySource (k : Nat) (s : State) : State :=
  match ctxAt s k with
  | some x => if sourcedHere s k then setQueue x.canon.contract.srcPort (fun _ => []) s else s
  | none => s

/-- The VSU stops (R296, R483, R503): what it holds goes, and each configured context is taken up again at a boundary at which
it works. -/
def stopVsu (s : State) : State :=
  { s with vsu := s.vsu.map fun e =>
      (e.1, if e.2.configured then
        { flushVsu e.2 with due := some (e.2.due.getD (e.2.form, e.2.codec)), closed := none, endsAt := none, allotted := false, plain := false }
      else e.2) }

/-- The DELIVER mask of a stream's units at this cab: that of the service that ends, or that of the plan in force (R315). -/
def vsuMask (s : State) (k : Nat) : BitVec 12 :=
  if (vsuAt s k).endsAt.isSome then (vsuAt s k).endMask else ((ctxAt s k).map fun x => maskHere s x.canon).getD 0

/-- The used source cycles of a stream from one after those noted up to a cycle that has begun, with their D (R306). -/
def newDues (s : State) (x : Ctx) (upto : Int) (v : Vsu) : List (Int × Nat) :=
  let noted := (v.dues.map fun d => d.1).foldl max (max (v.since - 1) (v.closed.getD (v.since - 1)))
  ((List.range (upto - noted).toNat).map fun (i : Nat) => noted + 1 + (i : Int)).filterMap fun t =>
    let k := (cycleNow s : Int) + (t - cycleTag s (cycleNow s))
    if 0 ≤ k ∧ usesCycle s x.canon k.toNat = true then some (t, deadlineOf s x.canon t) else none

/-- The cab notes D of each used source cycle that has begun, for every stream that it serves (R306). -/
def addDues (upto : Int) (s : State) : State :=
  { s with vsu := s.vsu.map fun e =>
      match ctxAt s e.1 with
      | some x => if vsuCab s e.1 && cabServed s x then (e.1, { e.2 with dues := e.2.dues ++ newDues s x upto e.2 }) else e
      | none => e }

/-- Settings that wait take effect at a cycle boundary (R294; log 24), and buffers are asked for; the D of the cycle is noted. -/
def vsuBoundary (s : State) : State :=
  let cut := cycleTag s (cycleNow s)
  let now := if vsuWorks s then (s.vsu.filter fun e => e.2.due.isSome).map fun e => e.1 else []
  let s := if now = [] then s else
    allotVsu cut (now.foldl (fun s k => emptySource k s) { s with vsu := s.vsu.map fun e => if now.contains e.1 then (e.1, takeVsu cut e.2) else e })
  addDues cut s

/-! ### The delivery deadline -/

/-- A frame of a repetition: DEI, TCI bit 12, is 1 (R310). -/
def withDei (f : List Byte) : List Byte := overwrite f 14 [f.getD 14 0 ||| 0x10]

/-- A stored frame for a DELIVER port: as it was rebuilt for it, or for a port that joined since, as another port's with its own DA
(R103, R309, R310). -/
def storedCopy (s : State) (c : Tab (List Byte)) (n : Nat) : List Byte :=
  (tabFind c n).getD (macBytes ((carAt s n).learned.getD (carMac s n)) ++ ((c.head?.map fun x => x.2).getD []).drop 6)

/-- A HOLD repetition: the stored frames to every DELIVER port (R310). A standby owes it instead (R427). -/
def repeatHold (k : Nat) (mask : BitVec 12) (s : State) : State :=
  if isActive s then
    let s := (vsuAt s k).store.foldl (fun s c =>
      deliverCopies ((maskPorts s mask).map fun n => (n, withDei (storedCopy s c n))) k (some k) none s) s
    setVsu k (fun v => { v with holds := v.holds + 1 }) s
  else setVsu k (fun v => { v with owed := v.owed + 1 }) s

/-- D passes for a unit that is not good (R302, R310, R312): a repetition while the limit allows it, and STAMP_BAD for what came of a unit
without a valid stamp. -/
def missUnit (k : Nat) (sc : Int) (mask : BitVec 12) (s : State) : State :=
  let v := vsuAt s k
  let unit := v.passed.filter fun f => f.cycle == sc
  let s := if unit != [] && (firstStamp (unit.map fun f => f.stamp)).isNone then vsuRecord 0x60 k s else s
  let s := if v.store != [] && decide (v.misses < 64) then repeatHold k mask s else s
  let s := setVsu k (fun v => { v with misses := v.misses + 1 }) s
  if v.misses + 1 = 64 then vsuRecord 0x63 k s else s

/-- The VSU re-bases at D (R307): held frames of the unit go, those of later units pass on in order, and with none of them the next frame
of a later source cycle passes on as it comes. -/
def rebaseCab (k : Nat) (sc : Int) (s : State) : State :=
  let later := (vsuAt s k).held.filter fun f => decide (sc < f.cycle)
  later.foldl (fun s f => passOn k f s) (setVsu k (fun v => { v with held := [], last := none }) s)

/-- The service of a stream has ended (R315): its store and buffers are free. What its context was configured for goes with a context that
is FREE (R294). -/
def endService (v : Vsu) : Vsu :=
  if v.configured then { flushVsu v with endsAt := none, allotted := false, plain := false } else {}

/-- D of a source cycle passes (R306, R307, R310). -/
def passDeadline (k : Nat) (sc : Int) (mask : BitVec 12) (s : State) : State :=
  let s := if (vsuAt s k).good.contains sc then s else missUnit k sc mask s
  let s := setVsu k (fun v => { v with
    closed := some sc, good := v.good.filter fun x => decide (sc < x), passed := v.passed.filter fun f => decide (sc < f.cycle),
    heldUnits := v.heldUnits.filter fun x => decide (sc < x), dues := v.dues.filter fun d => decide (sc < d.1) }) s
  let s := rebaseCab k sc s
  if (vsuAt s k).endsAt.isSome && (vsuAt s k).dues == [] then setVsu k endService s else s

/-- SLICE_DEADLINE (R306, R307, R310, R315): the next delivery deadline of a context at this cab. -/
def execSliceDeadline (context : Fin 256) : State → Host.Outcome State Fault Refusal :=
  run fun s =>
    let k := context.val
    match (vsuAt s k).dues with
    | d :: _ => if running s && numbered s && vsuCab s k then passDeadline k d.1 (vsuMask s k) (toLt d.2 s) else s
    | [] => s

end Sys2Proof.Machine
end

