-- ==== Sys2Proof/Machine/PlanOps.lean ====
section
/-! DEFINITION. What the planner and the re-forming share: the plan that a node holds, its chamber tables, what changes at a
swap, swap cycles and requests (R254 to R257, R262 to R270, R276, R284 to R291, R314, R315, R339). -/

namespace Sys2Proof.Machine

/-- The planner changed by a function. -/
def updPlanner (f : Planner → Planner) (s : State) : State := { s with planner := f s.planner }

/-! ### The plan that a node holds -/

/-- What the present plan is computed from; none while unnumbered (R282). -/
def planEnv (s : State) : Option PlanEnv :=
  s.planner.record.map fun r => { record := r, l := s.time.l, hyper := s.time.hyper, squeeze := s.time.squeeze }

/-- The unit's place in its vehicle: 0 for the headward unit (R274). -/
def ownUnit (jumper : Option Side) (head : Side) : Nat := if jumper = some head then 1 else 0

/-- Units of a record (R208). -/
def unitCount (r : Record) : Nat := (r.entries.map fun e => if e.twinned then 2 else 1).foldl (· + ·) 0

/-- The crossing time X of a number of units, in cycles (R208). -/
def crossing (units : Nat) : Nat := (units + 5) / 6

/-- The cycles that `ns` take, rounded up (R265). -/
def cyclesOf (s : State) (ns : Nat) : Nat := (ns * unitsPerNs + s.time.l - 1) / s.time.l

/-! ### The cut-over to come -/

/-- The unit changes over with a step of its own (R151): it is of the joining part. -/
def isJoining (s : State) : Bool := (s.reform.pending.map fun p => !p.keeping) == some true

/-- Δi of a joining unit at a line time of the keeping part, in ns (R218, R220): units of 2^-16 ns. -/
def deltaAt (s : State) (ns : Nat) : Int :=
  match s.reform.delta with
  | some (d, slope, at_) => d + slope * ((ns : Int) - at_) * (unitsPerNs : Int) / (10 : Int) ^ 12
  | none => 0

/-- The cycle whose boundary a SWAP or CUTOVER names: the first at or after it. -/
def cycleAt (s : State) (ns : Nat) : Nat := (ns * unitsPerNs - s.time.base + s.time.l - 1) / s.time.l

/-- The cut-over as the unit's own line time has it (R151, R221). -/
def ownCut (s : State) (m : JnCutover) : Nat :=
  if isJoining s then ((m.cutover * unitsPerNs : Nat) + deltaAt s m.cutover).toNat else boundary s (cycleAt s m.cutover)

/-- A plan named swaps before the cut-over that is announced, if one is (R267). -/
def beforeCut (s : State) (g : Stage) : Bool := s.reform.cutover.all fun m => decide (boundary s g.swap < ownCut s m)

/-- The plan that a re-forming starts from: the last one named that is in force before its cut-over, else the one in force; a change whose
swap lies at or after the cut-over is discarded at it (R267). -/
def planAtCut (s : State) : Tab Ctx × Tab (BitVec 256) :=
  match (s.planner.staged.filter (beforeCut s)).getLast? with
  | some g => (g.ctxs, g.sels)
  | none => (s.planner.ctxs, s.planner.selections)

/-- SERIAL of the last change that is in force before the cut-over (R267). -/
def serialAtCut (s : State) : Nat := ((s.planner.staged.filter (beforeCut s)).getLast?.map fun g => g.serial).getD s.planner.inForce

/-- The plan that the next change builds on: the last one named, else the one in force (R265, R266). -/
def lastPlan (s : State) : Tab Ctx × Tab (BitVec 256) :=
  match s.planner.staged.getLast? with
  | some g => (g.ctxs, g.sels)
  | none => (s.planner.ctxs, s.planner.selections)

/-- The plan in force just before a swap cycle (R279). -/
def planBefore_ (s : State) (swap : Nat) : Tab Ctx :=
  match (s.planner.staged.filter fun g => decide (g.swap < swap)).getLast? with
  | some g => g.ctxs
  | none => s.planner.ctxs

/-- A later change of the same S joins its plan, one of a later S follows (R265). -/
def stageIn (g : Stage) : List Stage → List Stage
  | [] => [g]
  | x :: t => if x.swap < g.swap then x :: stageIn g t else [g]

/-- A plan is named for its swap cycle (R254, R265, R266): a SHADOW that it changes is complete no longer, and one built for a re-forming
gives way to a plan that swaps before it. -/
def stage (g : Stage) (s : State) : State :=
  let old := s.planner.staged.head?
  let staged := stageIn g s.planner.staged
  let stays := if s.reform.shadowDone then !beforeCut s g else decide (staged.head? = old)
  let s := updPlanner (fun p => { p with staged := staged, lastSerial := g.serial, lastS := g.swap }) s
  let s := { s with reform := { s.reform with shadowDone := s.reform.shadowDone && stays } }
  updGallery (fun y => { y with swapAt := staged.head?.map fun x => x.swap, shadowComplete := y.shadowComplete && stays }) s

/-- The four chamber tables of a unit for a plan, in the order of R259 (R276). -/
def unitTables (env : PlanEnv) (epoch : Nat) (t : Tab Ctx) (here : Nat × Nat) (head : Side) : List (List Chamber) :=
  BPort.all.map fun p => tableOf env epoch t here (p.side == head) p.line

/-- The chamber tables of this unit for a plan of the present consist. -/
def ownTables (s : State) (t : Tab Ctx) : List (List Chamber) :=
  match planEnv s, s.survey.headSide with
  | some env, some head => unitTables env s.survey.epoch t (s.survey.position, ownUnit s.survey.jumper head) head
  | _, _ => BPort.all.map fun _ => []

/-- SHADOW takes chamber tables (R254, R266). -/
def writeShadow (tables : List (List Chamber)) (s : State) : State :=
  updGallery (fun g => { g with
    banks := g.banks.mapIdx fun i b => { b with shadow := tables.getD i [] }, shadowComplete := true }) s

/-- A plan gives the node a role (R504): it sources a PLACED or LOCAL stream, or an entry of its banks delivers here. -/
def hasRole (s : State) (t : Tab Ctx) : Bool :=
  (t.any fun e => (e.2.canon.state == .placed || e.2.canon.state == .loc) && numbered s
      && e.2.canon.contract.srcPos == s.survey.position && !e.2.gone)
    || s.gallery.banks.any fun b => (b.active ++ b.shadow).any fun e => e.deliver != 0

/-! ### Genlock phase and intake -/

/-- The output bound to a context (R262, R272). -/
def boundGlk (s : State) (k : Nat) : Option Nat := s.time.glk.findIdx? fun g => g.bound == some k

/-- INTAKE of a PLACED stream sourced here, in ns (R284). -/
def intakeOf (s : State) (c : Canon) : Nat :=
  let port := carAt s c.contract.srcPort
  let n := c.srcIndex.length
  let span := (c.srcIndex.getLast?.getD 0 - c.srcIndex.headD 0) * 4000
  let whole := (canonM s.time.hyper c * s.time.l - span * unitsPerNs) / unitsPerNs
  if (boundGlk s c.context).isSome && carUp port && port.mode != 0 then
    min ((2 * n * (c.contract.maxlen + 20) * byte5 port.mode + 19999) / 20000 * 4000) whole
  else whole

/-- What the release of a frame lags its SOURCE START, in fifths of a ns: nothing at a far unit, else the jumper and the node's transit, where
the active unit of a twinned source vehicle is the near one of each path (R274, R277, R285). -/
def releaseLag5 (s : State) (c : Canon) : Nat :=
  match planEnv s, s.survey.headSide with
  | some env, some head =>
    let own := ownUnit s.survey.jumper head
    let active := if isActive s then own else 1 - own
    let ps := canonPaths env c
    if isTwinned env.record c.contract.srcPos ∧ ps ≠ [] ∧ ps.all (fun p => p.stations.head? != some (c.contract.srcPos, active)) = true then
      5 * 1608
    else 0
  | _, _ => 0

/-- φ of a stream bound to an output, in ns; none while the source port has no byte time (R285). -/
def phiOf (s : State) (c : Canon) : Option Nat :=
  let port := carAt s c.contract.srcPort
  let b5 := byte5 port.mode
  let lag := releaseLag5 s c
  let ready (j g : Nat) : Int := 20000 * g + lag - 4000 - j * ((c.contract.maxlen + 20) * b5) - c.contract.maxlen * b5
  if b5 = 0 then none
  else match c.srcIndex.mapIdx fun j g => ready j g with
    | [] => none
    | x :: t =>
      let at5 : Int := (t.foldl min x - 5000 - 5 * port.lead) * unitsPerNs
      some ((at5 % (5 * s.time.l : Nat)).toNat / (5 * unitsPerNs))

/-- The node computes INTAKE of a context: of a PLACED stream that it sources, else 0 (R262, R284). -/
def withIntake (s : State) (x : Ctx) : Ctx :=
  { x with intake := if x.canon.state = .placed ∧ sourcedHere s x.canon.context then intakeOf s x.canon else 0 }

/-- INTAKE of every context and of the chamber tables follows the ports and bindings (R239, R284). -/
def refreshIntake (s : State) : State :=
  let s := updPlanner (fun p => { p with ctxs := p.ctxs.map fun e => (e.1, withIntake s e.2) }) s
  let fix (e : Chamber) : Chamber :=
    match ctxAt s e.context with
    | some x => if e.kind = .source then { e with intake := x.intake } else e
    | none => e
  updGallery (fun g => { g with banks := g.banks.map fun b => { b with active := b.active.map fix } }) s

/-- φ of a bound stream is set anew (R163, R285): the output takes it at its next frame pulse. -/
def setPhi (k : Nat) (s : State) : State :=
  match ctxAt s k, boundGlk s k with
  | some x, some n =>
    if x.canon.state = .placed ∧ sourcedHere s k then match phiOf s x.canon with
      | some p =>
        let s := updPlanner (fun q => { q with ctxs := tabPut q.ctxs k { x with phase := p } }) s
        setGlk n (fun g => { g with phiDue := false, phiNext := if p = g.phi then none else some p }) s
      | none => s
    else s
  | some x, none => if x.phase = 0 then s else updPlanner (fun q => { q with ctxs := tabPut q.ctxs k { x with phase := 0 } }) s
  | none, _ => s

/-- φ of every stream (R285). -/
def refreshPhi (s : State) : State := s.planner.ctxs.foldl (fun s e => setPhi e.1 s) s

/-- Bindings made in the last cycle take their φ at a boundary (R272). -/
def bindBoundary (s : State) : State :=
  s.time.glk.foldl (fun s g => match g.bound, g.phiDue with
    | some k, true => setPhi k s
    | _, _ => s) s

/-! ### What a swap changes -/

/-- A stream keeps its chambers over a swap (R268). -/
def standsStill (old new : Tab Ctx) (k : Nat) : Bool :=
  match tabFind old k, tabFind new k with
  | some a, some b =>
    a.canon.state == .placed && b.canon.state == .placed && a.canon.srcIndex == b.canon.srcIndex
      && a.canon.cycOffset == b.canon.cycOffset && a.canon.contract == b.canon.contract
  | _, _ => false

/-- A stream's chambers and deliveries are all the same (R290). -/
def sameEntries (old new : Tab Ctx) (k : Nat) : Bool :=
  standsStill old new k
    && ((tabFind old k).map fun x => (x.canon.served, x.canon.lines)) == ((tabFind new k).map fun x => (x.canon.served, x.canon.lines))

/-- What belongs to a stream's old chambers goes where it does not keep them (R101, R118, R245, R268, R290). -/
def dropMoved (keeps keepsWin : Nat → Bool) (s : State) : State :=
  updGallery (fun g => { g with
    nextSeq := g.nextSeq.filter fun e => keeps e.1, released := g.released.filter fun e => keeps e.1,
    muteUntil := g.muteUntil.filter fun e => keeps e.1, ttWin := g.ttWin.filter fun e => keepsWin e.1 }) s

/-- The source of a stream that becomes PLACED or moves restarts (R305). -/
def restartMoved (keeps : Nat → Bool) (s : State) : State :=
  (s.vsu.filter fun e => !keeps e.1).foldl (fun s e => match ctxAt s e.1 with
    | some x => if sourcedHere s e.1 then restartSource x.canon.contract.srcPort e.1 s else setVsu e.1 restartVsu s
    | none => s) s

/-- Source queues of ports whose stream is not PLACED are gone (R271). -/
def dropQueues (s : State) : State :=
  updGallery (fun g => { g with queues := g.queues.mapIdx fun n q => if ctxIs (ctxOfPort s n) .placed then q else [] }) s

/-- What the mask of a context's service at this cab was in a state, 0 where it was not served. -/
def servedMask (s : State) (k : Nat) : BitVec 12 :=
  match ctxAt s k with
  | some x => if cabServed s x then maskHere s x.canon else 0
  | none => 0

/-- What a cab holds of a context over a swap (R314 to R317): `was` and `is_` are its masks before and after, `cut` the first source
cycle of the new plan, `moved` says that a cut-over plans the stream anew, `gone` that one makes it DEAD. -/
def serviceOf (cut : Int) (was is_ : BitVec 12) (moved gone : Bool) (v : Vsu) : Vsu :=
  let v := { v with dues := v.dues.filter fun d => decide (d.1 < cut) }
  if is_ ≠ 0 ∧ was = 0 then
    { flushVsu v with since := cut, sincePlain := false, closed := none, endsAt := none, endMask := 0, allotted := false, plain := false }
  else if is_ = 0 ∧ was ≠ 0 then
    if gone then endService { v with since := cut, sincePlain := false }
    else if v.dues = [] then endService v else { v with endsAt := some cut, endMask := was }
  else if is_ ≠ 0 ∧ moved ∧ v.allotted then
    { v with held := [], passed := [], heldUnits := [], good := [], dues := [], last := none, since := cut, sincePlain := false, closed := none }
  else v

/-- The context of an entry of the VSU is FREE: its setting goes (R294), at once but for units of earlier cycles still to come (R315). -/
def freeVsu (v : Vsu) : Option Vsu := if v.endsAt.isSome then some { v with configured := false, due := none } else none

/-- The service of the contexts at this cab over a swap (R314 to R317): `keeps` names the streams that keep their chambers, `atCut` a
cut-over. A stream that it makes DEAD asserts VSU_FAULT at its ports (R316). -/
def serviceChange (old : State) (keeps : Nat → Bool) (atCut : Bool) (cut : Int) (s : State) : State :=
  let dead (k : Nat) : Bool := atCut && ctxIs (ctxAt s k) .dead
  let one (e : Nat × Vsu) : Nat × Vsu :=
    (e.1, serviceOf cut (servedMask old e.1) (servedMask s e.1) (atCut && !keeps e.1) (dead e.1) e.2)
  let faults := (old.vsu.filter fun e => dead e.1).map fun e => servedMask old e.1
  let vsu := (s.vsu.map one).filterMap fun e => if (ctxAt s e.1).isSome then some e else (freeVsu e.2).map fun v => (e.1, v)
  faults.foldl (fun s m => vsuFaults m s) { s with vsu := vsu }

/-- Streams that a car port serves: those whose entries in ACTIVE or RETIRING name it, and LOCAL ones (R339). -/
def servesPort (s : State) (n k : Nat) : Bool :=
  (s.gallery.banks.any fun b => (b.active ++ b.retiring).any fun e => e.context == k && e.deliver.getLsbD n)
    || match ctxAt s k with
      | some x => x.canon.state == .loc && (maskHere s x.canon).getLsbD n
      | none => false

/-- TT queues are assigned afresh (R339). -/
def assignQueues (s : State) : State :=
  { s with car := s.car.mapIdx fun n c => { c with ttStreams := (List.range 256).filter (servesPort s n) } }

/-- Streams that the new plan makes DEAD are recorded (R225, R282). -/
def recordDead (old : Tab Ctx) (s : State) : State :=
  s.planner.ctxs.foldl (fun s e =>
    let news : Bool := match tabFind old e.1 with
      | some x => x.canon.state != .dead
      | none => e.2.cause == 5
    if e.2.canon.state == .dead && news then logEvent 0x3E (srcCtx e.1) (byte1 e.2.cause) s else s) s

/-- The plan digest of the plan in force (R286). -/
def ownDigest (s : State) : BitVec 32 :=
  match planEnv s with
  | some env => planDigest env s.survey.epoch s.planner.inForce s.planner.ctxs
  | none => 0

/-- The plan's local bytes stay with a context as it takes a new canonical form (R262). -/
def keepLocal (old : Tab Ctx) (e : Nat × Ctx) : Nat × Ctx :=
  match tabFind old e.1 with
  | some x => (e.1, { e.2 with intake := x.intake, phase := x.phase })
  | none => e

/-- Contexts and selections of a plan come into force (R262, R266, R268): `keeps` names the streams that keep their chambers
and counts, `keepsWin` those that keep their windows, `cut` the first source cycle, `old` the state that the plan before ran in. A plan
without a serial is that of a cut-over. -/
def takePlan (g : Stage) (keeps keepsWin : Nat → Bool) (cut : Nat) (old s : State) : State :=
  let tag := cycleTag s cut
  let atCut := g.serial == 0 && !g.sync
  let s := updPlanner (fun p => { p with
    ctxs := g.ctxs.map (keepLocal p.ctxs), selections := g.sels, inForce := g.serial }) s
  let s := dropQueues (restartMoved keeps (dropMoved keeps keepsWin s))
  let s := refreshPhi (refreshIntake (assignQueues (serviceChange old keeps atCut tag s)))
  let s := addDues s.time.cycles (allotVsu tag (recordDead old.planner.ctxs s))
  updPlanner (fun p => { p with digest := ownDigest s }) s

/-- The banks rotate at a swap (R255): RETIRING takes ACTIVE, ACTIVE takes SHADOW; a joining unit has no RETIRING (R223). -/
def rotateBanks (swap : Nat) (joining : Bool) (s : State) : State :=
  updGallery (fun g => { g with
    banks := g.banks.map fun b => { active := b.shadow, retiring := if joining then [] else b.active, shadow := [] },
    lastSwap := some swap, retiringHeld := !joining, shadowComplete := false, waiting := false, retHyper := s.time.hyper, retShift := 0 }) s

/-! ### Commands that wait for a plan -/

/-- A SERIAL has come into force (R117, R265). -/
def serialDone (s : State) (serial : Nat) : Bool := decide ((s.planner.inForce + 65536 - serial) % 65536 ≤ 32767)

/-- A command whose change is in force completes (R81, R266): STREAM_DECLARE with the context, VIEW_SELECT with the line time,
PLAN_REPACK with the digest. -/
def completeChange (r : Request) (s : State) : State :=
  match r.tag.bind (cmdOf s) with
  | some c =>
    let result := match r.msg.op with
      | .declare _ => c.ref2
      | .view _ => ltNs s
      | .repack => s.planner.digest.toNat
      | _ => 0
    atCommit r.tag result id s
  | none => s

/-- Every answered command whose change is in force completes. -/
def completeChanges (s : State) : State :=
  let done (r : Request) : Bool := r.answered && match r.tag.bind (cmdOf s) with
    | some c => serialDone s c.ref
    | none => true
  let now := s.planner.waiting.filter done
  now.foldl (fun s r => completeChange r s) (updPlanner (fun p => { p with waiting := p.waiting.filter fun r => !done r }) s)

/-! ### Swap cycles -/

/-- The number of the cycle in whose Survey chamber a message queued now is first sent (R173, R265). -/
def sendCycle (s : State) : Nat := if phaseOf s s.clk.lt < 8000 * unitsPerNs then cycleNow s else cycleNow s + 1

/-- A swap cycle that lies no earlier than `at_` and accords with the last one named (R256, R265). -/
def nameSwap (s : State) (at_ : Nat) : Nat := if at_ ≤ s.planner.lastS then s.planner.lastS else max at_ (s.planner.lastS + 3)

/-- A cut-over cycle that lies no earlier than `at_` and at least 3 cycles after each swap cycle before it (R256). Swaps named at or after it
are discarded (R267). -/
def clearOfSwaps (s : State) (at_ : Nat) : Nat :=
  (s.gallery.lastSwap.toList ++ s.planner.staged.map fun g => g.swap).foldl (fun c x => if x < c ∧ c < x + 3 then x + 3 else c) at_

/-- S of a change that places a number of streams (R265). -/
def swapCycle (s : State) (env : PlanEnv) (places : Nat) : Nat :=
  nameSwap s (sendCycle s + max 4 (crossing (unitCount env.record) + 1) + cyclesOf s (if places ≤ 16 then 1000000 else 8000000))

/-- SWAP of a swap cycle: line time of its boundary in whole ns (R292). -/
def swapNs (s : State) (k : Nat) : Nat := boundary s k / unitsPerNs

/-! ### Silence -/

/-- A node becomes plan-silenced (R289): the record carries the winning digest, or 0, and its own. -/
def planSilence (winner : BitVec 32) (s : State) : State :=
  if s.planner.silenced then s
  else logEvent 0x53 srcNode (le 4 winner.toNat ++ le 4 s.planner.digest.toNat) (updPlanner (fun p => { p with silenced := true }) s)

/-- REQ_ID of a new request (R292). -/
def nextReq (s : State) : Nat := (s.planner.reqId + 1) % 65536

/-- The nearest other position that an AGREE_MAP shows as agreeing (R290). -/
def nearestAgreeing (map : BitVec 64) (own : Nat) : Option Nat :=
  ((List.range 63).flatMap fun d => [own - (d + 1), own + (d + 1)]).find? fun p => decide (1 ≤ p) && p != own && map.getLsbD (p - 1)

/-- A set of records is on its way: it was asked for, or its last record came, not longer ago than a request and an answer take to cross the
consist (R208, R290; DESIGN CHOICE, log 68). -/
def syncMoves (s : State) : Bool :=
  let units := (s.planner.record.map unitCount).getD 0
  s.planner.syncing && decide (s.time.cycles ≤ s.planner.syncAt + 2 * crossing units + 2)

/-- A plan-silenced node asks for the records (R290), unless they are on their way or a rebuilt plan waits for its swap. -/
def askSync (s : State) : State :=
  if s.planner.staged.any (fun g => g.sync) || syncMoves s then s
  else
    let goal := if isReference s && isActive s then nearestAgreeing s.planner.agreeMap s.survey.position else some 1
    match goal with
    | some pos =>
      let m : PlRequest := { reqPos := s.survey.position, op := .sync, reqId := nextReq s, epoch := s.survey.epoch }
      sendMgTo pos (.plRequest m) (updPlanner (fun p => { p with reqId := m.reqId, syncing := true, syncAt := s.time.cycles }) s)
    | none => s

/-- The node finds that it does not hold the plan of the others (R289, R290). -/
def losePlan (winner : BitVec 32) (s : State) : State := askSync (planSilence winner s)

/-! ### Requests at position 1 -/

/-- Position 1 accepts no request now (R267, R289). -/
def holdsRequests (s : State) : Bool := (decide (1 ≤ s.reform.phase) && decide (s.reform.phase ≤ 3)) || planSilenced s

/-- The answer to a request (R292). -/
def resultOf (m : PlRequest) (outcome code pos : Nat) : PlResult :=
  { reqPos := m.reqPos, op := planOpCode m.op, reqId := m.reqId, outcome := outcome, code := code, codePos := pos,
    context := 0, serial := 0, swap := 0 }

/-- A PL_RESULT reaches the node that waits for it (R266, R267): a rejected command completes, an accepted one waits for S. -/
def takeResult (r : PlResult) (s : State) : State :=
  match s.planner.waiting.find? fun w => w.msg.reqId == r.reqId && !w.answered with
  | none => s
  | some w =>
    let s' := updPlanner (fun p => { p with waiting := p.waiting.erase w }) s
    match w.tag, r.outcome with
    | some t, 0 =>
      let s := setCmd t (fun c => { c with ref := r.serial, ref2 := r.context }) s
      completeChanges (updPlanner (fun p => { p with waiting := p.waiting.map fun x => if x = w then { x with answered := true } else x }) s)
    | some t, 1 => finishTag t 0x31 (r.code + 2 ^ 8 * r.codePos) s'
    | some t, 2 => finishTag t 0x30 r.code s'
    | some t, _ => finishTag t 0x50 s.survey.epoch s'
    | none, _ => s'

/-- Position 1 answers a request, itself without a message (R264). -/
def answer (r : PlResult) (s : State) : State :=
  if r.reqPos = s.survey.position then takeResult r s else sendMgTo r.reqPos (.plResult r) s

/-- CONTEXT or POSITION that a change concerns; none where no context is FREE (R263, R292). -/
def changeTarget (t : Tab Ctx) (m : PlRequest) : Option Nat :=
  match m.op with
  | .declare _ => lowestFree t
  | .withdraw k => some k
  | .view _ => some m.reqPos
  | _ => some 0

/-- Position 1 orders a change: it plans it, floods it with the next SERIAL and answers, or refuses it (R263 to R270, R283). -/
def orderChange (env : PlanEnv) (m : PlRequest) (s : State) : State :=
  let (t, sels) := lastPlan s
  let serial := (s.planner.lastSerial + 1) % 65536
  match changeTarget t m with
  | none => answer (resultOf m 2 1 0) s
  | some target =>
    let swap := swapCycle s env (placesOf env t sels target m.op)
    match planChange env (canons (planBefore_ s swap)) serial t sels target m.op with
    | .error (outcome, code, pos) => answer (resultOf m outcome code pos) s
    | .ok (t', sels') =>
      let s := stage { swap := swap, serial := serial, ctxs := t', sels := sels' } s
      let s := floodMg (.plChange { serial := serial, op := m.op, epoch := s.survey.epoch, swap := swapNs s swap, target := target }) s
      answer { resultOf m 0 0 0 with context := target, serial := serial, swap := swapNs s swap } s

/-- Position 1 takes a request (R264, R267). -/
def handleRequest (m : PlRequest) (s : State) : State :=
  if m.epoch ≠ 0xFF ∧ m.epoch ≠ s.survey.epoch then answer (resultOf m 3 0 0) s
  else match planEnv s with
    | some env => orderChange env m s
    | none => s

/-- A request arrives at position 1: handled, or held in arrival order (R264, R267). -/
def submit (r : Request) (s : State) : State :=
  if holdsRequests s then updPlanner (fun p => { p with requests := p.requests ++ [r] }) s else handleRequest r.msg s

/-- Requests held are taken once nothing holds them (R267, R289). -/
def releaseRequests (s : State) : State :=
  if holdsRequests s then s
  else s.planner.requests.foldl (fun s r => handleRequest r.msg s) (updPlanner (fun p => { p with requests := [] }) s)

/-- A command's request goes to position 1 (R264). -/
def sendRequest (tag : Option (BitVec 8)) (op : PlanOp) (epoch : Nat) (s : State) : State :=
  let m : PlRequest := { reqPos := s.survey.position, op := op, reqId := nextReq s, epoch := epoch }
  let r : Request := { msg := m, tag := tag, answered := false }
  let s := updPlanner (fun p => { p with reqId := m.reqId, waiting := p.waiting ++ [r] }) s
  if isReference s then submit r s else sendMgTo 1 (.plRequest m) s

/-! ### Contracts -/

/-- The contract that 32 parameter bytes spell (R260). -/
def contractOf (bs : List Byte) : Contract :=
  { srcPos := fld bs 0 1, srcPort := fld bs 1 1, flags := BitVec.ofNat 8 (fld bs 2 1), destCount := fld bs 3 1,
    maxlen := fld bs 4 2, fph := fld bs 6 2, deadline := fld bs 8 4,
    dests := (List.range (min 8 (fld bs 3 1))).map fun i => (fld bs (16 + 2 * i) 1, fld bs (17 + 2 * i) 1) }

/-- The offset of the first byte that R260 refuses in destination pair i. -/
def pairBad (bs : List Byte) (i : Nat) : Option Nat :=
  let pair (j : Nat) : Nat × Nat := (fld bs (16 + 2 * j) 1, fld bs (17 + 2 * j) 1)
  let (pos, port) := pair i
  if fld bs 3 1 ≤ i then (if pos ≠ 0 then some (16 + 2 * i) else if port ≠ 0 then some (17 + 2 * i) else none)
  else
    let cab := i = 0 ∧ bitOf (fld bs 2 1) 1
    if (if cab then pos ≠ 0 else pos = 0 ∨ 0x3F < pos) then some (16 + 2 * i)
    else if 0x0B < port then some (17 + 2 * i)
    else if (pos, port) = (fld bs 0 1, fld bs 1 1) ∨ ((List.range i).any fun j => pair j == (pos, port)) then some (16 + 2 * i)
    else none

/-- The offset of the first field of a contract that R260 refuses. -/
def contractBad (bs : List Byte) : Option Nat :=
  if fld bs 0 1 = 0 ∨ 0x3F < fld bs 0 1 then some 0
  else if 0x0B < fld bs 1 1 then some 1
  else if 3 < fld bs 2 1 then some 2
  else if 8 < fld bs 3 1 ∨ (bitOf (fld bs 2 1) 1 ∧ fld bs 3 1 = 0) then some 3
  else if fld bs 4 2 < 64 ∨ 1522 < fld bs 4 2 then some 4
  else if fld bs 6 2 = 0 ∨ 2048 < fld bs 6 2 then some 6
  else if fld bs 8 4 < 2000 ∨ 3000000 < fld bs 8 4 then some 8
  else (List.range 8).findSome? (pairBad bs)

/-! ### Cold start -/

/-- The positions that a contract names (R263): an ACTIVE_CAB pair names position 1. -/
def highestNamed (c : Contract) : Nat := (namedBy c).foldl (fun m d => max m d.1) 0

/-- The image contracts that position 1 takes, numbered from context 0 (R263). -/
def imageContracts (s : State) (count : Nat) : Tab Contract :=
  (((s.store.contracts.filter fun c => decide (highestNamed c ≤ count)).take 256).mapIdx fun i c => (i, c))

/-- The plan of a cold start (R281 to R283): contracts that a check refuses, or that find no place, are DEAD with cause 5. -/
def coldPlan (env : PlanEnv) (cs : Tab Contract) : Tab Ctx :=
  let (taken, refused) := cs.foldl (fun (acc : Tab Ctx × Tab Contract) e =>
    if (admitChecks env acc.1 e.2).isSome then (acc.1, acc.2 ++ [e])
    else (tabPut acc.1 e.1 { canon := newCanon e.1 e.2 (servedBits env [] e.1 e.2), cause := 0, intake := 0, phase := 0 }, acc.2)) ([], [])
  let r := placeAll env 0 [] ((canons taken).mergeSort (planBefore env))
  let t := r.1.foldl putCanon taken
  let t := r.2.foldl (fun t x => match tabFind t x.1 with
    | some c => tabPut t x.1 { c with cause := 5 }
    | none => t) t
  refused.foldl (fun t e => tabPut t e.1 {
    canon := unplace (newCanon e.1 e.2 0) .dead (servedBits env [] e.1 e.2), cause := 5, intake := 0, phase := 0 }) t

/-- The plan of the flooded contracts is named for the S of R282; `c` is the cut-over cycle. -/
def stageCold (c : Nat) (cs : Tab Contract) (s : State) : State :=
  match planEnv s with
  | some env =>
    let at_ := c + (cs.length + 7) / 8 + crossing (unitCount env.record) + 1 + cyclesOf s 8000000
    stage { swap := max at_ (cycleNow s + 1), serial := s.planner.lastSerial, ctxs := coldPlan env cs, sels := [] } s
  | none => s

/-- The PL_CONTRACT messages of a cold start (R263): the contract with its other record fields zero. -/
def coldFlood (epoch : Nat) (cs : Tab Contract) : List (Mac × PlContract) :=
  let total := cs.length
  if total = 0 then [(allNodes, { epochOf := epoch, item := .nothing, lastSerial := 0, index := 0, total := 0 })]
  else cs.mapIdx fun i e =>
    (allNodes, { epochOf := epoch, item := .record { freeCanon e.1 with contract := e.2 }, lastSerial := 0, index := i, total := total })

end Sys2Proof.Machine
end

