-- ==== Sys2Proof/Machine/SurveyOps.lean ====
section
/-! DEFINITION. What the Survey shares: sides, jumpers, rounds, entries and records, the parts of a
cut-over (R179 to R198, R206). -/

namespace Sys2Proof.Machine

/-- The survey state changed by a function. -/
def updSurvey (f : Survey → Survey) (s : State) : State := { s with survey := f s.survey }

/-- The unit is unnumbered and takes part in the Survey (R182). -/
def surveying (s : State) : Bool :=
  match s.survey.state with
  | .listen => true
  | .settled => true
  | .claim => true
  | .counted => true
  | .held => true
  | _ => false

/-- The unit has settled in its round (R183, R201): SETTLED of SV_HELLO, which R175 only names, is set in SETTLED, CLAIM, COUNTED and
NUMBERED (DESIGN CHOICE, log 67). -/
def hasSettled (s : State) : Bool :=
  s.survey.state == .settled || s.survey.state == .claim || s.survey.state == .counted || s.survey.state == .numbered

/-- The origin of the partner, as the lane gives it; 0 without one (R175). -/
def peerOrigin (s : State) : BitVec 32 :=
  match s.twin.partner with
  | some h => h.origin
  | none => 0

/-- The port is a jumper: the ORIGIN heard on it is the unit's PEER (R181). -/
def isJumper (s : State) (p : BPort) : Bool :=
  match (neighAt s p).hello with
  | some h => s.twin.partner.isSome && h.origin == peerOrigin s && (bbAt s p).up
  | none => false

/-- The side that the jumper lies on: the rear on unit P, the front on unit S (R181). -/
def jumperSide (s : State) : Option Side :=
  if isJumper s .lar || isJumper s .lbr then some .rear
  else if isJumper s .laf || isJumper s .lbf then some .front
  else none

/-- The neighbour on a port counts as none for an unnumbered unit: it is NUMBERED without FULL (R206). -/
def foreignNumbered (s : State) (p : BPort) : Bool :=
  !numbered s && match (neighAt s p).hello with
    | some h => h.state == 5 && !h.full
    | none => false

/-- A port has a neighbour whose D is valid (R179). -/
def hasNeighbour (s : State) (p : BPort) : Bool := bbOpen s p && (echoAt s p).dValid && !foreignNumbered s p

/-- A side is open (R179). -/
def openSide (s : State) (sd : Side) : Bool := !(sd.ports.any fun p => hasNeighbour s p)

/-- A unit with an open side (R179). -/
def isEnd (s : State) : Bool := openSide s .front || openSide s .rear

/-- The end-1 side (R32, R179). -/
def end1Side (s : State) : Side := if s.store.orient then .rear else .front

/-- The vehicle's end 1 on an open side: for a pair, the front of unit P (R184). -/
def isFront (s : State) (sd : Side) : Bool :=
  match jumperSide s with
  | some j => j == .rear && sd == .front
  | none => sd == end1Side s

/-- CAB_ACTIVE of the vehicle for claim and record (R169, R170). -/
def cabActiveIn (s : State) : Bool :=
  s.survey.cabActive || BPort.all.any fun p => isJumper s p && ((neighAt s p).hello.map fun h => h.cabActive) == some true

/-- CAB_PRESENT of the vehicle for claim and record (R169). -/
def cabPresentIn (s : State) : Bool :=
  s.survey.cabPresent || BPort.all.any fun p => isJumper s p && ((neighAt s p).hello.map fun h => h.cabPresent) == some true

/-- The pair is lone: the unit's own open side and its partner's OPEN flag (R185). -/
def loneTwin (s : State) : Bool :=
  (jumperSide s).isSome && isEnd s && ((s.twin.partner.map fun h => h.open_) == some true)

/-- The nonce that the unit claims with (R185): unit S of a lone pair takes that of unit P. -/
def claimNonce (s : State) : BitVec 32 :=
  match jumperSide s, s.twin.partner with
  | some .front, some h => if loneTwin s then h.nonce else s.survey.nonce
  | _, _ => s.survey.nonce

/-- The unit may send a claim: unit S of a lone pair waits for a heartbeat of its round (R185). -/
def mayClaim (s : State) : Bool :=
  match jumperSide s, s.twin.partner with
  | some .front, some h => !loneTwin s || h.round == s.survey.round
  | _, _ => true

/-- The claim key of an open side (R176, R184). -/
def ownKey (s : State) (sd : Side) : Key :=
  { active := cabActiveIn s && !s.survey.innerCab, present := cabPresentIn s, nonce := claimNonce s, front := isFront s sd }

/-- The 35-bit value of a claim key (R176). -/
def keyValue (k : Key) : Nat := b2n k.active * 2 ^ 34 + b2n k.present * 2 ^ 33 + k.nonce.toNat * 2 + b2n k.front

/-- The first field in which two keys differ (R194, HEAD_RULE). -/
def headRuleOf (a b : Key) : Nat :=
  if a.active ≠ b.active then 1 else if a.present ≠ b.present then 2 else if a.nonce ≠ b.nonce then 3 else 4

/-- The claim of an open side (R176, R184). -/
def claimOf (s : State) (sd : Side) : SvClaim :=
  { origin := s.survey.origin, round := s.survey.round, part := s.part.code, key := ownKey s sd, units := 0 }

/-! ### Rounds -/

/-- A new round is entered or adopted (R182). -/
def enterRound (r : BitVec 16) (s : State) : State :=
  let s := { s with survey := { s.survey with
    round := r, nonce := (drawn s).setWidth 32, claims := [], ownClaims := [], stored := none, commit := none, pendingPos := none,
    countDue := false, commitDue := false, isHead := false, settleCycles := 0, countedCycles := 0, noEndPs := none,
    conflict := false, state := .listen } }
  logEvent 0x32 srcNode (le 2 r.toNat) (assertEdge 98 (draw s))

/-- The neighbour table changes: an unnumbered unit starts a round one above the highest it has heard (R182). -/
def neighbourChange (s : State) : State :=
  let s := updSurvey (fun v => { v with settleCycles := 0, stepped := true }) s
  if surveying s then enterRound (s.survey.round + 1) s else s

/-- A round is later than the unit's own (R117, R182). -/
def laterRound (s : State) (r : BitVec 16) : Bool :=
  let d := (r - s.survey.round).toNat
  decide (1 ≤ d) && decide (d ≤ 32767)

/-- A later round is adopted; the rest of the message is handled in it (R182). -/
def adoptRound (r : BitVec 16) (s : State) : State := if surveying s && laterRound s r then enterRound r s else s

/-- A Survey message of the present round reaches an unnumbered unit (R182). -/
def inRound (s : State) (r : BitVec 16) : Bool := surveying s && r == s.survey.round

/-! ### Entries and records -/

/-- A jumper port has a valid D. -/
def jumperUp (s : State) (l : Line) : Bool :=
  match jumperSide s with
  | some j => (echoAt s (BPort.mk' l j)).dValid && isJumper s (BPort.mk' l j) && bbOpen s (BPort.mk' l j)
  | none => false

/-- D of a line's port on a side, 0 where it is not valid or the port is held out of use (R31, R180, R194). -/
def linkDelay (s : State) (l : Line) (sd : Side) : Nat :=
  let e := echoAt s (BPort.mk' l sd)
  if e.dValid && bbOpen s (BPort.mk' l sd) then e.d else 0

/-- The unit's partner is the active unit, by the ACTIVE flag of its SV_HELLO on the jumper (R175, R191). -/
def peerActive (s : State) : Bool :=
  BPort.all.any fun p => isJumper s p && ((neighAt s p).hello.map fun h => h.active) == some true

/-- The headward link of the vehicle on a line, as its entry describes it: none at position 1 and where it is no member link. The second
unit of a pair writes the entry, and the vehicle's headward ports are its partner's (R191, R194; log 15). -/
def headLink (s : State) (l : Line) (pos : Nat) (head : Side) : Option Nat :=
  if pos ≤ 1 then none
  else if jumperSide s = some head then (Config.partnerLink s.clk.draws l.code).map (·.toNat)
  else if (echoAt s (.mk' l head)).dValid ∧ bbOpen s (.mk' l head) = true then some (linkDelay s l head) else none

/-- PART of the entry: for a pair that of the active unit, which R20 lets differ (R194). -/
def entryPart (s : State) : Nat :=
  if (jumperSide s).isSome && !isActive s && peerActive s then (s.twin.partner.map fun h => h.part).getD s.part.code else s.part.code

/-- The vehicle is reversed when its end 1 faces tailward (R33). -/
def isReversed (s : State) (head : Side) : Bool := head != end1Side s

/-- The unit's vehicle is an end of the train: a side of the unit is open, or, by its HEARTBEAT, one of its partner (R170, R185). -/
def vehicleEnd (s : State) : Bool := isEnd s || ((jumperSide s).isSome && (s.twin.partner.map fun h => h.open_) == some true)

/-- The entry of the unit's vehicle at a position with a headward side (R191, R194). Unit P takes S_ACTIVE from its PEER's flag, unit S from
its own role and its PEER's flag. -/
def ownEntry (s : State) (pos : Nat) (head : Side) : Entry :=
  { position := pos, reversed := isReversed s head, cabActive := cabActiveIn s, cabPresent := cabPresentIn s,
    twinned := (jumperSide s).isSome,
    sActive := match jumperSide s with
      | some .front => isActive s && !peerActive s
      | some .rear => peerActive s
      | none => false,
    innerCab := cabActiveIn s && !vehicleEnd s, part := entryPart s,
    linkA := (headLink s .a pos head).isSome, linkB := (headLink s .b pos head).isSome,
    jumperA := jumperUp s .a, jumperB := jumperUp s .b,
    delayA := (headLink s .a pos head).getD 0, delayB := (headLink s .b pos head).getD 0 }

/-- LINE_A_WHOLE (R194). -/
def wholeA (es : List Entry) : Bool := es.all fun e => (e.position ≤ 1 || e.linkA) && (!e.twinned || e.jumperA)

/-- LINE_B_WHOLE (R194). -/
def wholeB (es : List Entry) : Bool := es.all fun e => (e.position ≤ 1 || e.linkB) && (!e.twinned || e.jumperB)

/-- A record formed from entries (R192, R194). EPOCH and CUTOVER of its header are 0 until the commit names them, which the spec leaves open
for SV_RECORD (DESIGN CHOICE, log 67). -/
def formRecord (es : List Entry) (headRule : Nat) (truncated : Bool) : Record :=
  { epoch := 0, headRule := headRule, truncated := truncated, lineAWhole := wholeA es, lineBWhole := wholeB es,
    innerSeen := es.any fun e => e.innerCab, crc := recordCrc es, cutover := 0, entries := es }

/-- The entry of a position. -/
def entryAt (r : Record) (pos : Nat) : Option Entry := r.entries.find? fun e => e.position == pos

/-- The record with the LINKS of one position replaced (R198). -/
def withLinks (pos : Nat) (links : BitVec 8) (r : Record) : Record :=
  let es := r.entries.map fun e => if e.position = pos then
    { e with linkA := links.getLsbD 0, linkB := links.getLsbD 1, jumperA := links.getLsbD 2, jumperB := links.getLsbD 3 } else e
  { r with entries := es, lineAWhole := wholeA es, lineBWhole := wholeB es }

/-- The port faces the unit's partner, as the jumper stood at the last cut-over (R124, R181, R198). -/
def memberJumper (s : State) (p : BPort) : Bool := s.survey.jumper == some p.side

/-- The position whose LINKS hold the state of a port's link: the unit's own for headward and jumper links, the next for
tailward ones (R198). -/
def linksPosition (s : State) (p : BPort) : Nat :=
  match s.survey.headSide with
  | some h => if p.side = h ∨ memberJumper s p then s.survey.position else s.survey.position + 1
  | none => 0

/-- LINKS of a position with the bit of a port's link set as given. -/
def newLinks (s : State) (p : BPort) (up : Bool) : BitVec 8 :=
  let old := match s.survey.record.bind fun r => entryAt r (linksPosition s p) with
    | some e => BitVec.ofNat 8 (entryLinks e)
    | none => 0
  let i := (match p.line with
    | .a => 0
    | .b => 1) + if memberJumper s p then 2 else 0
  if up then old ||| BitVec.twoPow 8 i else old &&& ~~~(BitVec.twoPow 8 i)

/-- A position's LINKS change: record and whole-line flags follow, source 102 asserts (R198). -/
def applyLink (pos : Nat) (links : BitVec 8) (s : State) : State :=
  assertEdge 102 (updSurvey (fun v => { v with record := v.record.map (withLinks pos links) }) s)

/-- A member link is lost or regained: this end sends SV_LINK and applies it (R198). -/
def memberChange (p : BPort) (up : Bool) (s : State) : State :=
  let pos := linksPosition s p
  let links := newLinks s p up
  let s := setNeigh p (fun n => { n with member := up, regain := 0 }) s
  applyLink pos links (floodMg (.svLink { position := pos, links := links }) s)

/-- A member link whose D has become invalid, or whose port has gone down, stops being one (R124, R198). -/
def dropMember (p : BPort) (s : State) : State := if (neighAt s p).member then memberChange p false s else s

/-! ### The count wave -/

/-- The unit is the first of its pair: its jumper lies on its tailward side (R191). -/
def firstOfPair (s : State) (head : Side) : Bool := jumperSide s == some head.other

/-- A Survey message leaves on the ports of a side, none to a neighbour that R206 excludes. -/
def sendSurvey (sd : Side) (m : MgMsg) (s : State) : State := linkMg (sd.ports.filter fun p => !foreignNumbered s p) m s

/-- The count goes on: across the jumper with IN_VEHICLE, or with this vehicle's entry appended (R191). A tail forms the
record and sends it headward (R192, R193). Across a head's own jumper the count carries no entry, so ENTRIES is 0, outside R177's 1 to 63
(DESIGN CHOICE, log 67). -/
def countOn (head : Side) (inVehicle : Bool) (m : SvCount) (s : State) : State :=
  if firstOfPair s head && !inVehicle then sendSurvey head.other (.svCount { m with inVehicle := true }) s
  else
    let pos := m.entries.length + 1
    let es := m.entries ++ [ownEntry s pos head]
    if openSide s head.other || decide (63 ≤ pos) then
      let r := formRecord es m.headRule (decide (63 ≤ pos) && !openSide s head.other)
      let s := updSurvey (fun v => { v with stored := some r, commitDue := v.isHead }) s
      sendSurvey head (.svRecord { headOrigin := m.headOrigin, round := m.round, record := r }) s
    else sendSurvey head.other (.svCount { m with inVehicle := false, next := pos + 1, entries := es }) s

/-- The head starts the count: position 1, its open side headward (R189). -/
def startCount (s : State) : State :=
  let head := if openSide s .front && (!openSide s .rear || isFront s .front) then Side.front else Side.rear
  let s := updSurvey (fun v => { v with countDue := false, headSide := some head, pendingPos := some 1 }) s
  countOn head false {
    headOrigin := s.survey.origin, round := s.survey.round,
    next := if firstOfPair s head then 2 else 1, inVehicle := false, headRule := s.survey.headRule, entries := [] } s

/-- The first boundary at least `n` cycles after now, line time in ns (R155, R195): a boundary that is no whole ns is rounded up
(DESIGN CHOICE, log 67). -/
def boundaryAfter (s : State) (n : Nat) : Nat :=
  let k := cycleNow s + n
  let k := if boundary s (cycleNow s) = s.clk.lt then k else k + 1
  (boundary s k + 65535) / 65536

/-- The epoch of the next numbering (R36, R195): 0xFE is followed by 0x00. -/
def nextEpoch (s : State) : Nat :=
  match s.survey.lastEpoch with
  | some e => if e ≥ 0xFE then 0 else e + 1
  | none => 1

/-- The head sends its commit (R195). -/
def sendCommit (s : State) : State :=
  match s.survey.stored, s.survey.headSide with
  | some r, some head =>
    let c : SvCommit := {
      headOrigin := s.survey.origin, round := s.survey.round, epoch := nextEpoch s,
      hyper := s.store.imageCycle.2.1, cutover := boundaryAfter s 8, cycle := s.store.imageCycle.1,
      squeeze := s.store.imageCycle.2.2, crc := r.crc }
    sendSurvey head.other (.svCommit c) (updSurvey (fun v => { v with commitDue := false, commit := some c }) s)
  | _, _ => s

/-- The unit decides against a claim from the other end (R186). -/
def compareClaims (own other : Key) (s : State) : State :=
  if keyValue other < keyValue own then
    updSurvey (fun v => { v with isHead := true, countDue := true, headRule := headRuleOf own other, state := .counted,
                                 countedCycles := 0 }) s
  else if keyValue own < keyValue other then updSurvey (fun v => { v with state := .settled }) s
  else enterRound (s.survey.round + 1) (logEvent 0x33 srcNode (le 2 s.survey.round.toNat) s)

/-- The open side that a claiming unit claims for. -/
def claimSide (s : State) : Side := if openSide s .front then .front else .rear

/-- The claim of the other end that the unit holds, if any (R186). -/
def otherClaim (s : State) : Option SvClaim := (s.survey.claims.find? fun c => c.2.origin != s.survey.origin).map fun c => c.2

/-- The unit makes its claims, one for each open side (R184). -/
def makeClaims (s : State) : State :=
  updSurvey (fun v => { v with ownClaims := ([Side.front, Side.rear].filter (openSide s)).map (claimOf s) }) s

/-- A unit in CLAIM that holds a claim of the other end decides once it has sent its own; a lone unpaired unit compares its own two
(R184 to R186). -/
def decideClaim (s : State) : State :=
  if s.survey.state != .claim then s
  else if openSide s .front && openSide s .rear && (jumperSide s).isNone then
    updSurvey (fun v => { v with isHead := true, countDue := true, headRule := 4, state := .counted, countedCycles := 0 }) s
  else match otherClaim s with
    | some c => if mayClaim s && s.survey.claimSent then compareClaims (ownKey s (claimSide s)) c.key s else s
    | none => s

/-! ### Taking and giving up a position -/

/-- Both ends claimed with ACTIVE, as the claims stored and made for the round show: two claims of one unit are those of a lone vehicle's
two ends (R184, R187). -/
def claimsConflict (s : State) : Bool :=
  let active := ((s.survey.claims.map fun c => c.2) ++ s.survey.ownClaims).filter fun c => c.key.active
  match active with
  | [] => false
  | c :: rest => rest.any fun x => x.origin != c.origin || x.key.front != c.key.front

/-- CAB_CONFLICT: the record of position 1 with the last position, and source 100 (R187). -/
def cabConflict (count : Nat) (s : State) : State := assertEdge 100 (logEvent 0x34 (srcPos 1) (byte1 count) s)

/-- Member links after a cut-over: the ports that face a position of the consist and are usable (R124). -/
def markMembers (s : State) : State :=
  BPort.all.foldl (fun s p => setNeigh p (fun n => { n with member := innerPort s p && bbOpen s p && (echoAt s p).dValid, regain := 0 }) s) s

/-- The unit takes a position, an epoch and a record (R196, R223, R556): NODE_ADDR changes whole. -/
def takePosition (pos epoch : Nat) (head : Side) (r : Record) (s : State) : State :=
  markMembers { s with survey := { s.survey with
    jumper := jumperSide s,
    prevRecord := s.survey.record, prevPosition := s.survey.position, prevEpoch := s.survey.epoch,
    position := pos, epoch := epoch, lastEpoch := some epoch, headSide := some head, record := some r,
    state := .numbered, pendingPos := none, stored := none, commit := none, isHead := false } }

/-- The boundary of the present cycle has not been run. -/
def boundaryLags (s : State) : Bool := s.time.boundaryDue || decide (s.time.cycle < cycleNow s)

/-- The frame period in cycles: line period × lines / cycle length, rounded (R162). -/
def glkM (period lines l : Nat) : Nat := (2 * period * lines * unitsPerNs + l) / (2 * l)

/-- The present cycle `old` of a GLK output is numbered `new` from now on: its frames go on at every M-th cycle counted as cycles occur,
with M for the cycle length in force (R152, R162; DEDUCED, log 62). -/
def rebaseGlk (old new l : Nat) (g : Glk) : Glk :=
  if g.mode = 0 then g
  else
    let m := max 1 g.m
    let next := if old ≤ g.anchor then g.anchor else g.anchor + (old - g.anchor + m - 1) / m * m
    { g with
      m := glkM g.linePeriod g.lines l, anchor := next - old + new,
      frameCycle := (if old ≤ g.frameCycle then g.frameCycle else next) - old + new }

/-- The first boundary state of a cycle setting: L, hyper-period, Squeeze and base (R130, R131, R196). Another L restarts the CAN
matrices (R400). -/
def takeCycle (l hyper squeeze base : Nat) (s : State) : State :=
  let k := (s.clk.lt - base) / l
  { s with
    time := { s.time with
      l := l, hyper := hyper, squeeze := squeeze, base := base, pendingCycle := none,
      cycle := k, boundaryDue := boundaryLags s, glk := s.time.glk.map (rebaseGlk (cycleNow s) k l) }
    can := s.can.map fun c => { c with restart := c.restart || l != s.time.l } }

/-- The unit becomes time-silenced (R144): SILENCED and TT_SILENCE with U. -/
def timeSilence (s : State) : State :=
  if s.time.silenced then s
  else logEvent 0x23 srcNode (le 2 (uncertNs s)) { s with time := { s.time with silenced := true, quiet := 0 } }

/-- Time at the cut-over that numbers a unit (R148): position 1 is the reference, every other node is silenced. The spec gives
SERVO_OFFSET no value before the first update and at position 1; theta is 0 there (DESIGN CHOICE, log 63). -/
def startServo (s : State) : State :=
  let s := { s with time := { s.time with lockIn := 0, lockOut := 0, quiet := 0, holdover := false, theta := 0 } }
  if isReference s then
    { s with clk := { s.clk with s := 0 }, time := { s.time with uncert := some 0, locked := false, silenced := false } }
  else timeSilence { s with time := { s.time with uncert := none, locked := false } }

end Sys2Proof.Machine
end

