-- ==== Sys2Proof/Machine/ReformPlan.lean ====
section
/-! DEFINITION. Records and plans of a re-forming, as every unit computes them: the merged, split and reversed records, what
becomes of each stream, and the new plan (R214, R216, R222, R225, R228 to R230, R258, R279 to R282, R594). -/

namespace Sys2Proof.Machine

/-! ### Records -/

/-- The next epoch of a running consist (R36). -/
def epochAfter (e : Nat) : Nat := if e ≥ 0xFE then 0 else e + 1

/-- An entry turned round: it takes the headward links of the next entry of its own part (R214). -/
def flipEntry (next : Option Entry) (e : Entry) : Entry :=
  { e with
    reversed := !e.reversed, delayA := (next.map fun x => x.delayA).getD 0, delayB := (next.map fun x => x.delayB).getD 0,
    linkA := (next.map fun x => x.linkA).getD false, linkB := (next.map fun x => x.linkB).getD false }

/-- The entries of a part in position order, or the other way round and turned (R214). -/
def flipEntries : List Entry → List Entry
  | [] => []
  | [e] => [flipEntry none e]
  | e :: x :: t => flipEntries (x :: t) ++ [flipEntry (some x) e]

/-- Entries numbered from a position. -/
def renumber (first : Nat) (es : List Entry) : List Entry := es.mapIdx fun i e => { e with position := first + i }

/-- The vehicle at the coupler of a joining part takes the coupler link's delays (R214). -/
def atCoupler (o : JnOffer) : List Entry → List Entry
  | [] => []
  | e :: t => { e with
      delayA := o.cplDelayA, delayB := o.cplDelayB, linkA := o.cplDelayA != 0, linkB := o.cplDelayB != 0 } :: t

/-- Coupler vehicles inside the new consist that assert CAB_ACTIVE set INNER_CAB (R170, R214). -/
def setInner (nk : Nat) (es : List Entry) : List Entry :=
  es.map fun e => if (e.position = nk ∨ e.position = nk + 1) ∧ 1 < e.position ∧ e.position < es.length ∧ e.cabActive then
    { e with innerCab := true } else e

/-- The merged record of a keeping and a joining offer (R212, R214). -/
def mergedRecord (k j : JnOffer) : Record :=
  let ke := if k.couplerIsHead then flipEntries k.entries else k.entries
  let je := if j.couplerIsHead then j.entries else flipEntries j.entries
  let nk := k.entries.length
  let es := setInner nk (renumber 1 ke ++ renumber (nk + 1) (atCoupler j je))
  { formRecord es (headRuleOf k.farKey j.farKey) false with epoch := epochAfter k.head.epochOf }

/-- The first vehicle of a part has no headward link, and its end vehicles are not inner (R170, R194). -/
def trimEnds (es : List Entry) : List Entry :=
  es.map fun e =>
    let e := if e.position = 1 then { e with linkA := false, linkB := false, delayA := 0, delayB := 0 } else e
    if e.position = 1 ∨ e.position = es.length then { e with innerCab := false } else e

/-- The record of one part of a split: entries FIRST to LAST in the same direction (R228). -/
def splitRecord (old : Record) (first last : Nat) : Record :=
  let es := trimEnds (renumber 1 (old.entries.filter fun e => decide (first ≤ e.position) && decide (e.position ≤ last)))
  { formRecord es old.headRule false with epoch := epochAfter old.epoch }

/-- The reversed record of a lead change (R230). -/
def reversedRecord (old : Record) : Record :=
  { formRecord (renumber 1 (flipEntries old.entries)) 1 false with epoch := epochAfter old.epoch }

/-! ### Streams -/

/-- Positions of one part as a new record numbers them. -/
abbrev PosMap := Nat → Option Nat

/-- What becomes of a stream: the contract with its new positions, the destination pairs lost, and the cause of R225 if it
cannot survive. -/
structure Moved where
  contract : Contract
  lost : Nat
  cause : Nat
  deriving DecidableEq, Repr

/-- A destination pair of a contract with its new position; 0, the active cab, stays (R222, R260). -/
def moveDest (map : PosMap) (c : Contract) (i : Nat) : Option (Nat × Nat) :=
  let d := c.dests.getD i (0, 0)
  if i = 0 ∧ c.flags.getLsbD 1 then some d else (map d.1).map fun p => (p, d.2)

/-- A contract moved to a new record (R222, R225). A dead one keeps the positions that have none in the new record. -/
def moveContract (map : PosMap) (c : Contract) : Moved :=
  let moved := (List.range c.destCount).map (moveDest map c)
  let whole := (List.range c.destCount).map fun i => (moveDest map c i).getD (c.dests.getD i (0, 0))
  match map c.srcPos with
  | none => { contract := c, lost := 0, cause := 1 }
  | some src =>
    if c.destCount ≠ 0 ∧ moved.all fun d => d.isNone then { contract := { c with srcPos := src, dests := whole }, lost := 0, cause := 2 }
    else
      let ds := moved.filterMap id
      { contract := { c with srcPos := src, dests := ds, destCount := ds.length }, lost := packBits (moved.map fun d => d.isNone), cause := 0 }

/-- A context moved to a new record, not yet placed there. -/
def moveCtx (map : PosMap) (x : Ctx) : Ctx × Moved :=
  let m := moveContract map x.canon.contract
  let c := { x.canon with contract := m.contract }
  if x.canon.state = .dead then
    ({ x with canon := c, gone := x.gone || m.cause == 1 }, { m with cause := 0, lost := 0 })
  else if m.cause ≠ 0 then ({ x with canon := unplace c .dead c.served, cause := m.cause, gone := m.cause == 1 }, m)
  else ({ x with canon := c }, m)

/-- The stretch from source to farthest destination, in old positions, of the destinations that stay (R222). -/
def stretch (map : PosMap) (c : Contract) : List Nat :=
  let ps := c.srcPos :: ((destsOf c).map fun d => d.1).filter fun p => (map p).isSome
  let lo := ps.foldl min c.srcPos
  let hi := ps.foldl max c.srcPos
  (List.range (hi + 1 - lo)).map fun i => lo + i

/-- The vehicles of the stretch keep their direction and neighbours, and the active cab its vehicle (R222). -/
def keepsStretch (map : PosMap) (c : Contract) : Bool :=
  let ps := stretch map c
  ps.all (fun p => (map p).isSome)
    && (ps.drop 1).all (fun p => match map (p - 1), map p with
      | some a, some b => b == a + 1
      | _, _ => false)
    && (!c.flags.getLsbD 1 || map 1 == some 1)

/-- The contract with its active-cab pair written as the position that the pair stood for, `cab` in the new record. -/
def fixCab (cab : Nat) (c : Contract) : Contract :=
  if c.flags.getLsbD 1 then { c with flags := c.flags &&& ~~~2, dests := (cab, (c.dests.headD (0, 0)).2) :: c.dests.drop 1 } else c

/-- A stream of the previous plan, already at its new positions, where the new record names its ports: it served the vehicle that was at
position 1, now at `cab` (R594). -/
def oldCanon (cab : Nat) (c : Canon) : Canon := { c with contract := fixCab cab c.contract }

/-- A stream that keeps its chambers, under the selections of the new consist and on the lines that the new record leaves it (R262, R275). -/
def keepCanon (env : PlanEnv) (sels : Tab (BitVec 256)) (c : Canon) : Canon :=
  let served := servedBits env sels c.context c.contract
  let dests := servedDests served c.contract
  if dests = [] then unplace c .held served
  else if allLocal c.contract dests then unplace c .loc served
  else { c with served := served, lines := c.lines &&& linesOf (pathsOf env c.contract.srcPos dests) }

/-- Each path of a stream still has a line (R275). -/
def hasLines (env : PlanEnv) (c : Canon) : Bool := c.state != .placed || (canonPaths env c).all fun p => p.lines != []

/-- A new plan: contexts, the contexts that keep their chambers, and those dead by it. -/
structure Replan where
  ctxs : Tab Ctx
  kept : List Nat
  dead : List (Nat × Nat)
  deriving DecidableEq, Repr

/-- Streams are placed among those that keep their chambers and the chambers still served from the old plan, which was built for `prev`
(R279 to R282). A stream that would keep chambers on no line of a path is placed anew. -/
def replan (prev env : PlanEnv) (sels : Tab (BitVec 256)) (t : Tab Ctx) (keeps : Nat → Bool) (old : List Canon) : Replan :=
  let served (c : Canon) : Canon := { c with served := servedBits env sels c.context c.contract }
  let alive := (canons t).filter fun c => c.state != .dead
  let kept := ((alive.filter fun c => keeps c.context).map (keepCanon env sels)).filter (hasLines env)
  let stays (c : Canon) : Bool := kept.any fun d => d.context == c.context
  let todo := (alive.filter fun c => !stays c).map served
  let barred := todo.filter fun c => (namedBy c.contract).any fun d => portMissing env d.1 d.2
  let todo := (todo.filter fun c => !barred.contains c).mergeSort (planBefore env)
  let r := placeAll env 0 (planFeet env kept ++ laggingFeet prev env old kept) todo
  let bad := r.2.map (fun x => x.1) ++ barred.map fun c => c.context
  let dead := ((canons t).filter fun c => c.state == .dead).map served
  let ctxs := (dead ++ kept ++ r.1 ++ barred.map fun c => unplace c .dead c.served).foldl putCanon t
  { ctxs := bad.foldl (fun t k => match tabFind t k with
      | some x => tabPut t k { x with cause := 5 }
      | none => t) ctxs,
    kept := kept.map fun c => c.context, dead := bad.map fun k => (k, 5) }

/-- Selections follow their vehicles (R270). -/
def moveSels (map : PosMap) (sels : Tab (BitVec 256)) : Tab (BitVec 256) :=
  sels.foldl (fun t e => match map e.1 with
    | some p => tabSet (BitVec.allOnes 256) t p e.2
    | none => t) []

/-- Bits of a mask moved to new context numbers, every other bit 0 (R216). -/
def moveBits (ren : Tab Nat) (m : BitVec 256) : BitVec 256 :=
  ren.foldl (fun x e => if m.getLsbD e.1 then x ||| BitVec.twoPow 256 e.2 else x) 0

/-- New numbers of a joining part's contexts: the lowest not in use, in ascending order of the old ones (R216). -/
def numberJoiners : Tab Ctx → List Nat → Tab Nat
  | keep, k :: t => match lowestFree keep with
    | some n => (k, n) :: numberJoiners (tabPut keep n { canon := freeCanon n, cause := 0, intake := 0, phase := 0 }) t
    | none => []
  | _, [] => []

/-- The selections of a merged consist (R216); `nk` is COUNT of the keeping part. -/
def mergeSels (nk count : Nat) (ren : Tab Nat) (keep join : Tab (BitVec 256)) : Tab (BitVec 256) :=
  let taken : BitVec 256 := ren.foldl (fun x e => x ||| BitVec.twoPow 256 e.2) 0
  (List.range count).foldl (fun t i =>
    let p := i + 1
    let m := if p ≤ nk then selectionOf keep p &&& ~~~taken else moveBits ren (selectionOf join p)
    tabSet (BitVec.allOnes 256) t p m) []

/-- A joining part's contexts under their new numbers. -/
def renumberCtxs (ren : Tab Nat) (t : Tab Ctx) : Tab Ctx :=
  ren.foldl (fun r e => match tabFind t e.1 with
    | some x => tabPut r e.2 { x with canon := { x.canon with context := e.2 } }
    | none => r) []

end Sys2Proof.Machine
end

