-- ==== Sys2Proof/Machine/Time.lean ====
section
/-! DEFINITION. The time unit: Echo, the servo, steps, calendar time, genlock outputs and the commands of
group 0x03 (R126 to R168). -/

namespace Sys2Proof.Machine

/-- The time unit changed by a function. -/
def updTime (f : TimeUnit → TimeUnit) (s : State) : State := { s with time := f s.time }

/-! ### Steps -/

/-- A calendar change held moves with a step of line time; at a leap its base falls by the leap (R152, R160). -/
def moveCal (ns : Nat) (leap : Bool) (m : CalApply) : CalApply :=
  { m with start := m.start + ns, baseOffset := if leap then m.baseOffset - ns else m.baseOffset }

/-- A slew in progress moves with a step of line time (R152). -/
def moveSlew (ns : Nat) (leap : Bool) (w : Slew) : Slew :=
  { w with startLt := w.startLt + ns, base := if leap then w.base - ns else w.base }

/-- A pending CAN_TX_AT target moves with a step (R152, R395). -/
def moveCan (ns : Nat) (leap : Bool) (c : CanCtl) : CanCtl :=
  { c with buffers := c.buffers.map fun b => if b.2.txTag.isSome then (b.1, { b.2 with target := b.2.target + ns }) else b,
           restart := c.restart || !leap }

/-- Capture stamps of slices not yet delivered move with a step (R152). -/
def moveVsu (amt ns : Nat) (v : Vsu) : Vsu :=
  { v with dues := v.dues.map (fun d => (d.1, d.2 + amt)), srcStamp := v.srcStamp.map (· + ns), held := v.held.map fun f => { f with stamp := f.stamp.map (· + ns) },
           passed := v.passed.map fun f => { f with stamp := f.stamp.map (· + ns) } }

/-- A GLK output that is on takes a new anchor at the next boundary (R165). -/
def reanchor (g : Glk) : Glk := if g.mode = 0 then g else { g with anchorDue := true }

/-- A GLK anchor moves with a leap; after any other step the output re-anchors. A pulse in progress keeps its width (R152, R165). -/
def moveGlk (amt cycles : Nat) (leap : Bool) (g : Glk) : Glk :=
  let g := { g with riseLt := g.riseLt + amt, frameLt := g.frameLt + amt }
  if leap then { g with anchor := g.anchor + cycles, frameCycle := g.frameCycle + cycles } else reanchor g

/-- What Echo holds of the present cycle moves with a step; the offsets kept fall by it, but at a leap, which the neighbours make
too (R137, R152). -/
def moveEcho (amt : Nat) (leap : Bool) (e : EchoPort) : EchoPort :=
  let d : Int := if leap then 0 else amt
  { e with
    t1 := e.t1.map (· + amt), sample := e.sample.map fun x => (x.1 - d, x.2),
    track := e.track.map fun x => (x.1 + amt, x.2 - d) }

/-- The capture stamp of a frame that waits at a car port moves with a step (R152). -/
def moveTx (ns : Nat) (x : TxFrame) : TxFrame := { x with slice := x.slice.map fun c => (c.1, c.2.map (· + ns)) }

/-- What a car port holds in line time moves with a step (R152). -/
def moveCar (amt ns : Nat) (c : CarPort) : CarPort :=
  { c with
    freeAt := c.freeAt + amt, gateNext := c.gateNext + amt, sending := c.sending.map (moveTx ns),
    queues := c.queues.map fun q => q.map (moveTx ns) }

/-- A forward step or a leap of line time: STEP_TOTAL, source 67, LINE_STEP, and what R152 moves (R128, R147, R151). -/
def stepForward (amt : Nat) (leap : Bool) (s : State) : State :=
  if amt = 0 then s
  else
    let ns := amt / unitsPerNs
    let lags := boundaryLags s
    let s := { s with
      clk := { s.clk with lt := s.clk.lt + amt }
      time := { s.time with
        stepTotal := s.time.stepTotal + amt, slew := s.time.slew.map (moveSlew ns leap),
        calOffset := if leap then s.time.calOffset - ns else s.time.calOffset,
        calPending := s.time.calPending.map (moveCal ns leap), sampleLt := s.time.sampleLt + amt,
        glk := s.time.glk.map (moveGlk amt (amt / s.time.l) leap) }
      echo := s.echo.map (moveEcho amt leap)
      survey := { s.survey with stepped := true, settleCycles := 0 }
      can := s.can.map (moveCan ns leap)
      vsu := s.vsu.map fun v => (v.1, moveVsu amt ns v.2)
      gallery := { s.gallery with
        queues := s.gallery.queues.map fun q => q.map fun f => { f with done := f.done + amt, stamp := f.stamp.map (· + ns) }
        flights := s.gallery.flights.map fun f => { f with sfd := f.sfd + amt } }
      bb := s.bb.map fun b => { b with freeAt := b.freeAt + amt }
      car := s.car.map (moveCar amt ns)
      cmdq := { s.cmdq with inflight := s.cmdq.inflight.map fun c => { c with atLt := c.atLt + amt } } }
    let s := updTime (fun t => { t with cycle := cycleNow s, boundaryDue := lags }) s
    logEvent 0x20 srcNode (le 8 ns) (assertEdge 67 s)

/-! ### Echo -/

/-- SYNC_STATE (R136). -/
def syncState (s : State) : BitVec 8 :=
  BitVec.ofNat 8 (packBits [numbered s, isReference s, s.time.locked || isReference s, s.time.holdover, s.time.silenced])

/-- The request of the present cycle is still to be sent: its instant, Survey chamber start plus 200 ns, has not passed (R132, R133). -/
def echoDue (s : State) (p : BPort) : Bool :=
  decide (phaseOf s s.clk.lt ≤ 200 * unitsPerNs) && ((echoAt s p).t1.all fun t => cycleOf s t != cycleNow s)

/-- ECHO_REQ_SEND (R132, R133, R136): each port that is up sends its request at Survey chamber start plus 200 ns, once in a cycle. -/
def execEchoReqSend (p : BPort) : State → Host.Outcome State Fault Refusal :=
  run fun s =>
    if running s && (bbAt s p).up && echoDue s p then
      let s := toPhase (200 * unitsPerNs) s
      let e := echoAt s p
      let id := e.probeId + 1
      let s := setEcho p (fun e => { e with probeId := id, t1 := some s.clk.lt, sample := none, sent := sat 64 (e.sent + 1) }) s
      emitMg p (.echoReq { probeId := id, port := p.code, sync := syncState s, position := s.survey.position }) s
    else s

/-- An Echo message from the other line holds the port; LINE_CROSS is written once (R31). -/
def crossHold (p : BPort) (s : State) : State :=
  if (neighAt s p).crossed then s
  else logEvent 0x30 (srcPort p.code) [] (dropMember p (setNeigh p (fun n => { n with crossed := true }) s))

/-- An Echo message arrives: the checks of R111 that apply to it (R31, R134), then what it asks for. -/
def echoIn (rx : MgRx) (act : State → State) (s : State) : State :=
  if !(bbTakes s rx.port && (bbAt s rx.port).up) then s
  else
    let s := toLt (rxEnd rx) s
    if rx.length < 64 ∨ 1528 < rx.length then countBb rx.port 0x28 s
    else match rx.fcs with
      | .marked => countBb rx.port 0x18 s
      | .bad => countBb rx.port 0x10 s
      | .good =>
        let s := countBb rx.port 0x00 s
        if rx.version ≠ 1 then countBb rx.port 0x30 s
        else if 127 ≤ rx.hops then countBb rx.port 0x48 s
        else act (if rx.line ≠ rx.port.line.code then crossHold rx.port s else s)

/-- When the answer to a request leaves (R132, R236): at `t3` but not while the wire is taken, and at most 2,000 ns after the request's
SFD; never before now. -/
def answerAt (s : State) (rx : MgRx) (t3 : Nat) : Nat :=
  max s.clk.lt (min (rx.sfd + 2000 * unitsPerNs) (max t3 (bbAt s rx.port).freeAt))

/-- ECHO_REQ_RX (R132, R135 to R137): the answer leaves within 2,000 ns, with T2 and T3 of the MDI. -/
def execEchoReqRx (rx : MgRx) (m : EchoReq) (t3 : Nat) : State → Host.Outcome State Fault Refusal :=
  run (echoIn rx fun s =>
    let t3 := answerAt s rx t3
    let s := toLt t3 (setEcho rx.port (fun e => { e with neighPos := m.position, neighSync := m.sync }) s)
    emitMg rx.port (.echoResp {
      probeId := m.probeId, port := rx.port.code, sync := syncState s, position := s.survey.position,
      uncert := uncertNs s, t2 := rx.sfd, t3 := t3, slew := s.clk.s }) s)

/-- The neighbour's interval in local terms (R137): (T3 − T2)(1 + F), rounded down. -/
def turnaroundOf (s : State) (m : EchoResp) : Int := ((m.t3 : Int) - m.t2) * ((10 : Int) ^ 12 + s.clk.f) / (10 : Int) ^ 12

/-- The delay of a sample (R137). -/
def delayOf (s : State) (m : EchoResp) (t1 t4 : Nat) : Int := (((t4 : Int) - t1) - turnaroundOf s m) / 2

/-- The offset of a sample (R137): the neighbour's line time minus the unit's own. -/
def offsetOf (m : EchoResp) (t1 t4 : Nat) : Int := (((m.t2 : Int) - t1) + ((m.t3 : Int) - t4)) / 2

/-- A sample is valid (R138). -/
def sampleValid (s : State) (e : EchoPort) (m : EchoResp) (t1 t4 : Nat) : Bool :=
  m.probeId == e.probeId && e.sample.isNone && cycleOf s t4 == cycleOf s t1 && decide (phaseOf s t4 ≤ 8000 * unitsPerNs)
    && decide (0 ≤ turnaroundOf s m) && decide (turnaroundOf s m ≤ 2000 * (unitsPerNs : Int))
    && decide (0 ≤ delayOf s m t1 t4) && decide (delayOf s m t1 t4 ≤ 500 * (unitsPerNs : Int))

/-- A valid sample is taken (R138 to R140, R167, R218). -/
def takeSample (p : BPort) (m : EchoResp) (t1 t4 : Nat) (s : State) : State :=
  setEcho p (fun e => { e with
    sample := some (offsetOf m t1 t4, m.slew), block := e.block ++ [(delayOf s m t1 t4).toNat], responses := sat 64 (e.responses + 1), dry := 0,
    track := ((t4, offsetOf m t1 t4) :: e.track).take 16 }) (setNeigh p (fun n => { n with lost := false }) s)

/-- A completed exchange forms a sample, valid or not, and ECHO_READ shows its offset and its T3 − T2 (R137, R167). -/
def noteExchange (p : BPort) (m : EchoResp) (t1 t4 : Nat) (s : State) : State :=
  if m.probeId = (echoAt s p).probeId ∧ (echoAt s p).sample = none then
    setEcho p (fun e => { e with offset := offsetOf m t1 t4, turnaround := (m.t3 - m.t2) / unitsPerNs }) s
  else s

/-- The largest offset among the valid samples of the cycle, in units of 2^-16 ns (R147). -/
def aheadBy (s : State) : Int := (s.echo.filterMap fun e => e.sample).foldl (fun a x => max a x.1) 0

/-- An unnumbered node steps forward by the largest offset of the cycle, if it is more than 40 ns (R147). -/
def coldStep (s : State) : State :=
  if !numbered s && decide (40 * (unitsPerNs : Int) < aheadBy s) then stepForward (aheadBy s).toNat false s else s

/-- Every port that is up and has sent its request has its sample of the cycle. -/
def samplesIn (s : State) : Bool :=
  BPort.all.all fun p => !(bbAt s p).up || (echoAt s p).t1.isNone || (echoAt s p).sample.isSome

/-- ECHO_RESP_RX (R137, R138, R147): a sample is formed. An unnumbered node steps once it has the samples of all its requests; where an
answer stays out, at the end of the cycle (log 64). -/
def execEchoRespRx (rx : MgRx) (m : EchoResp) : State → Host.Outcome State Fault Refusal :=
  run (echoIn rx fun s =>
    let s := setEcho rx.port (fun e => { e with neighPos := m.position, neighSync := m.sync }) s
    match (echoAt s rx.port).t1 with
    | none => s
    | some t1 =>
      let valid := sampleValid s (echoAt s rx.port) m t1 rx.sfd
      let s := noteExchange rx.port m t1 rx.sfd s
      if valid then
        let s := takeSample rx.port m t1 rx.sfd s
        if samplesIn s then coldStep s else s
      else s)

/-- The mean of a non-empty list, rounded down. -/
def mean (l : List Nat) : Nat := l.foldl (· + ·) 0 / l.length

/-- The samples of a block that R139 retains. -/
def retained (l : List Nat) : List Nat :=
  let n := l.length
  ((l.mergeSort (· ≤ ·)).drop (n / 4)).take (n - 2 * (n / 4))

/-- The record delay of the link at a port; a jumper has none (R194, R242). -/
def recordDelay (s : State) (p : BPort) : Option Nat :=
  match s.survey.record.bind fun r => entryAt r (linksPosition s p) with
  | some e => if s.survey.jumper = some p.side then none else some (match p.line with
      | .a => e.delayA
      | .b => e.delayB)
  | none => none

/-- DELAY_DRIFT (R242): live D more than 10 ns from the record delay, at most once per 10,000 ms per port. -/
def delayDrift (p : BPort) (s : State) : State :=
  let e := echoAt s p
  match recordDelay s p with
  | some r =>
    let diff := (e.d : Int) - r
    let due := match e.driftPs with
      | none => true
      | some t => decide (t + 10000 * 10 ^ 9 ≤ s.clk.ps)
    if (neighAt s p).member && e.dValid && decide (10 * unitsPerNs < diff.natAbs) && due then
      logEvent 0x24 (srcPort p.code) (le 4 (twos 32 diff)) (setEcho p (fun e => { e with driftPs := some s.clk.ps }) s)
    else s
  | none => s

/-- D of a port becomes valid or invalid: source 69, and a member link without a valid D is one no longer (R168, R198). -/
def delaySet (p : BPort) (valid : Bool) (s : State) : State :=
  if (echoAt s p).dValid = valid then s
  else
    let s := assertEdge 69 (setEcho p (fun e => { e with dValid := valid }) s)
    if valid then s else dropMember p s

/-- D of a port becomes valid or invalid, a change of the neighbour table (R182). -/
def delayChange (p : BPort) (valid : Bool) (s : State) : State :=
  if (echoAt s p).dValid = valid then s else neighbourChange (delaySet p valid s)

/-- The block of one port ends (R139). -/
def portBlockEnd (p : BPort) (s : State) : State :=
  if !(bbAt s p).up then s
  else
    let e := echoAt s p
    let n := e.block.length
    let s := setEcho p (fun e => { e with lastSamples := n, block := [] }) s
    if 8 ≤ n then
      let k := retained e.block
      let s := setEcho p (fun e => { e with
        d := mean k, spread := ((k.getLast?.getD 0) - k.headD 0) / 2, poorRun := 0 }) s
      delayDrift p (delayChange p true s)
    else
      let s := logEvent 0x22 (srcPort p.code) (byte1 n) (setEcho p (fun e => { e with poorRun := e.poorRun + 1 }) s)
      if 2 ≤ e.poorRun + 1 then delayChange p false s else s

/-- ECHO_BLOCK_END (R139, R182, R198, R242): every 16 cycles each port's D follows from its valid samples. -/
def execEchoBlockEnd : State → Host.Outcome State Fault Refusal :=
  run fun s => if running s then BPort.all.foldl (fun s p => portBlockEnd p s) s else s

/-! ### The servo -/

/-- A value held within a limit on either side. -/
def clamp (x lim : Int) : Int := max (-lim) (min lim x)

/-- Headward ports with a valid D and a valid sample of this cycle (R140). -/
def servoPorts (s : State) : List BPort :=
  match s.survey.headSide with
  | some h => h.ports.filter fun p => (echoAt s p).dValid && (echoAt s p).sample.isSome && bbOpen s p
  | none => []

/-- The mean of a list of integers, rounded down; 0 for none. -/
def meanInt (l : List Int) : Int := l.foldl (· + ·) 0 / (l.length : Int)

/-- The lock counts after a theta (R141). -/
def lockStep (theta : Int) (t : TimeUnit) : TimeUnit :=
  let a := theta.natAbs
  let i := if a ≤ 10 * unitsPerNs then t.lockIn + 1 else 0
  let o := if 20 * unitsPerNs < a then t.lockOut + 1 else 0
  { t with lockIn := i, lockOut := o, locked := if 2 ≤ o then false else t.locked || decide (16 ≤ i) }

/-- One cycle of the law with samples (R140, R141, R143): rates in units of 10^-12, theta in units of 2^-16 ns. U counts from the
latest of the samples used. -/
def servoRun (ports : List BPort) (s : State) : State :=
  let samples := ports.filterMap fun p => (echoAt s p).sample
  let theta := meanInt (samples.map fun x => x.1)
  let sIn := meanInt (samples.map fun x => x.2)
  let f := clamp (s.clk.f + theta * (10 : Int) ^ 12 / (256 * (s.time.l : Int))) (100 * 10 ^ 6)
  let sl := clamp (sIn + theta * (10 : Int) ^ 12 / (8 * (s.time.l : Int))) (25 * 10 ^ 6)
  let spread := (ports.map fun p => (echoAt s p).spread).foldl max 0
  let u := theta.natAbs + spread + 2 * unitsPerNs
  let at_ := (ports.filterMap fun p => (echoAt s p).track.head?.map fun x => x.1).foldl max 0
  let t := lockStep theta s.time
  { s with
    clk := { s.clk with f := f, s := sl }
    time := { t with
      theta := theta, holdover := false, uncert := some u, uLast := u, sampleLt := at_,
      lineA := ports.any fun p => p.line == .a, lineB := ports.any fun p => p.line == .b } }

/-- One cycle of holdover (R140, R143, R146): F kept, S 0, U grows by 10 ns per ms. -/
def servoHold (s : State) : State :=
  { s with
    clk := { s.clk with s := 0 }
    time := { s.time with
      holdover := true, locked := false, lockIn := 0, lockOut := 0, lineA := false, lineB := false,
      uncert := s.time.uncert.map fun _ => s.time.uLast + (s.clk.lt - s.time.sampleLt) / 100000 } }

/-- U against the Squeeze (R144): more than half silences, at most a quarter counts toward the exit. -/
def silenceCheck (s : State) : State :=
  let quarter := s.time.squeeze * unitsPerNs / 4
  let half := s.time.squeeze * unitsPerNs / 2
  match s.time.uncert with
  | none => timeSilence (updTime (fun t => { t with quiet := 0 }) s)
  | some u =>
    let s := updTime (fun t => { t with quiet := if u ≤ quarter then t.quiet + 1 else 0 }) s
    if half < u then timeSilence s else s

/-- SERVO_UPDATE (R140, R143, R144, R146): once per cycle after the Survey chamber on a numbered node. Position 1 holds U = 0. -/
def execServoUpdate : State → Host.Outcome State Fault Refusal :=
  run fun s =>
    if !(running s && numbered s) then s
    else
      let s := toPhase (8000 * unitsPerNs) s
      let ports := servoPorts s
      let s := { s with echo := s.echo.mapIdx fun i e => { e with used := !isReference s && ports.any fun p => p.idx == i } }
      if isReference s then
        silenceCheck { s with clk := { s.clk with s := 0 }, time := { s.time with uncert := some 0, holdover := false } }
      else silenceCheck (if ports.isEmpty then servoHold s else servoRun ports s)

/-- TIME_SILENCE_EXIT (R144, R581): after 16 cycles with U at most a quarter of the Squeeze, unless source 6 is asserted. -/
def execTimeSilenceExit : State → Host.Outcome State Fault Refusal :=
  run fun s =>
    if running s && s.time.silenced && decide (16 ≤ s.time.quiet) && !s.time.timeLock then
      updTime (fun t => { t with silenced := false }) s
    else s

/-- PLL_UNLOCK (R581): source 6 asserts and the node is time-silenced. -/
def execPllUnlock : State → Host.Outcome State Fault Refusal :=
  run fun s =>
    if running s then timeSilence (updTime (fun t => { t with pllLocked := false, timeLock := true, lockCycles := 0 }) s) else s

/-- PLL_LOCK_REGAINED (R581): source 6 de-asserts; the node is silenced no longer on that account. -/
def execPllLockRegained : State → Host.Outcome State Fault Refusal :=
  run fun s =>
    if running s then
      let half := s.time.squeeze * unitsPerNs / 2
      let beyond := match s.time.uncert with
        | some u => decide (half < u)
        | none => numbered s && !isReference s
      updTime (fun t => { t with pllLocked := true, timeLock := false, silenced := t.silenced && beyond }) s
    else s

/-! ### Calendar time -/

/-- A CAL_APPLY takes effect as from its START (R154, R157 to R159): source 68 and TIME_STEP. CAL_VALID is set with it, not when the
message is received, which R154 leaves open (DESIGN CHOICE, log 63). -/
def applyCal (m : CalApply) (s : State) : State :=
  let s := updTime (fun t =>
    if m.step then { t with calOffset := m.baseOffset + m.change, slew := none, calValid := true }
    else { t with
      calOffset := m.baseOffset, calValid := true,
      slew := if m.change = 0 then none else some { startLt := m.start, base := m.baseOffset, change := m.change } }) s
  logEvent 0x21 srcNode (le 8 (twos 64 m.change)) (assertEdge 68 s)

/-- CAL_APPLY_RX (R158): held until START, or applied at once with CAL_LATE after it. -/
def execCalApplyRx (rx : MgRx) (m : CalApply) : State → Host.Outcome State Fault Refusal :=
  run (mgIn rx (.calApply m) fun s =>
    if m.start < ltNs s then
      applyCal m (logEvent 0x25 srcNode (le 4 m.changeId ++ le 4 (sat 32 ((ltNs s - m.start) / 1000))) s)
    else updTime (fun t => { t with calPending := t.calPending ++ [m] }) s)

/-- The held CAL_APPLY with the earliest START. -/
def firstCal : List CalApply → Option CalApply
  | [] => none
  | m :: ms => match firstCal ms with
    | some x => if x.start < m.start then some x else some m
    | none => some m

/-- CAL_START (R157): START of the earliest held CAL_APPLY is reached and the change begins. -/
def execCalStart : State → Host.Outcome State Fault Refusal :=
  run fun s =>
    match firstCal s.time.calPending with
    | some m =>
      if running s then
        applyCal m (updTime (fun t => { t with calPending := t.calPending.erase m }) (toLt (m.start * unitsPerNs) s))
      else s
    | none => s

/-- CAL_SLEW_END (R157): the whole change has been applied; source 68. -/
def execCalSlewEnd : State → Host.Outcome State Fault Refusal :=
  run fun s =>
    match s.time.slew with
    | some w =>
      if running s then
        let s := toLt ((w.startLt + w.change.natAbs * 5000) * unitsPerNs) s
        assertEdge 68 (updTime (fun t => { t with calOffset := w.base + w.change, slew := none }) s)
      else s
    | none => s

/-- What a held change makes of CAL_OFFSET at a line time at or after its START (R157). -/
def calAfter (m : CalApply) (ns : Nat) : Int :=
  if m.step then m.baseOffset + m.change
  else
    let moved : Nat := min m.change.natAbs ((ns - m.start) / 5000)
    if m.change < 0 then m.baseOffset - moved else m.baseOffset + moved

/-- CAL_OFFSET that will be in force at a line time, with the changes held (R156, BASE_OFFSET). -/
def calOffsetAt (s : State) (ns : Nat) : Int :=
  match (s.time.calPending.filter fun m => decide (m.start ≤ ns)).getLast? with
  | some m => calAfter m ns
  | none => match s.time.slew with
    | some w =>
      let moved : Nat := min w.change.natAbs ((ns - w.startLt) / 5000)
      if w.change < 0 then w.base - moved else w.base + moved
    | none => s.time.calOffset

/-! ### Commands of group 0x03 -/

/-- TIME_GET (R85): line time in ns. -/
def execTimeGet (tag : BitVec 8) : State → Host.Outcome State Fault Refusal :=
  run (withCmd 0x0301 tag fun c s => checked c ([lenCheck c 0 false] ++ stateChecks c s none false) (finish c 0 (ltNs s)) s)

/-- CAL_GET (R85, R154): calendar time in ns. -/
def execCalGet (tag : BitVec 8) : State → Host.Outcome State Fault Refusal :=
  run (withCmd 0x0302 tag fun c s => checked c ([lenCheck c 0 false] ++ stateChecks c s none false) (finish c 0 (calNs s)) s)

/-- START of a TIME_SET: the first boundary at least 8 cycles after acceptance, in ns (R155). -/
def timeSetStart (c : Cmd) (s : State) : Nat :=
  let k := cycleOf s c.atLt
  let k := if boundary s k = c.atLt then k + 8 else k + 9
  (boundary s k + 65535) / 65536

/-- The CAL_APPLY that a TIME_SET floods (R155, R156). -/
def timeSetApply (c : Cmd) (s : State) : CalApply :=
  { start := timeSetStart c s, step := pB c 0 == 1, change := untwos 64 (pF c 8 8),
    baseOffset := calOffsetAt s (timeSetStart c s), changeId := (s.time.changeId + 1) % 2 ^ 32 }

/-- TIME_SET past its checks: the CAL_APPLY is flooded and held; the command completes when it has been sent (R155). -/
def timeSetGo (c : Cmd) (s : State) : State :=
  let m := timeSetApply c s
  let s := updTime (fun t => { t with changeId := m.changeId, calPending := t.calPending ++ [m] }) s
  let sends := BPort.all.any (mgReaches s)
  let s := floodMg (.calApply m) s
  if sends then setCmd c.tag (fun x => { x with phase := .committed, ref := m.changeId, ref2 := m.start }) s
  else finish c 0 m.start s

/-- TIME_SET (R155): accepted only at a numbered position 1. -/
def execTimeSet (tag : BitVec 8) : State → Host.Outcome State Fault Refusal :=
  run (withCmd 0x0303 tag fun c s =>
    checked c ([lenCheck c 16 false] ++ stateChecks c s none (s.survey.position != 1) ++ [badP (decide (1 < pB c 0)) c 0])
      (timeSetGo c) s)

/-- CYCLE_SET (R85, R131): at position 1 in COMMISSION or MAINTENANCE, for the next cut-over. -/
def execCycleSet (tag : BitVec 8) : State → Host.Outcome State Fault Refusal :=
  run (withCmd 0x0304 tag fun c s =>
    let l := pF c 0 8
    let squeeze := pF c 10 2
    checked c ([lenCheck c 12 false]
      ++ stateChecks c s none (s.survey.position != 1 || (s.test.lc != 2 && s.test.lc != 4))
      ++ [badP (decide (l < 0x186A00000) || decide (0xF42400000 < l)) c 0,
          badP (decide (pB c 8 < 1) || decide (128 < pB c 8)) c 8,
          badP (decide (squeeze < 40) || decide (400 < squeeze)) c 10])
      (fun s => finish c 0 0 (updTime (fun t => { t with pendingCycle := some (l, pB c 8, squeeze) }) s)) s)

/-- Line period × lines lies within 1 % of M cycles (R162). -/
def glkFits (period lines l : Nat) : Bool :=
  let m := glkM period lines l
  let a := period * lines * unitsPerNs
  decide (1 ≤ m) && decide (100 * (max a (m * l) - min a (m * l)) ≤ m * l)

/-- The parameter checks of GLK_CONFIG (R161, R162; log 16 for the field that the last reports). -/
def glkChecks (c : Cmd) (s : State) : List Fail :=
  let width := pF c 4 4
  let period := pF c 8 4
  let lines := pF c 12 4
  [badP (decide (pB c 0 < 0x40) || decide (0x4B < pB c 0)) c 0, badP (decide (2 < pB c 1)) c 1,
   badP (decide (width < 8) || decide (1000000 < width) || (pB c 1 == 2 && decide (period ≤ 3 * width))) c 4,
   badP (decide (period < 1000) || decide (10000000 < period)) c 8,
   badP (decide (lines < 1) || decide (8192 < lines)) c 12,
   badP (!glkFits period lines s.time.l) c 8]

/-- GLK_CONFIG's effect (R161, R162): off drives the pin low; else the output waits for its anchor. -/
def glkApply (c : Cmd) (s : State) : State :=
  setGlk (pB c 0 - 0x40) (fun g =>
    if pB c 1 = 0 then { g with mode := 0, level := false, driven := isActive s, anchorDue := false, anchor := 0 }
    else { g with
      mode := pB c 1, width := pF c 4 4, linePeriod := pF c 8 4, lines := pF c 12 4,
      m := glkM (pF c 8 4) (pF c 12 4) s.time.l, anchorDue := true, driven := isActive s }) s

/-- GLK_CONFIG names an output of the row's range that the part lacks (R8, R86). -/
def glkAbsent (c : Cmd) (s : State) : Bool := decide (0x40 + glkOuts s.part.code ≤ pB c 0) && decide (pB c 0 ≤ 0x4B)

/-- SERVO_STATUS's result (R85). -/
def servoResult (s : State) : Nat :=
  twos 32 (thetaNs s) + uncertNs s * 2 ^ 32 + flagAt (s.time.locked || isReference s) 48 + flagAt s.time.silenced 49

/-- SERVO_STATUS (R85). -/
def execServoStatus (tag : BitVec 8) : State → Host.Outcome State Fault Refusal :=
  run (withCmd 0x0307 tag fun c s => checked c ([lenCheck c 0 false] ++ stateChecks c s none false) (finish c 0 (servoResult s)) s)

/-- A signed value held within 32 bits. -/
def satInt32 (x : Int) : Int := max (-(2 ^ 31)) (min (2 ^ 31 - 1) x)

/-- One entry of ECHO_READ, 64 bytes (R167). -/
def echoEntry (s : State) (p : BPort) : List Byte :=
  let e := echoAt s p
  padTo 64 0 (byte1 p.code
    ++ byte1 (packBits [e.dValid, s.survey.headSide == some p.side && numbered s, e.used, decide (0 < e.poorRun)])
    ++ byte1 e.neighPos ++ byte1 e.neighSync.toNat ++ le 4 e.d ++ le 4 e.spread ++ byte1 e.lastSamples ++ zeros 3
    ++ le 4 (twos 32 (satInt32 e.offset)) ++ le 4 e.turnaround ++ le 8 e.sent ++ le 8 e.responses ++ le 8 e.lost)

/-- ECHO_READ (R167): an entry for each backbone port whose link is up, their number as the result. BUF_LEN is 256 in R85: a shorter
buffer is BAD_PARAM at offset 24, and of a longer one only 256 bytes are written (DESIGN CHOICE, log 63). -/
def execEchoRead (tag : BitVec 8) (wr : Bool) : State → Host.Outcome State Fault Refusal :=
  run (withCmd 0x0306 tag fun c s =>
    let ports := BPort.all.filter fun p => (bbAt s p).up
    checked c ([lenCheck c 0 true] ++ stateChecks c s none false ++ descChecks c 256)
      (finishOut c wr (padTo 256 0 (ports.flatMap (echoEntry s))) ports.length) s)

/-! ### Genlock pulses -/

/-- Line time of the frame pulse of a frame that starts in a cycle (R162). -/
def glkFrameAt (s : State) (g : Glk) : Nat := boundary s g.frameCycle + g.phi * unitsPerNs

/-- The leading edge of a frame pulse (R162, R163, R168): the pin rises, source 70 + n asserts, a new φ takes effect. -/
def glkFrameRise (n : Nat) (s : State) : State :=
  let g := glkAt s n
  let g := match g.phiNext with
    | some p => { g with phi := p, phiNext := none }
    | none => g
  let s := toLt (glkFrameAt s g) s
  assertEdge (70 + n) (setGlk n (fun _ => { g with
    level := true, line := 1, frameCycle := g.frameCycle + max 1 g.m, frameLt := s.clk.lt, riseLt := s.clk.lt, wide := g.mode == 2 }) s)

/-- The leading edge of a line pulse (R162): line j of the frame in progress, before the next frame start. -/
def glkLineRise (n : Nat) (s : State) : State :=
  let g := glkAt s n
  let at_ := g.frameLt + g.line * g.linePeriod * unitsPerNs
  if g.mode = 2 ∧ g.line < g.lines ∧ at_ < glkFrameAt s g then
    setGlk n (fun g => { g with level := true, line := g.line + 1, riseLt := at_, wide := false }) (toLt at_ s)
  else s

/-- Line time at which the pulse in progress ends: the width after its rise, for line 0 in mode 2 three of them (R161, R164). -/
def glkFallAt (g : Glk) : Nat := g.riseLt + (if g.wide then 3 else 1) * g.width * unitsPerNs

/-- The trailing edge (R161, R165, R423): a unit that has yielded drives no more after it. -/
def glkFall (n : Nat) (s : State) : State :=
  setGlk n (fun g => { g with level := false, driven := isActive s }) (toLt (glkFallAt (glkAt s n)) s)

/-- GLK_PULSE (R161, R162, R165, R423, R428): an edge of an output that is on and driven by this unit. A rise waits for the anchor; a
pulse in progress completes its width whatever has happened since. -/
def execGlkPulse (n : Fin 12) (leading frame : Bool) : State → Host.Outcome State Fault Refusal :=
  run fun s =>
    let g := glkAt s n
    if running s && g.mode != 0 && g.driven && decide (n.val < glkOuts s.part.code) then
      if leading then (if !isActive s || g.anchorDue then s else if frame then glkFrameRise n s else glkLineRise n s)
      else if g.level then glkFall n s else s
    else s

/-! ### Snapshots -/

/-- SNAP (R166, R568): line time, its fraction, calendar time and phase of one tick. -/
def snapTake (s : State) : State :=
  updTime (fun t => { t with
    snapValid := true, snapCalValid := t.calValid, snapCount := t.snapCount + 1, snapLt := s.clk.lt,
    snapCal := BitVec.ofNat 64 (calNs s), snapPhase := phaseOf s s.clk.lt / unitsPerNs }) s

end Sys2Proof.Machine
end

