-- ==== Sys2Proof/Machine/ReformOps.lean ====
section
/-! DEFINITION. What the commands of re-forming share: the messages a unit originates, the pending record, announcements,
breaks, and giving up a position (R200, R204, R205, R207 to R211, R215, R220 to R222, R227 to R232). -/

namespace Sys2Proof.Machine

/-- The re-forming state changed by a function. -/
def updReform (f : Reform → Reform) (s : State) : State := { s with reform := f s.reform }

/-- REFORM while no re-forming is under way (R226): ALIASING in the 64 cycles after a cut-over, else NONE. -/
def restPhase (s : State) : Nat := if 0 < s.survey.aliasLeft then 4 else 0

/-! ### Messages -/

/-- The ports of the coupler while a merge is in progress (R209). -/
def couplerPorts (s : State) : List BPort :=
  match s.reform.coupler with
  | some c => c.ports
  | none => []

/-- A message crosses the coupler link (R209). -/
def crosses (m : MgMsg) : Bool :=
  match m with
  | .jnReady _ => true
  | .jnAbandon _ => true
  | .jnCutover x => x.cause == 1
  | _ => false

/-- The ports by which a re-forming message may leave (R207, R209). -/
def jnPorts (s : State) (m : MgMsg) : List BPort :=
  BPort.all.filter (innerPort s) ++ if crosses m then (couplerPorts s).filter fun p => !innerPort s p else []

/-- The common fields of the next message that this unit originates (R209). -/
def nextHead (s : State) : JnHead :=
  { origin := s.survey.origin, serial := s.reform.serial + 1, epochOf := s.survey.epoch, posOf := s.survey.position }

/-- A message of this unit's own leaves by a list of ports (R207, R209). -/
def originate (ports : List BPort) (m : MgMsg) (s : State) : State :=
  jnMg ports m (updReform (fun r => { r with serial := r.serial + 1 }) s)

/-- A message of this unit's own goes through its part, and across the coupler where R209 says so. -/
def jnFlood (m : MgMsg) (s : State) : State := originate (jnPorts s m) m s

/-- The SUBJECT of an abandon, or another message, is relayed on the side away from its arrival (R172, R207). -/
def jnRelay (rx : MgRx) (m : MgMsg) (s : State) : State :=
  jnMg ((rx.port.side.other.ports).filter fun p => (jnPorts s m).contains p) m s

/-- A re-forming message arrives at a numbered unit: its first copy in a cycle is acted on (R172, R207). -/
def jnIn (rx : MgRx) (h : JnHead) (m : MgMsg) (act : State → State) : State → State :=
  mgIn rx m fun s =>
    let x : Relayed := { mtype := mgType m, origin := h.origin, round := h.serial }
    if numbered s && relayOnce x s then act (markRelayed x s) else s

/-! ### The ends of the consist -/

/-- The sides of this unit that are ends of its consist (R210). -/
def endSides (s : State) : List Side := [Side.front, Side.rear].filter fun sd => numbered s && !hasSide s sd

/-- A JN_END is stored as that of the end on its side (R210). -/
def storeEnd (sd : Side) (e : JnEnd) (s : State) : State :=
  updReform (fun r => if s.survey.headSide = some sd then { r with endHead := some e } else { r with endTail := some e }) s

/-- Both ends claim the active cab (R199). -/
def endsConflict (s : State) : Bool :=
  match s.reform.endHead, s.reform.endTail with
  | some a, some b => a.key.active && b.key.active && decide (2 ≤ consistCount s)
  | _, _ => false

/-- CAB_CONFLICT while the consist is numbered (R187, R199): once for each conflict. -/
def conflictCheck (s : State) : State :=
  let now := endsConflict s
  let s' := updSurvey (fun v => { v with conflict := now }) s
  if now && !s.survey.conflict then cabConflict (consistCount s) s' else s'

/-- One end's JN_END with a fresh nonce (R210). -/
def sendEnd (sd : Side) (s : State) : State :=
  let key := { ownKey s sd with nonce := (drawn s).setWidth 32 }
  let e : JnEnd := { head := nextHead s, key := key, last := decide (s.survey.position = consistCount s), count := consistCount s }
  storeEnd sd e (jnFlood (.jnEnd e) (draw s))

/-- An end unit originates its JN_END messages (R210). -/
def sendEnds (s : State) : State :=
  conflictCheck ((endSides s).foldl (fun s sd => sendEnd sd s) (updReform (fun r => { r with endPs := s.clk.ps }) s))

/-! ### The pending record -/

/-- The present positions of this part as a pending re-forming numbers them (R214, R228, R230). -/
def ownMap (s : State) (p : Pending) : PosMap := fun q =>
  let own := consistCount s
  let count := p.record.entries.length
  if q = 0 ∨ own < q then none
  else if p.cause = 2 then
    let first := (s.reform.cutover.map fun m => m.first).getD 1
    if first ≤ q ∧ q < first + count then some (q + 1 - first) else none
  else
    let turned := if p.reverse then own + 1 - q else q
    some (if p.keeping then turned else count - own + turned)

/-- The position that this unit takes (R223). -/
def newPosition (s : State) (p : Pending) : Nat := (ownMap s p s.survey.position).getD 0

/-- The headward side that this unit takes: reversal turns it (R33, R214, R230). -/
def newHead (s : State) (p : Pending) : Side :=
  let h := s.survey.headSide.getD .front
  if p.reverse then h.other else h

/-- The cycle settings of the plan that a re-forming brings: those announced, else those in force (R220). -/
def reformEnv (s : State) (p : Pending) : PlanEnv :=
  match s.reform.cutover with
  | some m => { record := p.record, l := m.cycle, hyper := m.hyper, squeeze := m.squeeze }
  | none => { record := p.record, l := s.time.l, hyper := s.time.hyper, squeeze := s.time.squeeze }

/-- The announced settings are those in force (R222). -/
def sameCycle (s : State) : Bool :=
  match s.reform.cutover with
  | some m => m.cycle == s.time.l && m.hyper == s.time.hyper && m.squeeze == s.time.squeeze
  | none => true

/-! ### The other part's contracts -/

/-- A stream of a keeping part that the merged record turns round goes across without its chambers, which it does not keep (R214, R222,
R262). -/
def crossCanon (p : Pending) (c : Canon) : Canon := if p.keeping ∧ p.reverse then { c with nSrc := 0 } else c

/-- The contract set that a coupler unit sends across, its positions those of the merged record (R216; log 26). -/
def crossSet (s : State) (p : Pending) : List PlContract :=
  let (t, sels) := planAtCut s
  let map := ownMap s p
  let items := t.map (fun e => PlItem.record (crossCanon p (moveCtx map e.2).1.canon)) ++ sels.filterMap fun e => (map e.1).map fun q => PlItem.selection q e.2
  let msg (i : Nat) (x : PlItem) : PlContract :=
    { epochOf := s.survey.epoch, item := x, lastSerial := s.planner.lastSerial, index := i, total := items.length }
  if items = [] then [msg 0 .nothing] else items.mapIdx msg

/-- A contract of the other part is taken once (R216; log 26). -/
def takeCross (m : PlContract) (s : State) : State :=
  if s.reform.contractsHeld || s.reform.other.contains m then s
  else
    let same := s.reform.other.filter fun x => x.total == m.total && x.lastSerial == m.lastSerial && x.epochOf == m.epochOf
    let held := same ++ [m]
    updReform (fun r => { r with other := held, contractsHeld := decide (m.total ≤ held.length) }) s

/-- A contract comes across the coupler link: the coupler unit takes it and floods it to all nodes of its own part (R216, R292; log 26). -/
def takeAcross (m : PlContract) (s : State) : State :=
  if s.reform.contractsHeld || s.reform.other.contains m then s else floodMg (.plContract m) (takeCross m s)

/-- Contexts of the other part's set. -/
def crossCtxs (l : List PlContract) : Tab Ctx :=
  l.foldl (fun t m => match m.item with
    | .record c => tabPut t c.context { canon := c, cause := 0, intake := 0, phase := 0 }
    | _ => t) []

/-- Selections of the other part's set. -/
def crossSels (l : List PlContract) : Tab (BitVec 256) :=
  l.foldl (fun t m => match m.item with
    | .selection p x => tabSet (BitVec.allOnes 256) t p x
    | _ => t) []

/-! ### The plan of a re-forming -/

/-- What a re-forming makes of the plan: contexts and selections from the cut-over, the contexts that keep their chambers, this
part's contexts under their new numbers, what the cut-over records, and contexts placed only after it (R216, R217, R225, R229). -/
structure Formed where
  ctxs : Tab Ctx
  sels : Tab (BitVec 256)
  kept : List Nat
  numbers : Tab Nat
  deaths : List (Nat × Nat)
  partials : List (Nat × Nat)
  later : Option (Tab Ctx)
  deriving DecidableEq, Repr

/-- The cycle settings in force with a new record: what the streams of this consist stand on until a cut-over (R279). -/
def presentEnv (s : State) (p : Pending) : PlanEnv := { record := p.record, l := s.time.l, hyper := s.time.hyper, squeeze := s.time.squeeze }

/-- Streams that are PLACED in a plan, at their new positions, where the new record names their ports (R279, R594). -/
def oldPlaced (cab : Nat) (t : Tab Ctx) : List Canon := ((canons t).filter fun c => c.state == .placed).map (oldCanon cab)

/-- The plan of a merge (R216, R217, R222): the keeping part's contexts, then the joining part's under new numbers. Every unit of both parts
takes the keeping part's old chambers at the announced cycle settings, the only ones that all of them know (R282; DESIGN CHOICE, log 68). -/
def formMerge (s : State) (p : Pending) : Formed :=
  let env := reformEnv s p
  let map := ownMap s p
  let own := (planAtCut s).1.map fun e => (e.1, (moveCtx map e.2).1)
  let ownSels := moveSels map (planAtCut s).2
  let other := crossCtxs s.reform.other
  let keep := if p.keeping then own else other
  let join := if p.keeping then other else own
  let turned := if p.keeping then p.reverse else (canons other).any fun c => c.state == .placed && c.nSrc == 0
  let ren := numberJoiners keep (join.map fun e => e.1)
  let joined := (renumberCtxs ren join).map fun e => (e.1, { e.2 with canon := if e.2.canon.state = .dead then e.2.canon else unplace e.2.canon .held e.2.canon.served })
  let t := joined.foldl (fun t e => tabPut t e.1 e.2) keep
  let count := p.record.entries.length
  let nk := if p.keeping then consistCount s else count - consistCount s
  let sels := mergeSels nk count ren (if p.keeping then ownSels else crossSels s.reform.other)
    (if p.keeping then crossSels s.reform.other else ownSels)
  let keeps (k : Nat) : Bool := !turned && sameCycle s && ctxIs (tabFind keep k) .placed
  let r := replan env env sels t keeps (oldPlaced (if turned then nk else 1) keep)
  { ctxs := r.ctxs, sels := sels, kept := r.kept,
    numbers := if p.keeping then keep.map fun e => (e.1, e.1) else ren,
    deaths := if p.keeping then [] else (join.filter fun e => (tabFind ren e.1).isNone).map fun e => (e.1, 4),
    partials := [], later := none }

/-- The plan of a lead change (R230): every stream is placed anew. -/
def formLead (s : State) (p : Pending) : Formed :=
  let map := ownMap s p
  let t := (planAtCut s).1.map fun e => (e.1, (moveCtx map e.2).1)
  let sels := moveSels map (planAtCut s).2
  let r := replan (presentEnv s p) (reformEnv s p) sels t (fun _ => false) (oldPlaced (consistCount s) t)
  { ctxs := r.ctxs, sels := sels, kept := [], numbers := t.map (fun e => (e.1, e.1)), deaths := [], partials := [], later := none }

/-- A path crosses from one unit of a pair to the other where both jumpers are down (R204, R225). -/
def crossesBreak (r : Record) : List (Nat × Nat) → Bool
  | a :: b :: t => (a.1 == b.1 && !jumperBit r .a a.1 && !jumperBit r .b a.1) || crossesBreak r (b :: t)
  | _ => false

/-- A stream of a split whose path crosses the break between a pair's jumpers is dead, with cause 3 (R225). -/
def breakDead (env : PlanEnv) (sels : Tab (BitVec 256)) (x : Ctx) : Ctx :=
  let served := servedBits env sels x.canon.context x.canon.contract
  let ps := pathsOf env x.canon.contract.srcPos (servedDests served x.canon.contract)
  if x.canon.state ≠ .dead ∧ ps.any (fun p => crossesBreak env.record p.stations) = true then
    { x with canon := unplace x.canon .dead served, cause := 3 }
  else x

/-- The plan of a split (R222, R225, R229): the streams kept, the rest held until they are placed after the cut-over. -/
def formSplit (s : State) (p : Pending) : Formed :=
  let env := reformEnv s p
  let map := ownMap s p
  let old := (planAtCut s).1
  let moved := old.map fun e => (e.1, moveCtx map e.2)
  let sels := moveSels map (planAtCut s).2
  let t : Tab Ctx := moved.map fun e => (e.1, breakDead env sels e.2.1)
  let keeps (k : Nat) : Bool := standsStill s.planner.ctxs old k && ctxIs (tabFind t k) .placed
    && ((tabFind old k).map fun x => keepsStretch map x.canon.contract) == some true
    && ((tabFind t k).map fun x => hasLines env (keepCanon env sels x.canon)) == some true
  let first := t.map fun e =>
    let served := servedBits env sels e.1 e.2.canon.contract
    match e.2.canon.state with
    | .dead => (e.1, { e.2 with canon := { e.2.canon with served := served } })
    | _ => if keeps e.1 then (e.1, { e.2 with canon := keepCanon env sels e.2.canon })
      else (e.1, { e.2 with canon := unplace e.2.canon .held served })
  let rest := t.any fun e => e.2.canon.state != .dead && !keeps e.1
  { ctxs := first, sels := sels, kept := (t.filter fun e => keeps e.1).map (fun e => e.1), numbers := t.map (fun e => (e.1, e.1)),
    deaths := [],
    partials := (moved.filter fun e => e.2.2.lost != 0).map (fun e => (e.1, e.2.2.lost)),
    later := if rest then some (replan env env sels t keeps []).ctxs else none }

/-- The plan of a pending re-forming. -/
def formed (s : State) (p : Pending) : Formed :=
  if p.cause = 1 then formMerge s p else if p.cause = 2 then formSplit s p else formLead s p

/-- The chamber tables of this unit after a re-forming (R217, R276). -/
def formedTables (s : State) (p : Pending) (t : Tab Ctx) : List (List Chamber) :=
  let head := newHead s p
  unitTables (reformEnv s p) p.record.epoch t (newPosition s p, ownUnit (jumperSide s) head) head

/-- At a split SHADOW is a copy of ACTIVE without the entries of streams that are not kept, with the new EPOCH (R258). -/
def splitTables (s : State) (p : Pending) (kept : List Nat) : List (List Chamber) :=
  s.gallery.banks.map fun b => (b.active.filter fun e => kept.contains e.context).map fun e => { e with epoch := p.record.epoch }

/-! ### Holding an announcement -/

/-- SHADOW may be written for the re-forming under way (R255, R267): RETIRING has been released, and no plan that swaps before the cut-over
waits. -/
def shadowFree (s : State) : Bool := !s.gallery.retiringHeld && !s.planner.staged.any (beforeCut s)

/-- SHADOW is that of a split (R258). -/
def splitShadow (p : Pending) (s : State) : State :=
  updReform (fun r => { r with shadowDone := true }) (writeShadow (splitTables s p (formed s p).kept) s)

/-- The re-forming under way is dropped (R231): REFORM_ABANDONED, pending record and SHADOW go. -/
def dropReform (subject : BitVec 32) (s : State) : State :=
  let mine := s.reform.shadowDone
  let s := updReform (fun r => { r with
    phase := restPhase s, coupler := none, sentOffer := none, gotOffer := none, tie := false, pending := none, other := [],
    contractsHeld := false, shadowDone := false, delta := none, ready := none, readySent := false, cutover := none }) s
  let s := updGallery (fun g => { g with
    quietFrom := none, shadowComplete := g.shadowComplete && !mine,
    banks := if mine then g.banks.map fun b => { b with shadow := [] } else g.banks }) s
  logEvent 0x3D srcNode (le 4 subject.toNat) s

/-- A split's announcement overrides a merge or lead change that is still to come (R231). -/
def holdSplit (old : Record) (m : JnCutover) (s : State) : State :=
  let s := match s.reform.pending with
    | some p => dropReform p.subject s
    | none => s
  let p : Pending := { record := splitRecord old m.first m.last, keeping := true, reverse := false,
                       units := 0, cause := 2, subject := m.head.origin, couplerPos := 0 }
  let s := updReform (fun r => { r with
    phase := 3, coupler := none, cutover := some m, pending := some { p with units := unitCount p.record }, shadowDone := false }) s
  if shadowFree s then splitShadow p s else s

/-- A lead change's announcement makes the reversed record pending (R230). -/
def holdLead (old : Record) (m : JnCutover) (s : State) : State :=
  let p : Pending := { record := reversedRecord old, keeping := true, reverse := true, units := unitCount old, cause := 3,
                       subject := m.head.origin, couplerPos := 0 }
  updReform (fun r => { r with phase := 3, cutover := some m, pending := some p, shadowDone := false }) s

/-- A merge's announcement (R220, R221): other cycle settings than those planned for, or a change that it discards, need a new plan. -/
def holdMerge (m : JnCutover) (s : State) : State :=
  let base := planAtCut s
  let s := updReform (fun r => { r with phase := 3, cutover := some m }) s
  let s := if sameCycle s && planAtCut s == base then s else updReform (fun r => { r with shadowDone := false }) s
  if isJoining s then updGallery (fun g => { g with quietFrom := some (ownCut s m - 3 * s.time.l) }) s else s

/-- A JN_CUTOVER is held (R220, R228, R230, R231): one that does not concern the unit, or comes during another, is not. -/
def holdCutover (m : JnCutover) (s : State) : State :=
  match s.survey.record with
  | none => s
  | some old =>
    let held := (s.reform.cutover.map fun x => x.cause).getD 0
    if m.cause = 2 then
      if held = 2 ∨ s.survey.position < m.first ∨ m.last < s.survey.position then s else holdSplit old m s
    else if held ≠ 0 then s
    else if m.cause = 1 then holdMerge m s
    else if m.cause = 3 ∧ s.reform.pending.isNone then holdLead old m s
    else s

/-! ### Announcing -/

/-- An announcement of this unit without a leap, with the cycle settings in force or those of a pending CYCLE_SET, which a split
leaves waiting (R220, R228, R230). -/
def announcement (s : State) (cause cut first last : Nat) (r : Record) : JnCutover :=
  let now := (s.time.l, s.time.hyper, s.time.squeeze)
  let c := if cause = 2 then now else s.time.pendingCycle.getD now
  { head := nextHead s, cause := cause, epoch := r.epoch, hyper := c.2.1, first := first, last := last,
    squeeze := c.2.2, cutover := swapNs s cut, cycle := c.1, leap := 0, crc := r.crc, calOffset := 0, calSlew := 0 }

/-- A split is announced for positions FIRST to LAST (R228). -/
def announceSplit (first last : Nat) (s : State) : State :=
  match s.survey.record with
  | some old =>
    if (s.reform.cutover.map fun x => x.cause) = some 2 then s
    else
      let m := announcement s 2 (clearOfSwaps s (sendCycle s + max 4 (crossing (unitCount old) + 1))) first last (splitRecord old first last)
      holdCutover m (jnFlood (.jnCutover m) s)
  | none => s

/-- No re-forming is under way here (R231). -/
def idleReform (s : State) : Bool := s.reform.pending.isNone && s.reform.cutover.isNone

/-- Position 1 announces a lead change when the last position alone has an active cab (R204, R230). -/
def leadCheck (s : State) : State :=
  let asked := (s.reform.endTail.map fun e => e.key.active) == some true
  match s.survey.record with
  | some old =>
    if isReference s && isActive s && asked && !cabActiveIn s && decide (2 ≤ consistCount s) && idleReform s then
      let m := announcement s 3 (clearOfSwaps s (sendCycle s + crossing (unitCount old) + 1 + cyclesOf s 8000000)) 1 (consistCount s) (reversedRecord old)
      holdCutover m (jnFlood (.jnCutover m) s)
    else s
  | none => s

/-! ### Breaks -/

/-- A link is lost for re-forming (R205). -/
def lostPort (s : State) (p : BPort) : Bool := !(bbAt s p).up || (neighAt s p).lost

/-- Both lines are lost on a side that leads to another unit of the consist (R204). -/
def brokenSide (s : State) (sd : Side) : Bool := hasSide s sd && sd.ports.all (lostPort s)

/-- A unit that detects a break cancels a merge or lead change (R231). -/
def abandonForBreak (s : State) : State :=
  match s.reform.pending with
  | some p =>
    if p.cause = 2 then s
    else dropReform p.subject (jnFlood (.jnAbandon { head := nextHead s, subject := p.subject }) s)
  | none => s

/-- The unit on one side of a break (R227, R228): headward of it the notice goes to position 1, tailward the unit announces. -/
def noticeBreak (sd : Side) (s : State) : State :=
  let pos := s.survey.position
  let head := s.survey.headSide
  if head = some sd then
    announceSplit pos (if brokenSide s sd.other then pos else consistCount s) s
  else if isReference s && (isActive s || !hasSide s (head.getD .front)) then announceSplit 1 pos s
  else
    let next := if s.survey.jumper = some sd then pos else pos + 1
    let ports := ((head.getD .front).ports).filter (innerPort s)
    originate ports (.jnBreak { head := nextHead s, headPos := pos, tailPos := next }) s

/-- The coupler of a merge planned is lost before its cut-over: it is cancelled as by a break (R231, DEDUCED, log 35). -/
def couplerCheck (s : State) : State :=
  match s.reform.coupler, s.reform.pending with
  | some c, some p => if p.cause = 1 ∧ c.ports.all (lostPort s) then abandonForBreak s else s
  | _, _ => s

/-- A side all of whose links are lost holds no offer and no refusal of the neighbour that was there (R205, R213). -/
def forgetLost (s : State) : State :=
  let gone (sd : Side) : Bool := sd.ports.all (lostPort s)
  updReform (fun r => { r with
    refused := r.refused.filter fun x => !gone x.1, gotOffer := r.gotOffer.filter fun g => !gone g.1 }) s

/-- New breaks since the last cut-over are handled, the headward one first (R204, R227, R228, R231). -/
def breakCheck (s : State) : State :=
  let s := forgetLost s
  if !numbered s then s
  else
    let s := couplerCheck s
    let h := s.survey.headSide.getD .front
    let now := [h, h.other].filter fun sd => brokenSide s sd && !s.reform.broken.contains sd
    match now with
    | [] => s
    | sd :: _ =>
      let s := abandonForBreak (updReform (fun r => { r with broken := r.broken ++ now }) s)
      noticeBreak sd s

/-! ### Commands that a change of epoch ends -/

/-- CONSIST_WAIT completes once the epoch differs from the one given (R85, R223). -/
def consistWaits (s : State) : State :=
  let now := s.cmdq.inflight.filter fun c => c.opcode == 0x0202 && c.phase == .started && c.ref != s.survey.epoch
  now.foldl (fun s c => finish c 0 s.survey.epoch s) s

/-- Requests without an answer when the epoch changes (R81, R264): a command with an epoch of its own ends, another asks again;
one that cannot ask again is refused. -/
def lapseRequests (s : State) : State :=
  let waiting := s.planner.waiting
  let s := updPlanner (fun p => { p with waiting := [], requests := [] }) s
  waiting.foldl (fun s r => match r.tag with
    | none => s
    | some t =>
      if epochMoved s (some t) then finishTag t 0x50 s.survey.epoch s
      else if numbered s then sendRequest (some t) r.msg.op 0xFF s
      else finishTag t 0x20 (refusedResult s) s) s

/-- The unit gives up its position, its plan and its chambers and adopts a round (R200): line time, F and last epoch stay. It runs no
servo (R147) and keeps cycles of its image's length with B = 0 (R130, R133), so its GLK outputs take new anchors (log 62). -/
def giveUp (round : BitVec 16) (s : State) : State :=
  let s := takeCycle s.store.imageCycle.1 s.store.imageCycle.2.1 s.store.imageCycle.2.2 0 s
  let s := { s with
    clk := { s.clk with s := 0 }
    echo := s.echo.map fun e => { e with used := false }
    survey := { s.survey with
      position := 0, epoch := 0xFF, record := none, prevRecord := none, headSide := none, jumper := none, aliasLeft := 0,
      aliasMap := [], innerCab := false, ports := s.survey.ports.map fun n => { n with member := false, regain := 0 } }
    reform := { serial := s.reform.serial }
    gallery := { ingress := s.gallery.ingress }
    planner := { reqId := s.planner.reqId, waiting := s.planner.waiting }
    vsu := []
    time := { s.time with holdover := false, locked := false, glk := s.time.glk.map fun g => { reanchor g with bound := none, phiDue := false } }
    car := s.car.map fun c => { c with ttStreams := [] }
    twin := { s.twin with mirror := none } }
  enterRound round (consistWaits (lapseRequests s))

end Sys2Proof.Machine
end

