-- ==== Sys2Proof/Machine/CmdDrop.lean ====
section
/-! DEFINITION. Stopping a command before its commit point (R87 to R89, R423): what a unit still holds for it goes. -/

namespace Sys2Proof.Machine

/-- The opcodes of groups 0x02 and 0x04 to 0x07 that change state (R85, R91, R423). -/
def changing : List Nat :=
  [0x0203, 0x0401, 0x0402, 0x0404, 0x0406, 0x0407, 0x0410, 0x0501, 0x0503, 0x0504, 0x0505, 0x0506, 0x0508, 0x0601,
   0x0701, 0x0702, 0x0703, 0x0704, 0x0705, 0x0706, 0x0707]

/-- A request names a command. -/
def asks (tag : BitVec 8) (r : Request) : Bool := r.tag == some tag

/-- A queued frame carries a request of the command to position 1 (R264). -/
def carriesRequest (tag : BitVec 8) (s : State) (f : MgFrame) : Bool :=
  s.planner.waiting.any fun r => asks tag r && f.msg == .plRequest r.msg

/-- What the units of groups 0x04 to 0x07 hold for a command that has not committed goes: no gate list, segment or controller
configuration, matrix, pending buffer, planner request, setting on its way or ring waits for it, and a request that has not left yet does
not leave. A change that position 1 has ordered already stands (R82, R292; log 69). -/
def dropUnits (tag : BitVec 8) (s : State) : State :=
  let mine (t : Option (BitVec 8)) : Bool := t == some tag
  { s with
    car := s.car.map fun p => { p with gateDue := p.gateDue.filter fun d => !mine d.1 }
    md := s.md.map fun m => { m with due := m.due.filter fun d => !mine d.1 }
    can := s.can.map fun c => { c with
      due := c.due.filter fun d => !mine d.1
      matrixDue := c.matrixDue.filter fun d => !mine d.1
      buffers := c.buffers.map fun b => if mine b.2.txTag then (b.1, notPending b.2) else b }
    bb := s.bb.map fun b => { b with mg := b.mg.filter fun f => !carriesRequest tag s f }
    planner := { s.planner with
      waiting := s.planner.waiting.filter fun r => !asks tag r
      requests := s.planner.requests.filter fun r => !asks tag r }
    twin := { s.twin with awaiting := s.twin.awaiting.filter fun a => !mine a.1 }
    rings := { s.rings with
      rx := s.rings.rx.map fun r => if mine r.2.unbinding then (r.1, { r.2 with unbinding := none }) else r
      tx := s.rings.tx.map fun r => if mine r.2.unbinding then (r.1, { r.2 with unbinding := none }) else r } }

/-- The command is before its commit point (R81). -/
def beforeCommit (c : Cmd) : Bool := c.phase == .fetched || c.phase == .started

end Sys2Proof.Machine
end

