-- ==== Sys2Proof/Machine/Interrupts.lean ====
section
/-! DEFINITION. The event router's registers: routing and ownership, claiming and completing, message-signalled delivery,
and the node-fault sources that only it reports (R436 to R452, R552). -/

namespace Sys2Proof.Machine

/-- The router changed by a function. -/
def updRouter (f : Router → Router) (s : State) : State := { s with router := f s.router }

/-- The window takes the writes of a host (R25, R561, R562): SERVICE is 1. -/
def takesWrites (s : State) : Bool := s.store.service

/-! ### Ownership -/

/-- The host that owns a target; none for the management cores (R439). -/
def targetHost (t : Nat) : Option HostId := if t < 4 then none else if t < 14 then some .pcie else some .spi

/-- The routing of a source (R439). -/
def srcCfg (s : State) (id : Nat) : SrcCfg := tabGet {} s.router.cfg id

/-- The source is unrouted (R439). -/
def unrouted (s : State) (id : Nat) : Bool := (srcCfg s id).prio == 0

/-- A host's writes act on the pending and mask bits of a source: it is present, and unrouted or the host's own (R12, R440). -/
def bitsOf (h : HostId) (s : State) (id : Nat) : Bool :=
  decide (1 ≤ id) && decide (id ≤ 640) && !absentId s.part id && (unrouted s id || targetHost (srcCfg s id).target == some h)

/-- The sources 32n to 32n + 31 whose bit a written word sets and that the host may change (R440). -/
def wordIds (h : HostId) (n : Nat) (val : Word) (s : State) : List Nat :=
  ((List.range 32).filter fun b => val.getLsbD b && bitsOf h s (32 * n + b)).map fun b => 32 * n + b

/-- Bits set in a 641-bit word. -/
def setBits (ids : List Nat) (x : BitVec 641) : BitVec 641 := ids.foldl (fun x i => x ||| BitVec.twoPow 641 i) x

/-- Bits cleared in a 641-bit word. -/
def clrBits (ids : List Nat) (x : BitVec 641) : BitVec 641 := ids.foldl (fun x i => x &&& ~~~(BitVec.twoPow 641 i)) x

/-- A write at INT_PEND_SET (R438, R440): pending is set on edge sources. -/
def pendSet (h : HostId) (n : Nat) (val : Word) (s : State) : State :=
  updRouter (fun r => { r with pend := setBits ((wordIds h n val s).filter (isEdge s.part)) r.pend }) s

/-- A write at INT_PEND_CLR (R438, R440): pending is cleared on edge sources. -/
def pendClr (h : HostId) (n : Nat) (val : Word) (s : State) : State :=
  updRouter (fun r => { r with pend := clrBits ((wordIds h n val s).filter (isEdge s.part)) r.pend }) s

/-- A write at INT_MASK_SET (R438, R440). -/
def maskSet (h : HostId) (n : Nat) (val : Word) (s : State) : State :=
  updRouter (fun r => { r with mask := setBits (wordIds h n val s) r.mask }) s

/-- A write at INT_MASK_CLR (R438, R440). -/
def maskClr (h : HostId) (n : Nat) (val : Word) (s : State) : State :=
  updRouter (fun r => { r with mask := clrBits (wordIds h n val s) r.mask }) s

/-- A host's write to SRC_CFG (R440, R442, R451): accepted for a source that is unrouted, the firmware's or the host's own,
toward a target of the host or priority 0. -/
def srcCfgWrite (h : HostId) (id : Nat) (val : Word) (s : State) : State :=
  let prio := bits val.toNat 3 0
  let target := bits val.toNat 11 8
  let owner := targetHost (srcCfg s id).target
  if 1 ≤ id ∧ id ≤ 640 ∧ (unrouted s id = true ∨ owner = none ∨ owner = some h) ∧ (prio = 0 ∨ targetHost target = some h) then
    updRouter (fun r => { r with cfg := tabSet {} r.cfg id (if prio = 0 then {} else { prio := prio, target := target }) }) s
  else s

/-- A host's write to THRESHOLD (R440, R451). -/
def thresholdWrite (h : HostId) (t : Nat) (val : Word) (s : State) : State :=
  if targetHost t = some h then setTarget t (fun x => { x with threshold := bits val.toNat 3 0 }) s else s

/-! ### Claiming and completing -/

/-- A host's read of CLAIM (R440, R444, R445): the winner enters service; 0 from another's target, without a candidate, or
inside a wider access. What follows counts as a rise where the request stays true (R446). -/
def claimRead (h : HostId) (t : Nat) (wide : Bool) (s : State) : State × Word :=
  let w := winner s t
  if wide ∨ targetHost t ≠ some h ∨ w.1 = 0 then (s, 0)
  else
    let s := setTarget t (fun x => { x with stack := (w.1, w.2) :: x.stack, request := false }) s
    (updRouter (fun r => { r with
      service := r.service ||| BitVec.twoPow 641 w.1,
      pend := if isEdge s.part w.1 then r.pend &&& ~~~(BitVec.twoPow 641 w.1) else r.pend }) s, w32 w.1)

/-- A refused COMPLETE (R444): INT_ORDER_FAULT, counted, and recorded where no fault is. -/
def orderFault (t expected given : Nat) (s : State) : State :=
  assertEdge 1 (updRouter (fun r =>
    let r := { r with faultCount := sat 32 (r.faultCount + 1) }
    if r.faultValid then { r with faultOverrun := true }
    else { r with faultValid := true, faultTarget := t, faultExpected := expected, faultGiven := given }) s)

/-- A host's write to COMPLETE (R437, R440, R444 to R446). -/
def completeWrite (h : HostId) (t : Nat) (val : Word) (s : State) : State :=
  if targetHost t ≠ some h then s
  else
    let id := bits val.toNat 9 0
    let s := setTarget t (fun x => { x with request := false }) s
    match (targetAt s t).stack with
    | (top, _) :: rest =>
      if top = id then
        updRouter (fun r => { r with service := r.service &&& ~~~(BitVec.twoPow 641 id) }) (setTarget t (fun x => { x with stack := rest }) s)
      else orderFault t top id s
    | [] => orderFault t 0 id s

/-- A write to INT_FAULT_ACK (R451). -/
def faultAck (val : Word) (s : State) : State :=
  if val.getLsbD 0 then updRouter (fun r => { r with faultValid := false, faultOverrun := false }) s else s

/-! ### MSI-X -/

/-- The vectors whose held message goes or lapses now that nothing holds it back (R447). -/
def freedVectors (s : State) : List Nat := (List.range 10).filter fun v => s.router.pba.getLsbD v && !msixHeld s.router v

/-- The last condition that held messages back may have ended (R447): one message each where the request is still true. -/
def releaseMsix (s : State) : State :=
  let free := freedVectors s
  let out := (free.filter fun v => request s (v + 4)).map Out.msix
  let s := updRouter (fun r => { r with pba := free.foldl (fun p v => p &&& ~~~(BitVec.twoPow 10 v)) r.pba }) s
  { s with out := s.out ++ out }

/-- One vector of the table changed (R552). -/
def setMsix (v : Nat) (f : Msix → Msix) (s : State) : State := updRouter (fun r => { r with msix := r.msix.modify v f }) s

/-- A hold of R447 ends. -/
def endHold : MsixHold → State → State
  | .vector v, s => if takesWrites s then releaseMsix (setMsix v (fun m => { m with masked := false }) s) else s
  | .function, s => releaseMsix (updRouter (fun r => { r with functionMask := false }) s)
  | .powerState, s => releaseMsix (updRouter (fun r => { r with d0 := true }) s)
  | .busMaster, s => releaseMsix (updRouter (fun r => { r with busMaster := true }) s)

/-- A word of the MSI-X table written by the PCIe host (R552): address, data, and the mask bit of vector control. -/
def msixWrite (h : HostId) (off : Nat) (val : Word) (s : State) : State :=
  let v := (off - 0x14000) / 16
  if h = .spi then s
  else match (off - 0x14000) % 16 / 4 with
    | 0 => setMsix v (fun m => { m with addr := BitVec.ofNat 64 (m.addr.toNat / 2 ^ 32 * 2 ^ 32 + val.toNat / 4 * 4) }) s
    | 1 => setMsix v (fun m => { m with addr := BitVec.ofNat 64 (val.toNat * 2 ^ 32 + m.addr.toNat % 2 ^ 32) }) s
    | 2 => setMsix v (fun m => { m with data := val }) s
    | _ => releaseMsix (setMsix v (fun m => { m with masked := val.getLsbD 0 }) s)

/-! ### The commands of the window -/

/-- What a read that covers CLAIM returns: the ID claimed, or in a 64-bit access the target's THRESHOLD below a 0 (R25, R445, R451). -/
def claimData (s : State) (t : Nat) (wide : Bool) (id : Word) : List Word :=
  if wide then [w32 (targetAt s t).threshold, 0] else [id]

/-- CLAIM (R444, R445): the ID read, and the state after. -/
def execClaim (host : HostId) (t : Fin 16) (wide : Bool) : State → Host.Outcome State Fault Refusal :=
  run fun s =>
    let r := claimRead host t wide s
    emit (.readData (claimData s t wide r.2)) r.1

/-- COMPLETE (R444). -/
def execComplete (host : HostId) (t : Fin 16) (val : Word) : State → Host.Outcome State Fault Refusal :=
  run fun s => if takesWrites s then completeWrite host t val s else s

/-- INT_PEND_SET (R438). -/
def execIntPendSet (host : HostId) (n : Fin 21) (val : Word) : State → Host.Outcome State Fault Refusal :=
  run fun s => if takesWrites s then pendSet host n val s else s

/-- INT_PEND_CLR (R438). -/
def execIntPendClr (host : HostId) (n : Fin 21) (val : Word) : State → Host.Outcome State Fault Refusal :=
  run fun s => if takesWrites s then pendClr host n val s else s

/-- INT_MASK_SET (R438). -/
def execIntMaskSet (host : HostId) (n : Fin 21) (val : Word) : State → Host.Outcome State Fault Refusal :=
  run fun s => if takesWrites s then maskSet host n val s else s

/-- INT_MASK_CLR (R438). -/
def execIntMaskClr (host : HostId) (n : Fin 21) (val : Word) : State → Host.Outcome State Fault Refusal :=
  run fun s => if takesWrites s then maskClr host n val s else s

/-- SRC_CFG_WRITE (R439, R440). -/
def execSrcCfgWrite (host : HostId) (src : Nat) (val : Word) : State → Host.Outcome State Fault Refusal :=
  run fun s => if takesWrites s then srcCfgWrite host src val s else s

/-- THRESHOLD_WRITE (R440, R443). -/
def execThresholdWrite (host : HostId) (t : Fin 16) (val : Word) : State → Host.Outcome State Fault Refusal :=
  run fun s => if takesWrites s then thresholdWrite host t val s else s

/-- INT_FAULT_ACK (R451). -/
def execIntFaultAck (_ : HostId) (val : Word) : State → Host.Outcome State Fault Refusal :=
  run fun s => if takesWrites s then faultAck val s else s

/-- MSIX_VECTOR_UNMASK (R447): the host ends a condition that holds messages back. -/
def execMsixVectorUnmask (hold : MsixHold) : State → Host.Outcome State Fault Refusal := run (endHold hold)

/-! ### Node faults -/

/-- MEM_ECC_ERROR (R436): source 7. -/
def execMemEccError : State → Host.Outcome State Fault Refusal := run fun s => if running s then assertEdge 7 s else s

/-- TEMP_THRESHOLD (R436): a junction sensor crosses 115 °C; source 8 follows both. -/
def execTempThreshold (sensor : Fin 2) (above : Bool) : State → Host.Outcome State Fault Refusal :=
  run (updRouter fun r => { r with tempHigh :=
    if above then r.tempHigh ||| BitVec.twoPow 2 sensor else r.tempHigh &&& ~~~(BitVec.twoPow 2 sensor) })

end Sys2Proof.Machine
end

