-- ==== Sys2Proof/Machine/SleepOps.lean ====
section
/-! DEFINITION. Network sleep: proposals, votes, instants, vetoes and cancellations (R512 to R519). -/

namespace Sys2Proof.Machine

/-- The proposal is no more: source 611. -/
def endSleep (s : State) : State :=
  assertEdge 611 (updPower (fun p => { p with
    sleepPhase := 0, proposeDue := false, voteDue := false, instantDue := false, vetoDue := false, voted := none, votes := [],
    cancelled := if p.sleepPhase = 2 then some p.instant else p.cancelled }) s)

/-- The NET_SLEEP of this unit completes (R519). -/
def endNetSleep (status result : Nat) (s : State) : State :=
  match s.power.sleepTag with
  | some t => finishTag t status result (updPower (fun p => { p with sleepTag := none }) s)
  | none => s

/-- SLEEP_CANCELLED (R526). -/
def cancelRecord (cause : Nat) (s : State) : State := logEvent 0xE2 srcNode (le 2 s.power.sleepId.toNat ++ byte1 cause) s

/-- Position 1 floods SL_CANCEL and drops its proposal (R515, R519). -/
def cancelSleep (cause : Nat) (s : State) : State :=
  if s.power.sleepPhase = 0 ∧ s.power.proposeDue = false then s
  else endSleep (cancelRecord cause (floodMg (.slCancel s.power.sleepId cause) s))

/-- A cut-over that falls before INSTANT cancels the proposal at a unit (R519); position 1 completes its NET_SLEEP. -/
def sleepCutover (s : State) : State :=
  if s.power.sleepPhase = 0 ∧ s.power.proposeDue = false then s
  else match s.power.sleepTag with
    | some t =>
      let moved := epochMoved s (some t)
      let s := cancelSleep 3 s
      if moved then endNetSleep 0x50 s.survey.epoch s else endNetSleep 0x80 3 s
    | none => endSleep (cancelRecord 3 s)

/-! ### At the Survey chamber -/

/-- The votes with one unit's replaced (R514, R515). -/
def putVote (pos rank : Nat) (rdy : Bool) (s : State) : State :=
  updPower (fun p => { p with votes := (p.votes.filter fun v => !(v.1 == pos && v.2.1 == rank)) ++ [(pos, rank, rdy)] }) s

/-- The unit votes (R514). -/
def castVote (s : State) : State :=
  let rdy := ready s
  let s := updPower (fun p => { p with voted := some rdy }) s
  if isReference s && isActive s then putVote s.survey.position 0 rdy s
  else sendMgTo 1 (.slVote
    { sleepId := s.power.sleepId, position := s.survey.position, rank := ownRank s, ready := rdy, reasons := readiness s }) s

/-- Every unit of the record has voted READY (R515): a twinned position counts as two. -/
def allReady (s : State) : Bool :=
  match s.survey.record with
  | some r => r.entries.all fun e => (unitsOf r e.position).all fun u => s.power.votes.any fun v => v.1 == e.position && v.2.1 == u && v.2.2
  | none => false

/-- The NET_SLEEP in flight at this unit. -/
def netSleep (s : State) : Option Cmd := s.power.sleepTag.bind (cmdOf s)

/-- The TIMEOUT of NET_SLEEP in ms (R82, R515). -/
def sleepTimeout (c : Cmd) : Nat := if c.timeout = 0 then 100 else c.timeout

/-- The INSTANT that position 1 would announce in this Survey chamber, line time in ns (R515). -/
def instantOf (s : State) : Nat :=
  let units := (s.survey.record.map unitCount).getD 1
  (boundary s (cycleNow s + max 8 (crossing units + 1)) + 65535) / 65536

/-- Position 1 announces the instant, or cancels where it lies too late (R515). -/
def announceSleep (c : Cmd) (s : State) : State :=
  let at_ := instantOf s
  if at_ * unitsPerNs < c.atLt + sleepTimeout c * 1000000 * unitsPerNs then
    assertEdge 610 (updPower (fun p => { p with sleepPhase := 2, instant := at_ })
      (floodMg (.slInstant { sleepId := s.power.sleepId, epoch := s.survey.epoch, instant := at_ }) s))
  else endNetSleep 0x70 (waitedMs c s) (cancelSleep 1 s)

/-- The cycle that begins at INSTANT. -/
def instantCycle (s : State) : Nat := cycleAt s s.power.instant

/-- A unit that is no longer ready vetoes an announced sleep (R516). -/
def sendVeto (s : State) : State :=
  let pos := s.survey.position
  let s := floodMg (.slVeto { sleepId := s.power.sleepId, position := pos, rank := ownRank s, reasons := readiness s }) s
  let s := logEvent 0xE1 (srcPos pos) (le 2 s.power.sleepId.toNat ++ le 2 ((readiness s).toNat % 65536)) s
  endNetSleep 0x80 (3 + pos % 256 * 2 ^ 8) (endSleep s)

/-- The duties of network sleep in a Survey chamber (R514 to R516). -/
def sleepChamber (s : State) : State :=
  if !numbered s then s
  else if s.power.proposeDue then
    let s := floodMg (.slPropose s.power.sleepId s.survey.epoch) s
    let s := updPower (fun p => { p with proposeDue := false, sleepPhase := 1, votes := [], voted := none }) s
    castVote (assertEdge 609 (logEvent 0xE0 srcNode (le 2 s.power.sleepId.toNat) s))
  else if s.power.sleepPhase = 1 then
    let s := if s.power.voted = some (ready s) then s else castVote s
    match netSleep s with
    | some c => if allReady s then announceSleep c s else s
    | none => s
  else if s.power.sleepPhase = 2 && (s.power.vetoDue || !ready s) && decide (cycleNow s + 1 ≤ instantCycle s) then sendVeto s
  else s

/-- A reason arises that counts against an announced sleep (R516): it is vetoed even where the reason goes again. -/
def readyTrack (s : State) : State :=
  if s.power.sleepPhase = 2 ∧ ready s = false then updPower (fun p => { p with vetoDue := true }) s else s

/-! ### Messages -/

/-- SL_PROPOSE arrives (R514). -/
def execSlProposeRx (rx : MgRx) (sleepId : BitVec 16) (epoch : Nat) : State → Host.Outcome State Fault Refusal :=
  run (mgIn rx (.slPropose sleepId epoch) fun s =>
    if numbered s && epoch == s.survey.epoch && s.power.sleepTag.isNone then
      let s := updPower (fun p => { p with sleepPhase := 1, sleepId := sleepId, voted := none, vetoDue := false, vetoPos := 0 }) s
      assertEdge 609 (logEvent 0xE0 srcNode (le 2 sleepId.toNat) s)
    else s)

/-- SL_VOTE arrives at position 1 (R515). -/
def execSlVoteRx (rx : MgRx) (m : SlVote) : State → Host.Outcome State Fault Refusal :=
  run (mgIn rx (.slVote m) fun s =>
    if isReference s && isActive s && s.power.sleepTag.isSome && m.sleepId == s.power.sleepId then putVote m.position m.rank m.ready s else s)

/-- SL_INSTANT arrives (R515, R518): not for a proposal that the unit has dropped. -/
def execSlInstantRx (rx : MgRx) (m : SlInstant) : State → Host.Outcome State Fault Refusal :=
  run (mgIn rx (.slInstant m) fun s =>
    if !numbered s || m.epoch != s.survey.epoch || s.power.sleepTag.isSome then s
    else if s.power.sleepPhase = 0 ∧ m.sleepId = s.power.sleepId then s
    else assertEdge 610 (updPower (fun p => { p with sleepPhase := 2, sleepId := m.sleepId, instant := m.instant }) s))

/-- SL_VETO arrives (R516, R519). -/
def execSlVetoRx (rx : MgRx) (m : SlVeto) : State → Host.Outcome State Fault Refusal :=
  run (mgIn rx (.slVeto m) fun s =>
    if !numbered s || m.sleepId != s.power.sleepId || s.power.sleepPhase == 0 then s
    else
      let s := logEvent 0xE1 (srcPos m.position) (le 2 m.sleepId.toNat ++ le 2 (m.reasons.toNat % 65536)) s
      endNetSleep 0x80 (3 + m.position % 256 * 2 ^ 8) (endSleep (updPower (fun p => { p with vetoPos := m.position }) s)))

/-- SL_CANCEL arrives (R519). -/
def execSlCancelRx (rx : MgRx) (sleepId : BitVec 16) (cause : Nat) : State → Host.Outcome State Fault Refusal :=
  run (mgIn rx (.slCancel sleepId cause) fun s =>
    if numbered s && sleepId == s.power.sleepId && s.power.sleepPhase != 0 then endSleep (cancelRecord cause s) else s)

end Sys2Proof.Machine
end

