-- ==== Sys2Proof/Machine/FlowOps.lean ====
section
/-! DEFINITION. Flowstone's operations: media failures and degraded mode, the cursor window, what a reset keeps of the log and
what a start reads from it (R127, R457, R464, R465, R471 to R475). -/

namespace Sys2Proof.Machine

/-- Flowstone changed by a function. -/
def updFlow (f : Flow → Flow) (s : State) : State := { s with flow := f s.flow }

/-- The newest record held. -/
def newest (f : Flow) : Option LogRec := f.log.getLast?

/-- The oldest record held. -/
def oldest (f : Flow) : Option LogRec := f.log.head?

/-- The open record's fields as MRAM holds them (R462). -/
def savedRec (f : Flow) (r : LogRec) : LogRec :=
  match f.open_ with
  | some o => if f.dirty then { r with repeats := o.saved.1, last := o.saved.2 } else r
  | none => r

/-- The records that MRAM holds (R453, R462, R473). -/
def mramLog (f : Flow) : List LogRec :=
  if f.degraded then f.kept
  else
    let stored := f.log.take (f.log.length - f.front)
    if f.front = 0 then match stored.getLast? with
      | some r => stored.dropLast ++ [savedRec f r]
      | none => []
    else stored

/-- A media failure (R463, R473): the record that failed and LOG_DEGRADED go to the Sump, and a volatile ring begins with a second
copy of the latter; the front buffer has room again. -/
def mediaFailure (failed : Option LogRec) (addr : Word) (s : State) : State :=
  if s.flow.degraded then s
  else
    let deg := newRec 0x02 srcNode (le 4 addr.toNat) s.flow.next s
    let now := ltNs s
    logLostDue (assertEdge 580 (updFlow (fun f =>
      let f' := match failed with
        | some r => sumpPut r f
        | none => f
      { sumpPut deg f' with
        kept := mramLog f, log := [deg], front := 0, degraded := true, faultAddr := addr, dirty := false
        open_ := some { createdNs := now, latestNs := now }, next := f.next + 1, seqNext := f.next + 1 }) s))

/-- The oldest record of the front buffer is in MRAM, verified (R462, R463). -/
def frontWritten (s : State) : State :=
  let wasOpen := s.flow.front = 1
  let saved := (newest s.flow).map fun r => (r.repeats, r.last)
  logLostDue (updFlow (fun f => { f with
    front := f.front - 1, dirty := if wasOpen then false else f.dirty
    open_ := if wasOpen then f.open_.map fun o => { o with saved := saved.getD o.saved } else f.open_ }) s)

/-- Every record of the front buffer is written and the open record closes. -/
def flushed (f : Flow) : Flow := if f.degraded then { f with open_ := none } else { f with front := 0, open_ := none, dirty := false }

/-- The log before Park and Deep Park (R463, R464): what the front buffer holds is written, a LOG_LOST that it owes too. -/
def flushFlow (s : State) : State := updFlow flushed (logLostDue (updFlow flushed s))

/-! ### The cursor window -/

/-- A record is loaded into FLW_DATA0 to FLW_DATA7 (R472). -/
def loadRec (r : LogRec) (moved : Bool) (f : Flow) : Flow :=
  { f with loaded := some r, cursor := r.seq, moved := moved, loadedOpen := f.open_.isSome && newest f == some r }

/-- A write to FLW_CURSOR while the window is open (R472): sequence numbers compare modulo 2^32, as R117 compares. -/
def cursorWrite (val : Word) (f : Flow) : Flow :=
  match oldest f, newest f with
  | some o, some n =>
    if val = 0xFFFFFFFF then loadRec n false f
    else match f.log.find? fun r => r.seq == val with
      | some r => loadRec r false f
      | none =>
        if (val - n.seq).toNat < 2 ^ 31 then loadRec n true f
        else match f.log.find? fun r => decide ((r.seq - val).toNat < 2 ^ 31) with
          | some r => loadRec r true f
          | none => loadRec o true f
  | _, _ => { f with loaded := none }

/-- A read of FLW_DATA7 loads the next record in SEQ, if one exists (R472). -/
def cursorNext (f : Flow) : Flow :=
  match f.loaded with
  | some r => match f.log.find? fun x => decide (0 < (x.seq - r.seq).toNat) && decide ((x.seq - r.seq).toNat < 2 ^ 31) with
    | some x => loadRec x false f
    | none => f
  | none => f

/-- FLW_DATAw (R475): it reads 0 in normal service. -/
def flwData (s : State) (w : Nat) : Word :=
  if windowOpen s then match s.flow.loaded with
    | some r => w32 (fld (recBytes r) (4 * w) 4)
    | none => 0
  else 0

/-- A word of the Sump (R475). -/
def sumpWord (s : State) (n w : Nat) : Word :=
  match s.flow.sump[n]? with
  | some r => w32 (fld (recBytes r) (4 * w) 4)
  | none => 0

/-! ### Resets and starts -/

/-- What a reset keeps (R464, R473, R474, R529): MRAM, and the Sump and SEQ_NEXT unless PD0 is reset. -/
def flowReset (powerOn : Bool) (f : Flow) : Flow :=
  let log := mramLog f
  { log := log, badRecords := f.badRecords, regionFault := f.regionFault
    next := if powerOn then 0 else f.seqNext
    sump := if powerOn then [] else f.sump, sumpLost := if powerOn then 0 else f.sumpLost
    seqNext := if powerOn then 0 else f.seqNext }

/-- The first sequence number of a start (R457). -/
def firstSeq (f : Flow) : BitVec 32 :=
  BitVec.ofNat 32 ((f.log ++ f.sump).foldl (fun m r => max m (r.seq.toNat + 1)) f.seqNext.toNat)

/-- The floor of line time in ns (R127, R456). -/
def floorNs (f : Flow) : Nat :=
  match f.log ++ f.sump with
  | [] => 0
  | rs => rs.foldl (fun m r => max m (r.ltUs.toNat * 1000)) 0 + 1000000000

/-- The log region is read at a start (R465, R473): LOG_CRC names bad records; a region that fails leads to degraded mode. -/
def readLog (storeQuarantined : Bool) (s : State) : State :=
  let s := updFlow (fun f => { f with next := firstSeq f, seqNext := firstSeq f }) s
  let fault := if storeQuarantined then some (Config.quarantineAddr s.clk.draws) else s.flow.regionFault
  match fault with
  | some a => mediaFailure none a s
  | none => if s.flow.badRecords = 0 then s
    else logEvent 0x04 srcNode (le 4 (sat 32 s.flow.badRecords)) s

end Sys2Proof.Machine
end

