-- ==== Sys2Proof/Machine/Planner.lean ====
section
/-! DEFINITION. The commands of group 0x04 and the planner's messages, shadow plans and swaps (R255 to R293, R504 to R506). -/

namespace Sys2Proof.Machine

/-! ### Commands of group 0x04 -/

/-- FACTORY_SAFE is in force (R541). -/
def factorySafe (s : State) : Bool := s.store.chosen && s.store.slot.isNone

/-- STREAM_DECLARE (R260, R264, R541). -/
def execStreamDeclare (tag : BitVec 8) : State → Host.Outcome State Fault Refusal :=
  run (withCmd 0x0401 tag fun c s =>
    checked c ([lenCheck c 32 false] ++ stateChecks c s none (standbyRefused s || !numbered s || factorySafe s)
        ++ [(contractBad c.inl).bind fun i => badP true c i])
      (fun s => sendRequest (some tag) (.declare (contractOf c.inl)) c.epoch (park c 0 0 s)) s)

/-- STREAM_WITHDRAW (R263, R264): accepted in every state of the context. -/
def execStreamWithdraw (tag : BitVec 8) : State → Host.Outcome State Fault Refusal :=
  run (withCmd 0x0402 tag fun c s =>
    checked c ([lenCheck c 1 false] ++ stateChecks c s none (standbyRefused s || !numbered s))
      (fun s => sendRequest (some tag) (.withdraw (pB c 0)) c.epoch (park c 0 0 s)) s)

/-- The record of a context, 64 bytes (R262). -/
def contextRecord (s : State) (k : Nat) : List Byte :=
  let here := sourcedHere s k
  let glk := if here then ((boundGlk s k).map fun n => 0x40 + n).getD 0 else 0
  let x := (ctxAt s k).getD { canon := freeCanon k, cause := 0, intake := 0, phase := 0 }
  canonBytes false x.canon ++ byte1 glk ++ byte1 (if x.canon.state = .dead then x.cause else 0) ++ zeros 2
    ++ le 4 (if here then x.phase else 0) ++ le 4 (if here then x.intake else 0)

/-- STREAM_READ (R262). -/
def execStreamRead (tag : BitVec 8) (wr : Bool) : State → Host.Outcome State Fault Refusal :=
  run (withCmd 0x0403 tag fun c s =>
    checked c ([lenCheck c 1 true] ++ stateChecks c s none false ++ descChecks c 64) (finishOut c wr (contextRecord s (pB c 0)) 0) s)

/-- PLAN_REPACK (R76, R264, R269). -/
def execPlanRepack (tag : BitVec 8) : State → Host.Outcome State Fault Refusal :=
  run (withCmd 0x0404 tag fun c s =>
    checked c ([lenCheck c 0 false] ++ stateChecks c s none (standbyRefused s || !numbered s) ++ [exclusiveFail c s])
      (fun s => sendRequest (some tag) .repack c.epoch (park c 0 0 s)) s)

/-- The result of PLAN_STATUS (R85). -/
def planResult (s : State) : Nat :=
  s.planner.digest.toNat + s.survey.epoch % 256 * 2 ^ 32 + s.planner.agree % 256 * 2 ^ 40 + flagAt (planSilenced s) 48

/-- PLAN_STATUS (R85). -/
def execPlanStatus (tag : BitVec 8) : State → Host.Outcome State Fault Refusal :=
  run (withCmd 0x0405 tag fun c s => checked c ([lenCheck c 0 false] ++ stateChecks c s none false) (finish c 0 (planResult s)) s)

/-- VIEW_SELECT (R264, R270, R541): bit k of the mask stands for context k. -/
def execViewSelect (tag : BitVec 8) : State → Host.Outcome State Fault Refusal :=
  run (withCmd 0x0406 tag fun c s =>
    checked c ([lenCheck c 32 false] ++ stateChecks c s none (standbyRefused s || !numbered s || factorySafe s))
      (fun s => sendRequest (some tag) (.view (BitVec.ofNat 256 (pF c 0 32))) c.epoch (park c 0 0 s)) s)

/-- The checks of CAMERA_BIND (R8, R91, R272). -/
def cameraBindChecks (lane : Bool) (c : Cmd) (_ : Option (List Byte)) (s : State) : List Fail :=
  let code := pB c 1
  [lenCheck c 2 false, absent (inRange 0x40 0x4C code && decide (0x40 + glkOuts s.part.code ≤ code))]
    ++ stateChecks c s none (standbyRefuses lane s || !sourcedHere s (pB c 0)) ++ [badP (!inRange 0x40 0x4C code) c 1]

/-- An output is bound to a context, and to no other; the context keeps no other output (R262, R272). A context that loses its output has no
PHASE any more. -/
def bindGlk (n k : Nat) (s : State) : State :=
  let loser := ((s.time.glk.getD n {}).bound).filter fun j => j != k
  { s with
    planner := { s.planner with ctxs := s.planner.ctxs.map fun e => if loser = some e.1 then (e.1, { e.2 with phase := 0 }) else e }
    time := { s.time with glk := s.time.glk.mapIdx fun i g =>
      if i = n then { g with bound := some k, phiDue := true } else if g.bound = some k then { g with bound := none } else g } }

/-- CAMERA_BIND's effect (R272): the new phase takes effect at the next cycle boundary. -/
def cameraBindEffect : Effect := fun tag c _ s => atCommit tag 0 (bindGlk (pB c 1 - 0x40) (pB c 0)) s

/-- CAMERA_BIND (R272, R417). -/
def execCameraBind (tag : BitVec 8) : State → Host.Outcome State Fault Refusal :=
  run (withCmd 0x0407 tag fun c s => checked c (cameraBindChecks false c none s) (startSetting cameraBindEffect c []) s)

/-! ### Swaps -/

/-- A shadow plan named for a swap cycle is complete (R255, R266, R594): SHADOW is written, and a plan that gives the node a
role ends Doze (R506). SHADOW is free once RETIRING has been released. -/
def completeShadow (g : Stage) (s : State) : State :=
  let s := writeShadow (ownTables s g.ctxs) { s with reform := { s.reform with shadowDone := false } }
  if hasRole s g.ctxs then dozeExit [14] s else s

/-- The plan named first comes into force (R254, R255, R266): banks, contexts, digest and the commands that waited for it. -/
def swapIn (g : Stage) (s : State) : State :=
  let old := s.planner.ctxs
  let s := addDues (cycleTag s g.swap - 1) s
  let s := rotateBanks g.swap false { s with store := { s.store with videoDue := true } }
  let s := updPlanner (fun p => { p with staged := p.staged.drop 1 }) s
  let s := updGallery (fun y => { y with swapAt := s.planner.staged.head?.map fun x => x.swap }) s
  let keepsWin := if g.sync then sameEntries old g.ctxs else standsStill old g.ctxs
  completeChanges (takePlan g (standsStill old g.ctxs) keepsWin g.swap s s)

/-- SWAP (R254, R255, R257): the boundary of the named swap cycle; without a complete SHADOW the node waits, and swaps at the
boundary after it is complete. -/
def execSwap : State → Host.Outcome State Fault Refusal :=
  run fun s =>
    match s.planner.staged.head? with
    | none => s
    | some g =>
      if !(running s && numbered s) then s
      else
        let s := toLt (if s.gallery.waiting then boundary s (cycleNow s + 1) else boundary s g.swap) s
        if s.gallery.shadowComplete && !s.reform.shadowDone then swapIn g s
        else if s.gallery.waiting then s
        else logEvent 0x50 srcNode (le 4 g.swap) (updGallery (fun y => { y with waiting := true }) s)

/-- RETIRING_RELEASE (R255): at the end of cycle S + 2 RETIRING is emptied and becomes the new SHADOW. -/
def execRetiringRelease : State → Host.Outcome State Fault Refusal :=
  run fun s =>
    match s.gallery.lastSwap with
    | some c =>
      if running s && s.gallery.retiringHeld then
        updGallery (fun g => { g with banks := g.banks.map fun b => { b with retiring := [] }, retiringHeld := false })
          (toLt (boundary s (c + 3)) s)
      else s
    | none => s

/-! ### Messages -/

/-- The responder's answer to SYNC (R290): every record that is not FREE and every vehicle's selection, those in force. -/
def syncItems (s : State) : List PlItem :=
  (s.planner.ctxs.map fun e => .record e.2.canon)
    ++ (List.range (consistCount s)).map fun i => .selection (i + 1) (selectionOf s.planner.selections (i + 1))

/-- A SYNC is answered to the requester's rank 0x00 address, unless this node is silenced itself (R290). -/
def answerSync (m : PlRequest) (s : State) : State :=
  if planSilenced s || m.epoch != s.survey.epoch then s
  else
    let items := syncItems s
    let goal := trainMac m.reqPos 0
    let msgs := items.mapIdx fun i x =>
      (goal, { epochOf := s.survey.epoch, item := x, lastSerial := s.planner.inForce, index := i, total := items.length : PlContract })
    updPlanner (fun p => { p with flood := p.flood.filter (fun x => x.1 != goal) ++ msgs }) s

/-- PL_REQUEST_RX (R264, R267, R290). -/
def execPlRequestRx (rx : MgRx) (m : PlRequest) : State → Host.Outcome State Fault Refusal :=
  run (mgIn rx (.plRequest m) fun s =>
    if !(numbered s && isActive s) then s
    else match m.op with
      | .sync => answerSync m s
      | _ => if isReference s then submit { msg := m, tag := none, answered := false } s else s)

/-- PL_RESULT_RX (R266). -/
def execPlResultRx (rx : MgRx) (m : PlResult) : State → Host.Outcome State Fault Refusal :=
  run (mgIn rx (.plResult m) fun s => if m.reqPos = s.survey.position then takeResult m s else s)

/-- A change of the next SERIAL whose S is still to come is applied into the plan of its S (R265, R266); a placement that
refuses it silences the node (R289). -/
def applyChange (env : PlanEnv) (m : PlChange) (s : State) : State :=
  let (t, sels) := lastPlan s
  let swap := cycleAt s m.swap
  match planChange env (canons (planBefore_ s swap)) m.serial t sels m.target m.op with
  | .ok (t', sels') => stage { swap := swap, serial := m.serial, ctxs := t', sels := sels' } s
  | .error _ => losePlan 0 s

/-- PL_CHANGE_RX (R265, R266, R289): SERIALs already taken are ignored, a gap or a boundary already passed silences. -/
def execPlChangeRx (rx : MgRx) (m : PlChange) : State → Host.Outcome State Fault Refusal :=
  run (mgIn rx (.plChange m) fun s =>
    if !numbered s || m.epoch != s.survey.epoch || (isReference s && isActive s) then s
    else
      let ahead := (m.serial + 65536 - s.planner.lastSerial) % 65536
      if ahead = 0 ∨ 32767 < ahead then s
      else if ahead ≠ 1 ∨ boundary s (cycleAt s m.swap) ≤ s.clk.lt then losePlan 0 s
      else match planEnv s with
        | some env => applyChange env m s
        | none => s)

/-- PL_DIGEST_RX (R287): position 1 keeps the report of the round. -/
def execPlDigestRx (rx : MgRx) (m : PlDigest) : State → Host.Outcome State Fault Refusal :=
  run (mgIn rx (.plDigest m) fun s =>
    if isReference s && isActive s && m.epoch == s.survey.epoch then
      updPlanner (fun p => { p with reports := m :: p.reports.filter fun x => x.position != m.position }) s
    else s)

/-- A tally against the digest in force at the boundary of the round (R289). -/
def takeTally (m : PlTally) (s : State) : State :=
  if m.epoch ≠ s.survey.epoch then s
  else
    let s := updPlanner (fun p => { p with agree := m.agree, agreeMap := m.agreeMap }) s
    if m.digest ≠ s.planner.roundDigest then losePlan m.digest s
    else if s.planner.silenced then
      releaseRequests (logEvent 0x54 srcNode (le 4 m.digest.toNat) (updPlanner (fun p => { p with silenced := false, syncing := false }) s))
    else s

/-- PL_TALLY_RX (R289). -/
def execPlTallyRx (rx : MgRx) (m : PlTally) : State → Host.Outcome State Fault Refusal :=
  run (mgIn rx (.plTally m) fun s => if numbered s && !(isReference s && isActive s) then takeTally m s else s)

/-- The digest that more than half of those counted hold, else position 1's (R288). -/
def winningDigest (own : BitVec 32) (counted : List (Nat × BitVec 32)) : BitVec 32 :=
  ((counted.find? fun x => decide (counted.length < 2 * (counted.filter fun y => y.2 == x.2).length)).map fun x => x.2).getD own

/-- Position 1 tallies the round and floods PL_TALLY (R287, R288). -/
def sendTally (s : State) : State :=
  let own := s.planner.roundDigest
  let counted := (1, own) :: (s.planner.reports.filter fun x => x.position != 1).map fun x => (x.position, x.digest)
  let win := winningDigest own counted
  let mapOf (l : List (Nat × BitVec 32)) : BitVec 64 := l.foldl (fun b x => b ||| BitVec.twoPow 64 (x.1 - 1)) 0
  let good := counted.filter fun x => x.2 == win
  let m : PlTally := { epoch := s.survey.epoch, agree := good.length, lastSerial := s.planner.roundSerial, digest := win,
                       agreeMap := mapOf good, reportMap := mapOf counted }
  takeTally m (floodMg (.plTally m) (updPlanner (fun p => { p with reports := [] }) s))

/-- What the planner sends in a Survey chamber (R263, R287, R290): at most 8 contracts, the digest, the tally. -/
def plannerChamber (s : State) : State :=
  let k := cycleNow s
  let now := s.planner.flood.take 8
  let s := now.foldl (fun s x => if x.1 = allNodes then floodMg (.plContract x.2) s else sendMgTo (macPos x.1) (.plContract x.2) s)
    (updPlanner (fun p => { p with flood := p.flood.drop 8 }) s)
  let s := if k % 32 = 0 then updPlanner (fun p => { p with roundDigest := p.digest, roundSerial := p.inForce }) s else s
  if !numbered s || !isActive s then s
  else if isReference s then (if k % 32 = 24 then sendTally s else s)
  else if k % 32 = 0 then sendMgTo 1 (.plDigest {
    position := s.survey.position, epoch := s.survey.epoch, lastSerial := s.planner.inForce, digest := s.planner.digest,
    planSilenced := planSilenced s, timeSilenced := s.time.silenced }) s
  else s

/-- PL_CONTRACT messages of one set, one for each INDEX. -/
def addTaken (m : PlContract) (l : List PlContract) : List PlContract :=
  let same := l.filter fun x => x.total == m.total && x.lastSerial == m.lastSerial && x.epochOf == m.epochOf
  if same.any fun x => x.index == m.index then same else same ++ [m]

/-- A record from a message as a context of the plan. -/
def syncCtx (s : State) (c : Canon) : Ctx :=
  match ctxAt s c.context with
  | some x => { x with canon := c, cause := if c.state = .dead then x.cause else 0 }
  | none => { canon := c, cause := 0, intake := 0, phase := 0 }

/-- The plan rebuilt from records without search (R290): it swaps at the first boundary that R256 allows. -/
def stageSync (items : List PlContract) (serial : Nat) (s : State) : State :=
  let ctxs := items.foldl (fun t m => match m.item with
    | .record c => if c.state = .free then t else tabPut t c.context (syncCtx s c)
    | _ => t) []
  let sels := items.foldl (fun t m => match m.item with
    | .selection p x => tabSet (BitVec.allOnes 256) t p x
    | _ => t) []
  let last := (s.gallery.lastSwap.map fun c => c + 3).getD 0
  let s := updPlanner (fun p => { p with staged := [], taken := [], syncing := false }) s
  stage { swap := max (cycleNow s + 1) last, serial := serial, ctxs := ctxs, sels := sels, sync := true } s

/-- The contracts of a cold start from the messages taken. -/
def takenContracts (l : List PlContract) : Tab Contract :=
  l.foldl (fun t m => match m.item with
    | .record c => tabPut t c.context c.contract
    | _ => t) []

/-- Records that the unit did not ask for are its standby's (R290, R291): they go on across the jumper. -/
def passContract (rx : MgRx) (m : PlContract) (s : State) : State :=
  match s.survey.jumper with
  | some j => if isActive s && rx.port.side != j then queueMg j.ports (relayed rx (.plContract m)) s else s
  | none => s

/-- PL_CONTRACT_RX (R216, R263, R290): a record of a cold start or of a resynchronisation is taken, the whole set makes a plan; one
of the other part of a merge is held. -/
def execPlContractRx (rx : MgRx) (m : PlContract) : State → Host.Outcome State Fault Refusal :=
  run (mgIn rx (.plContract m) fun s =>
    if !numbered s then s
    else if rx.da = linkLocal then takeAcross m s
    else if rx.da = allNodes then
      if s.planner.coldDone || m.epochOf != s.survey.epoch then takeCross m s
      else if isReference s && isActive s then s
      else
        let taken := if m.total = 0 then [] else addTaken m s.planner.taken
        let s := updPlanner (fun p => { p with taken := taken }) s
        if taken.length = m.total then
          stageCold (s.gallery.lastSwap.getD 0) (takenContracts taken) (updPlanner (fun p => { p with taken := [], coldDone := true }) s)
        else s
    else if m.epochOf ≠ s.survey.epoch then s
    else if !s.planner.syncing then passContract rx m s
    else
      let taken := addTaken m s.planner.taken
      let s := updPlanner (fun p => { p with taken := taken, syncAt := s.time.cycles }) s
      if taken.length = m.total then stageSync taken m.lastSerial s else s)

end Sys2Proof.Machine
end

