-- ==== Sys2Proof/Machine/SettingTable.lean ====
section
/-! DEFINITION. GLK_CONFIG, and the table of setting commands: the checks and the effect of each, as a host, the active unit's
lane or the configuration image gives it (R161, R417, R537). -/

namespace Sys2Proof.Machine

/-- The checks of GLK_CONFIG (R8, R161, R162). -/
def glkConfigChecks (_ : Bool) (c : Cmd) (_ : Option (List Byte)) (s : State) : List Fail :=
  [lenCheck c 16 false, absent (glkAbsent c s)] ++ stateChecks c s none false ++ glkChecks c s

/-- GLK_CONFIG's effect (R161, R162). -/
def glkConfigEffect : Effect := fun tag c _ s => atCommit tag 0 (glkApply c) s

/-- GLK_CONFIG (R161, R417). -/
def execGlkConfig (tag : BitVec 8) : State → Host.Outcome State Fault Refusal :=
  run (withCmd 0x0305 tag fun c s => checked c (glkConfigChecks false c none s) (startSetting glkConfigEffect c []) s)

/-- A setting command: its checks and its effect. -/
structure SettingRow where
  checks : Bool → Cmd → Option (List Byte) → State → List Fail
  effect : Effect

/-- The setting commands that pass the lane (R417). -/
def settingRow (opcode : Nat) : Option SettingRow :=
  match opcode with
  | 0x0305 => some ⟨glkConfigChecks, glkConfigEffect⟩
  | 0x0407 => some ⟨cameraBindChecks, cameraBindEffect⟩
  | 0x0410 => some ⟨vsuConfigChecks, vsuConfigEffect⟩
  | 0x0501 => some ⟨portConfigChecks, portConfigEffect⟩
  | 0x0503 => some ⟨ucastFilterChecks, ucastFilterEffect⟩
  | 0x0504 => some ⟨wakePatternChecks, wakePatternEffect⟩
  | 0x0505 => some ⟨gateListChecks, gateListEffect⟩
  | 0x0508 => some ⟨asConfigChecks, asConfigEffect⟩
  | 0x0601 => some ⟨mdConfigChecks, mdConfigEffect⟩
  | 0x0701 => some ⟨canConfigChecks, canConfigEffect⟩
  | 0x0702 => some ⟨canBufferChecks, canBufferEffect⟩
  | 0x0706 => some ⟨canScheduleChecks, canScheduleEffect⟩
  | 0x0707 => some ⟨canWakeChecks, canWakeEffect⟩
  | _ => none

/-- A setting is applied as if a host had issued it, without a command to complete: the state after it and its status. -/
def applySetting (c : Cmd) (buf : List Byte) (s : State) : State × Nat :=
  match settingRow c.opcode with
  | none => (s, 0x10)
  | some r => match firstFail (r.checks true c (some buf) s) with
    | some (status, _) => (s, status)
    | none => (takeSetting r.effect none c buf s, 0)

/-- A setting command whose passing to the standby is over takes effect (R417). -/
def settleSetting (tag : Option (BitVec 8)) (x : Settings) (s : State) : State :=
  match tag, settingRow (settingsCmd x).opcode with
  | some t, some r => takeSetting r.effect (some t) (settingsCmd x) x.buffer s
  | _, _ => s

end Sys2Proof.Machine
end

