-- ==== Sys2Proof/Machine/Image.lean ====
section
/-! DEFINITION. Configuration images and slots: the layout of an image, what makes a slot valid, and which image is chosen (R533 to
R541). -/

namespace Sys2Proof.Machine

/-! ### Layout -/

/-- One entry of the section table (R535). -/
structure Section where
  type : Nat
  offset : Nat
  size : Nat
  deriving DecidableEq, Repr

/-- LENGTH of an image (R535). -/
def imageLen (bs : List Byte) : Nat := fld bs 12 4

/-- SECTIONS of an image (R535). -/
def imageSections (bs : List Byte) : Nat := fld bs 16 2

/-- GENERATION of an image (R535). -/
def imageGen (bs : List Byte) : Nat := fld bs 8 4

/-- The section table (R535). -/
def sectionTable (bs : List Byte) : List Section :=
  (List.range (imageSections bs)).map fun i =>
    { type := fld bs (32 + 12 * i) 2, offset := fld bs (36 + 12 * i) 4, size := fld bs (40 + 12 * i) 4 }

/-- The bytes of a section type, none where the image has no such section (R535, R536). -/
def sectionOf (bs : List Byte) (type : Nat) : Option (List Byte) :=
  ((sectionTable bs).find? fun x => x.type == type).map fun x => slice bs x.offset x.size

/-- Consecutive pieces of `n` bytes, a shorter rest left out. -/
def pieces (n : Nat) (bs : List Byte) : List (List Byte) := (List.range (bs.length / n)).map fun i => slice bs (n * i) n

/-- A size that the section type admits (R536). -/
def sizeOk (type size : Nat) : Bool :=
  size % 4 == 0 && match type with
    | 1 => size == 32
    | 2 => size % 32 == 0
    | 4 => size % 12 == 0
    | 5 => size % 12 == 0
    | 6 => size % 8 == 4
    | 7 => size % 8 == 0
    | 8 => decide (16 ≤ size) && decide (size ≤ 272) && size % 8 == 0
    | 9 => size == 64
    | _ => true

/-- The offset of the first field of table entry i that R535 or R536 refuses. -/
def entryBad (bs : List Byte) (i : Nat) : Option Nat :=
  let at_ := 32 + 12 * i
  let before := (sectionTable bs).take i
  let floor := match before.getLast? with
    | some p => p.offset + p.size
    | none => 32 + 12 * imageSections bs
  let x : Section := { type := fld bs at_ 2, offset := fld bs (at_ + 4) 4, size := fld bs (at_ + 8) 4 }
  if x.type = 0 ∨ 9 < x.type ∨ (before.any fun p => p.type == x.type) = true then some at_
  else if fld bs (at_ + 2) 2 ≠ 0 then some (at_ + 2)
  else if x.offset % 4 ≠ 0 ∨ x.offset < floor then some (at_ + 4)
  else if sizeOk x.type x.size = false ∨ imageLen bs < x.offset + x.size + 68 then some (at_ + 8)
  else none

/-- The offset of the first field of the NODE section that R536 refuses, from its own start. -/
def nodeBad (n : List Byte) : Option Nat :=
  if fld n 0 8 < 0x186A00000 ∨ 0xF42400000 < fld n 0 8 then some 0
  else if fld n 8 1 = 0 ∨ 128 < fld n 8 1 then some 8
  else if fld n 9 1 ≠ 0 then some 9
  else if fld n 10 2 < 40 ∨ 400 < fld n 10 2 then some 10
  else if fld n 12 4 % 2 = 0 ∨ 2047 < fld n 12 4 then some 12
  else if fld n 18 14 ≠ 0 then some 18
  else none

/-- The offset at which a section of a type begins. -/
def sectionAt (bs : List Byte) (type : Nat) : Nat :=
  (((sectionTable bs).find? fun x => x.type == type).map fun x => x.offset).getD 0

/-- MAGIC and FORMAT are correct (R535). -/
def magicOk (bs : List Byte) : Bool := fld bs 0 4 == 0x4643595A && fld bs 4 2 == 1

/-- The offset of the first of LENGTH, SECTIONS, bytes 18 to 31, the section table and NODE that R535 or R536 refuses. -/
def tableBad (bs : List Byte) : Option Nat :=
  if imageLen bs < 144 ∨ 262144 < imageLen bs ∨ imageLen bs % 4 ≠ 0 then some 12
  else if imageSections bs = 0 ∨ 16 < imageSections bs ∨ imageLen bs < 32 + 12 * imageSections bs + 68 then some 16
  else if fld bs 18 14 ≠ 0 then some 18
  else match (List.range (imageSections bs)).findSome? (entryBad bs) with
    | some o => some o
    | none => match sectionOf bs 1 with
      | none => some 16
      | some n => (nodeBad n).map fun o => sectionAt bs 1 + o

/-! ### Contents of the other sections -/

/-- The offset of the first byte that R536 refuses in an entry of RATES. -/
def rateBad (e : List Byte) : Option Nat :=
  let code := fld e 0 1
  if !(decide (code < 0x0C) || code == 0x20 || code == 0x21) then some 0
  else if 1 < fld e 1 1 then some 1 else if fld e 2 2 ≠ 0 then some 2 else none

/-- The same in an entry of FDB. -/
def fdbBad (e : List Byte) : Option Nat :=
  if 4095 < fld e 0 2 then some 0 else if fld e 2 1 % 2 = 0 then some 2 else if 3 < fld e 10 1 then some 10
  else if fld e 11 1 ≠ 0 then some 11 else none

/-- The same in an entry of STATIONS. -/
def stationBad (e : List Byte) : Option Nat :=
  if !(fld e 0 1 == 0x20 || fld e 0 1 == 0x21) then some 0 else if 31 < fld e 1 1 then some 1 else none

/-- The same in an entry of VIDEO. -/
def videoBad (e : List Byte) : Option Nat :=
  let glk := fld e 1 1
  let form := fld e 2 1
  if 0x0B < fld e 0 1 then some 0
  else if !(glk == 0 || (decide (0x40 ≤ glk) && decide (glk ≤ 0x4B))) then some 1
  else if !(decide (form ≤ 2) || form == 0xFF) then some 2 else if 1 < fld e 3 1 then some 3 else none

/-- The same in a plan entry of SELFTEST (R495). -/
def planBad (e : List Byte) : Option Nat :=
  if 33 < fld e 0 1 then some 0 else if 3 < fld e 2 1 then some 2 else if fld e 4 2 = 0 then some 4 else none

/-- The offset of the first entry byte that a test refuses, from the start of the entries. -/
def entriesBad (n : Nat) (bad : List Byte → Option Nat) (bs : List Byte) : Option Nat :=
  ((pieces n bs).mapIdx fun i e => (bad e).map fun o => n * i + o).findSome? id

/-- The offset of the first byte of the optional sections that R536 refuses. -/
def contentsBad (bs : List Byte) : Option Nat :=
  let sec (type from_ n : Nat) (bad : List Byte → Option Nat) : Option Nat :=
    (sectionOf bs type).bind fun x => (entriesBad n bad (x.drop from_)).map fun o => sectionAt bs type + from_ + o
  [sec 4 0 12 rateBad, sec 5 0 12 fdbBad, sec 6 4 8 stationBad, sec 7 0 8 videoBad, sec 8 16 8 planBad].findSome? id

/-- The offset of the first field that R535 and R536 refuse, in the order of the image. -/
def imageBad (part : Part) (bs : List Byte) : Option Nat :=
  if fld bs 0 4 ≠ 0x4643595A then some 0
  else if fld bs 4 2 ≠ 1 then some 4
  else if fld bs 6 2 ≠ part.code then some 6
  else if imageGen bs = 0 ∨ imageGen bs = 0xFFFFFFFF then some 8
  else (tableBad bs).or (contentsBad bs)

/-- The image's CRC field is correct (R535). -/
def imageCrcOk (bs : List Byte) : Bool :=
  fld bs (imageLen bs - 68) 4 == (crc32 (bs.take (imageLen bs - 68))).toNat

/-- The signature verifies (R539). Without a sealed key in FIELD or MAINTENANCE it is judged by Config.factoryKey (log 10). -/
def signatureOk (s : State) (bs : List Byte) : Bool :=
  let n := imageLen bs
  let verify (key : List Byte) : Bool := Config.ed25519 key (bs.take (n - 64)) (slice bs (n - 64) 64)
  if s.test.lc = 3 ∨ s.test.lc = 4 then verify ((s.test.keys.map fun k => k.1).getD Config.factoryKey)
  else match sectionOf bs 9 with
    | some k => verify (k.take 32)
    | none => true

/-! ### Slots -/

/-- The slot with a number. -/
def slotAt (s : State) (i : Nat) : Slot := s.store.slots.getD i {}

/-- The seal record's SEAL and CHECK are correct (R534). -/
def sealOk (r : Seal) : Bool :=
  r.sealWord == 0x5EA1C0DE && r.check == crc32 (le 4 r.sealWord.toNat ++ le 4 r.generation.toNat ++ le 4 r.imageCrc.toNat)

/-- The seal record of an image (R534). -/
def sealFor (bs : List Byte) : Seal :=
  let gen := w32 (imageGen bs)
  let crc := w32 (fld bs (imageLen bs - 68) 4)
  { sealWord := 0x5EA1C0DE, generation := gen, imageCrc := crc, check := crc32 (le 4 0x5EA1C0DE ++ le 4 gen.toNat ++ le 4 crc.toNat) }

/-- The reason code for which a slot is not valid, 0 where it is valid (R538): a slot that does not read fails as such before what it
holds is judged. -/
def slotReason (s : State) (i : Nat) : Nat :=
  let x := slotAt s i
  let bs := x.image
  match x.sealRec with
  | none => 1
  | some r =>
    if sealOk r = false then 2
    else if x.readable = false then 9
    else if magicOk bs = false then 3
    else if fld bs 6 2 ≠ s.part.code then 4
    else if (tableBad bs).isSome then 5
    else if imageCrcOk bs = false ∨ r.imageCrc.toNat ≠ fld bs (imageLen bs - 68) 4 ∨ r.generation.toNat ≠ imageGen bs then 6
    else if signatureOk s bs = false then 7
    else if s.test.lc = 5 then 8
    else 0

/-- A slot is valid (R538). -/
def slotValid (s : State) (i : Nat) : Bool := slotReason s i == 0

/-- The valid slots, ascending. -/
def validSlots (s : State) : List Nat := [0, 1, 2].filter (slotValid s)

/-- GENERATION of a slot's image. -/
def slotGen (s : State) (i : Nat) : Nat := imageGen (slotAt s i).image

/-- The highest GENERATION of the valid slots. -/
def topGen (s : State) : Nat := (validSlots s).foldl (fun m i => max m (slotGen s i)) 0

/-- The bytes of a slot's image. -/
def slotImage (s : State) (i : Nat) : List Byte := (slotAt s i).image.take (imageLen (slotAt s i).image)

/-- The valid slots with the highest GENERATION (R540). -/
def topSlots (s : State) : List Nat := (validSlots s).filter fun i => slotGen s i == topGen s

/-- The choice of R540: a slot; or FACTORY_SAFE, with the slots that a split refuses. -/
def chooseSlot (s : State) : Option Nat × List Nat :=
  match topSlots s with
  | [] => (none, [])
  | i :: rest => if rest.all fun j => slotImage s j == slotImage s i then (some i, []) else (none, i :: rest)

end Sys2Proof.Machine
end

