-- ==== Sys2Proof/Machine/ResetOps.lean ====
section
/-! DEFINITION. Reset: what starts again and what is kept (R528, R529, R558, R587). -/

namespace Sys2Proof.Machine

/-- WAKE_EN and WAKE_LATCH as a reset at an instant leaves them (R510, R525, R529). -/
def resetPower (powerOn : Bool) (p : Power) (part : Part) (ps : Nat) : Power :=
  { wakeEn := if powerOn then 0x7FF else p.wakeEn
    wakeLatch := if powerOn then 0x800 else p.wakeLatch
    lantern := p.lantern, railPs := ps, domains := populated part &&& 0x3FFD }

/-- A reset with its cause code (R528, R529): everything starts again but MRAM, PD0 unless `powerOn`, the pins' levels and the
TAP's instruction. -/
def startReset (cause : Nat) (powerOn : Bool) (s : State) : State :=
  { part := s.part, minor := s.minor
    clk := { ps := s.clk.ps, draws := s.clk.draws }
    twin := { actlHigh := s.twin.actlHigh || s.twin.drivesActl }
    router := { tempHigh := s.router.tempHigh }
    flow := flowReset powerOn s.flow
    test := { copies := s.test.copies, lc := s.test.lc, keys := s.test.keys, quarantine := s.test.quarantine }
    power := resetPower powerOn s.power s.part s.clk.ps
    store := { slots := s.store.slots, cause := cause, rstLow := s.store.rstLow }
    regs := { perstLow := s.regs.perstLow, jtag := s.regs.jtag }
    out := s.out, pending := s.pending }

/-- The WAKE_LATCH holds one reason alone. -/
def onlyReason (bit : Nat) (s : State) : State := updPower (fun p => { p with wakeLatch := BitVec.twoPow 32 bit }) s

/-- A parked unit wakes for the reasons in WAKE_LATCH (R510, R520 to R522): WAKE_OUT rises, and a wake pulse leaves on every backbone
port; the relays stay as they were at entry. -/
def wakeUp (s : State) : State :=
  if s.power.mode != .park && s.power.mode != .deepPark then s
  else
    let cause := if s.power.mode = .park then 5 else 6
    let relay := (s.power.bypA, s.power.bypB)
    let s := BPort.all.foldl (fun s p => emit (.wakePulse p) s) (startReset cause false s)
    updPower (fun p => { p with waking := true, bypA := relay.1, bypB := relay.2 }) s

/-- An enabled reason arises (R508, R510): it wakes a unit in Park or Deep Park that RSTn does not hold there (R530), and is latched
with LATE during Park entry. -/
def wakeReason (bit : Nat) (s : State) : State :=
  if reasonOn s bit = false then s
  else match s.power.mode with
    | .parking => latchReason 15 (latchReason bit s)
    | .park => if s.store.rstLow then s else wakeUp (latchReason bit s)
    | .deepPark => if s.store.rstLow then s else wakeUp (latchReason bit s)
    | _ => s

end Sys2Proof.Machine
end

