-- ==== Sys2Proof/Machine/Sha.lean ====
section
/-! DEFINITION. HMAC-SHA-256, by which LOG_CLEAR and LC_SET are authorised (R469, R480). -/

namespace Sys2Proof.Machine

/-- The whole part of the `k`-th root of `n`, found bit by bit from below bit `i` on, on top of the bits `r` found so far. -/
def rootBits (k n : Nat) : Nat → Nat → Nat
  | 0, r => r
  | i + 1, r => rootBits k n i (if (r + 2 ^ i) ^ k ≤ n then r + 2 ^ i else r)

/-- The first 32 bits of the fraction of the `k`-th root of `p`, for roots below 8 (FIPS 180-4's rule for the constants of SHA-256). -/
def rootFraction (k p : Nat) : Word := BitVec.ofNat 32 (rootBits k (p * 2 ^ (32 * k)) 35 0)

/-- The 64 primes below 312. -/
def shaPrimes : List Nat := (List.range 312).filter fun p => decide (2 ≤ p) && !((List.range 18).any fun d => decide (2 ≤ d) && decide (d < p) && p % d == 0)

/-- The 64 round constants of SHA-256: fractions of the cube roots of the primes. -/
def shaK : List Word := shaPrimes.map (rootFraction 3)

/-- The eight words of the initial hash value: fractions of the square roots of the first primes. -/
def shaInit : List Word := (shaPrimes.take 8).map (rootFraction 2)

/-- A word rotated right. -/
def rotr (n : Nat) (x : Word) : Word := x.rotateRight n

/-- The words of a message schedule, newest first, extended by `n` words. -/
def shaExtend : Nat → List Word → List Word
  | 0, w => w
  | n + 1, w =>
    let a := w.getD 1 0
    let b := w.getD 14 0
    let s0 := rotr 7 b ^^^ rotr 18 b ^^^ (b >>> 3)
    let s1 := rotr 17 a ^^^ rotr 19 a ^^^ (a >>> 10)
    shaExtend n ((w.getD 15 0 + s0 + w.getD 6 0 + s1) :: w)

/-- One round: the working words a to h, a round constant and a schedule word. -/
def shaRound (v : List Word) (kw : Word × Word) : List Word :=
  match v with
  | [a, b, c, d, e, f, g, h] =>
    let t1 := h + (rotr 6 e ^^^ rotr 11 e ^^^ rotr 25 e) + ((e &&& f) ^^^ (~~~e &&& g)) + kw.1 + kw.2
    let t2 := (rotr 2 a ^^^ rotr 13 a ^^^ rotr 22 a) + ((a &&& b) ^^^ (a &&& c) ^^^ (b &&& c))
    [t1 + t2, a, b, c, d + t1, e, f, g]
  | _ => v

/-- One block of 16 words, in network order. -/
def shaBlock (h : List Word) (block : List Word) : List Word :=
  let w := (shaExtend 48 block.reverse).reverse
  List.zipWith (· + ·) h ((List.zip shaK w).foldl shaRound h)

/-- The words that bytes spell in network order. -/
def shaWords (bs : List Byte) : List Word := (List.range (bs.length / 4)).map fun i => BitVec.ofNat 32 (nfld bs (4 * i) 4)

/-- A message with its padding. -/
def shaPad (bs : List Byte) : List Byte :=
  bs ++ [0x80] ++ List.replicate ((119 - bs.length % 64) % 64) 0 ++ be 8 (8 * bs.length)

/-- SHA-256 of a message. -/
def sha256 (bs : List Byte) : List Byte :=
  let w := shaWords (shaPad bs)
  let h := (List.range (w.length / 16)).foldl (fun h i => shaBlock h ((w.drop (16 * i)).take 16)) shaInit
  h.flatMap fun x => be 4 x.toNat

/-- HMAC-SHA-256 under a key of at most 64 bytes. -/
def hmac256 (key msg : List Byte) : List Byte :=
  let k := padTo 64 0 key
  sha256 (k.map (· ^^^ 0x5C) ++ sha256 (k.map (· ^^^ 0x36) ++ msg))

/-- The 16-byte code that authorises a command: its nonce, its opcode, the part code and what follows (R469, R480). -/
def authCode (s : State) (nonce : BitVec 64) (group op : Nat) (rest : List Byte) : Option (List Byte) :=
  s.test.keys.map fun k => (hmac256 k.2 (le 8 nonce.toNat ++ [BitVec.ofNat 8 group, BitVec.ofNat 8 op] ++ be 2 s.part.code ++ rest)).take 16

/-- The authorisation step (R83): AUTH_REQUIRED without a valid nonce, AUTH_FAILED where the code does not verify. -/
def authFail (s : State) (nonce : Option Nonce) (group op : Nat) (rest code : List Byte) : Fail :=
  match nonce with
  | none => some (0x40, 0)
  | some n =>
    if n.atPs + 10000 * 10 ^ 9 < s.clk.ps then some (0x40, 0)
    else failIf (authCode s n.value group op rest != some code) 0x41 0

end Sys2Proof.Machine
end

