-- ==== Sys2Proof/Machine/Flowstone.lean ====
section
/-! DEFINITION. Flowstone's commands: reading and clearing the log, its writes to MRAM and its cursor window (R460, R462, R467 to
R472). -/

namespace Sys2Proof.Machine

/-! ### LOG_READ -/

/-- The records that LOG_READ copies from a first number (R467): those up to the horizon that are not before it. -/
def inRead (first horizon : BitVec 32) (r : LogRec) : Bool := decide ((horizon - r.seq).toNat ≤ (horizon - first).toNat)

/-- The first number lies above the horizon, modulo 2^32 (R467). -/
def aboveHorizon (first horizon : BitVec 32) : Bool :=
  let d := (first - horizon).toNat
  decide (0 < d) && decide (d < 2 ^ 31)

/-- The records that LOG_READ copies: at most `most`, all where it is 0 (R467). -/
def readRecs (s : State) (first : BitVec 32) (most room : Nat) : List LogRec :=
  match newest s.flow with
  | none => []
  | some n =>
    if aboveHorizon first n.seq then []
    else (s.flow.log.filter (inRead first n.seq)).take (if most = 0 then room else min most room)

/-- The first record in range is no longer held (R468). -/
def readLost (s : State) (first : BitVec 32) : Bool :=
  match newest s.flow, oldest s.flow with
  | some n, some o => !aboveHorizon first n.seq && decide ((n.seq - o.seq).toNat < (n.seq - first).toNat)
  | _, _ => false

/-- LOG_READ's result (R467): horizon, records written, OPEN, LOG_DEGRADED. -/
def readResult (s : State) (rs : List LogRec) : Nat :=
  let isOpen := s.flow.open_.isSome && rs != [] && rs.getLast? == newest s.flow
  ((newest s.flow).map fun r => r.seq.toNat).getD 0 + rs.length % 65536 * 2 ^ 32 + flagAt isOpen 48 + flagAt s.flow.degraded 49

/-- LOG_READ (R467, R468). -/
def execLogRead (tag : BitVec 8) (wr : Bool) : State → Host.Outcome State Fault Refusal :=
  run (withCmd 0x0901 tag fun c s =>
    checked c ([lenCheck c 8 true, epochFail c s, busyFail s (some 32)] ++ descChecks c 4 ++ [failIf (c.bufLen % 32 != 0) 0x11 24])
      (fun s =>
        let first := BitVec.ofNat 32 (pF c 0 4)
        let rs := readRecs s first (pF c 4 4) (c.bufLen / 32)
        let status := if readLost s first then 1 else 0
        match outBuffer c wr (rs.flatMap recBytes) s with
        | some s' => finish c status (readResult s rs) s'
        | none => if rs = [] then finish c status (readResult s rs) s else finish c 0x11 16 s) s)

/-! ### LOG_CLEAR -/

/-- LOG_CHALLENGE (R83). -/
def execLogChallenge (tag : BitVec 8) : State → Host.Outcome State Fault Refusal :=
  run (withCmd 0x0902 tag fun c s => checked c [lenCheck c 0 false, epochFail c s] (fun s =>
    let n := drawn s
    let s := draw { s with cmdq := { s.cmdq with logNonce := some { value := n, atPs := s.clk.ps } } }
    finish c 0 n.toNat s) s)

/-- The verified LOG_CLEAR (R470): every record held goes, the Sump is emptied, and the LOG_CLEAR record is the only one held. -/
def clearLog (ok : Bool) (addr : Word) (c : Cmd) (s : State) : State :=
  let low := ((oldest s.flow).map fun r => r.seq.toNat).getD 0
  let r := newRec 0x01 srcNode (le 4 low ++ le 4 s.flow.log.length) s.flow.next s
  let s := updFlow (fun f => { f with next := f.next + 1, seqNext := f.next + 1 }) s
  if ok then
    let now := ltNs s
    let s := updFlow (fun f => { f with
      log := [r], front := 0, open_ := some { createdNs := now, latestNs := now }, dirty := false, sump := [], badRecords := 0 }) s
    finish c 0 r.seq.toNat (assertEdge 580 (assertEdge 579 s))
  else finish c 0x60 addr.toNat (mediaFailure (some r) addr s)

/-- LOG_CLEAR (R83, R469, R470). With STORE quarantined the log is in degraded mode (R483), so R470's MEDIA_FAULT and R489's
UNIT_QUARANTINED both apply at the state step; MEDIA_FAULT is given first (DESIGN CHOICE, log 70). -/
def execLogClear (tag : BitVec 8) (ok : Bool) (addr : Word) : State → Host.Outcome State Fault Refusal :=
  run (withCmd 0x0903 tag fun c s =>
    checked c [lenCheck c 16 false, refuseIf (s.test.lc == 5) s] (fun s =>
      let auth := authFail s s.cmdq.logNonce 0x09 0x03 [] (slice c.inl 0 16)
      let s := { s with cmdq := { s.cmdq with logNonce := none } }
      checked c [auth, epochFail c s, failIf s.flow.degraded 0x60 s.flow.faultAddr.toNat, quarFail s (some 32), busyFail s (some 32)]
        (clearLog ok addr c) s) s)

/-! ### Writing to MRAM -/

/-- Flowstone writes to MRAM: the unit runs, STORE is in service and the log is not degraded (R462, R473, R496). -/
def flowWrites (s : State) : Bool := running s && inService s 32 && !s.flow.degraded

/-- FLOWSTONE_MRAM_WRITE (R462, R463, R473): the oldest record of the front buffer. -/
def execFlowstoneMramWrite (ok : Bool) (addr : Word) : State → Host.Outcome State Fault Refusal :=
  run fun s =>
    if flowWrites s && decide (0 < s.flow.front) then
      if ok then frontWritten s else mediaFailure (s.flow.log[s.flow.log.length - s.flow.front]?) addr s
    else s

/-- REPEAT_REWRITE (R462, R473): the newest record's repeat fields, at most once every 100 ms while it is open. -/
def execRepeatRewrite (ok : Bool) (addr : Word) : State → Host.Outcome State Fault Refusal :=
  run fun s =>
    if flowWrites s && s.flow.dirty && s.flow.front == 0 then
      let s := match s.flow.open_, s.flow.rewritePs with
        | some _, some p => toPs (p + 100 * 10 ^ 9) s
        | _, _ => s
      if ok then
        let saved := ((newest s.flow).map fun r => (r.repeats, r.last)).getD (0, 0)
        updFlow (fun f => { f with
          dirty := false, rewritePs := some s.clk.ps, open_ := f.open_.map fun o => { o with saved := saved } }) s
      else mediaFailure (newest s.flow) addr s
    else s

/-- RECORD_CLOSE (R460): 1,000,000,000 ns of line time without a repeat. -/
def execRecordClose : State → Host.Outcome State Fault Refusal :=
  run fun s =>
    match s.flow.open_ with
    | some o => if s.clk.running then updFlow (fun f => { f with open_ := none }) (toLt ((o.latestNs + 1000000000) * unitsPerNs) s) else s
    | none => s

end Sys2Proof.Machine
end

