-- ==== Sys2Proof/Machine/PortEvents.lean ====
section
/-! DEFINITION. What happens at car ports: links, reception, transmission selection, gates, pause, low-power idle, 802.1AS and
the transmit rings (R96 to R98, R243, R244, R271, R325 to R359). -/

namespace Sys2Proof.Machine

/-! ### Links -/

/-- A car port works: the node runs, its domain is powered and its block is not quarantined (R483, R501). -/
def carWorks (s : State) (n : Nat) : Bool :=
  running s && decide (n < carPorts s.part.code) && powered s (7 + n / 4) && inService s (12 + n)

/-- The longest training of a link in ps, 1,000 ms (R325). -/
def trainLimit : Nat := 1000 * 10 ^ 9

/-- The stay in FAILED in ps, 100 ms (R325). -/
def failedTime : Nat := 100 * 10 ^ 9

/-- A backbone port's link comes up (R182, R252, R326, R359): a change of the neighbour table. -/
def bbUp (p : BPort) (s : State) : State :=
  if (bbAt s p).up then s
  else neighbourChange (reopen (.bb p) 2 (assertPort (.bb p) 0 (setBb p (fun b => { b with up := true }) s)))

/-- A backbone port's link goes down (R31, R139, R167, R179, R182, R198, R204, R359; log 22): its D, its neighbour and its holds go, its
request without an answer is lost, and all of it is one change of the neighbour table. -/
def bbDown (p : BPort) (s : State) : State :=
  if !(bbAt s p).up then s
  else
    let s := assertPort (.bb p) 0 (setBb p (fun b => { b with up := false }) s)
    let s := setEcho p (fun e => { e with
      lost := if e.t1.isSome && e.sample.isNone then sat 64 (e.lost + 1) else e.lost
      t1 := none, sample := none, block := [], poorRun := 0 }) s
    let s := delaySet p false s
    let s := setNeigh p (fun n => { n with hello := none, epoch := 0xFF, crossed := false, split := false }) s
    breakCheck (neighbourChange s)

/-- LINK_UP (R252, R325, R326, R359): training ends with the link up, within 1,000 ms of its start at a car port. -/
def execLinkUp (port : EPort) : State → Host.Outcome State Fault Refusal :=
  run fun s => match port with
    | .car n =>
      if carWorks s n && (carAt s n).link == .training && decide (s.clk.ps ≤ (carAt s n).linkPs + trainLimit) then
        lpiCheck n (setLink n .up s)
      else s
    | .bb p => if running s && !quarantined s (8 + p.idx) && !underTest s (8 + p.idx) then bbUp p s else s

/-- A unit that has cancelled a sleep sends a wake pulse on a port whose link goes down within 4 cycles after INSTANT (R517). -/
def vetoPulse (p : BPort) (s : State) : State :=
  match s.power.cancelled with
  | some ns =>
    if ns * unitsPerNs ≤ s.clk.lt ∧ s.clk.lt ≤ ns * unitsPerNs + 4 * s.time.l ∧ (bbAt s p).up = true then emit (.wakePulse p) s else s
  | none => s

/-- LINK_DOWN (R326, R327, R359, R517): a link that was up is lost; training starts again. -/
def execLinkDown (port : EPort) : State → Host.Outcome State Fault Refusal :=
  run fun s => match port with
    | .car n => if running s && carUp (carAt s n) then setLink n .training (clearPort n s) else s
    | .bb p => if running s then bbDown p (vetoPulse p s) else s

/-- LINK_TRAIN_TIMEOUT (R325): a link not up within 1,000 ms of the start of training is FAILED. -/
def execLinkTrainTimeout (port : Fin 12) : State → Host.Outcome State Fault Refusal :=
  run fun s =>
    if carWorks s port && (carAt s port).link == .training then setLink port .failed (toPs ((carAt s port).linkPs + trainLimit) s) else s

/-- LINK_FAILED_END (R325): 100 ms in FAILED are over and training starts again. -/
def execLinkFailedEnd (port : Fin 12) : State → Host.Outcome State Fault Refusal :=
  run fun s =>
    if carWorks s port && (carAt s port).link == .failed then setLink port .training (toPs ((carAt s port).linkPs + failedTime) s) else s

/-! ### Link-local frames -/

/-- Line time of a car frame's last byte. -/
def carRxEnd (s : State) (n sfd len : Nat) : Nat := sfd + carWire (carAt s n) len

/-- The queues that pause may stop (R345). -/
def pausable : List Nat := [0, 1, 2, 3, 6, 7]

/-- Elapsed ps of a number of pause quanta, 512 bit times each, on a port (R345). -/
def quantaPs (c : CarPort) (q : Nat) : Nat := q * 64 * byte5 c.mode * 200

/-- A received pause frame (R345, R358): counted; with per-priority pause enabled it stops the queues it names. -/
def pauseRx (n : Nat) (f : List Byte) (s : State) : State :=
  let op := nfld f 14 2
  if op ≠ 0x0101 ∧ op ≠ 0x0001 then s
  else
    let s := countCar n 0x78 s
    let c := carAt s n
    if !c.flags.getLsbD 2 then s
    else
      let stop (q : Nat) : Option Nat :=
        if op = 0x0001 then some (nfld f 16 2)
        else if bitOf (nfld f 16 2) q then some (nfld f (18 + 2 * q) 2) else none
      let until_ (q old : Nat) : Nat :=
        if pausable.contains q then match stop q with
          | some x => s.clk.ps + quantaPs c x
          | none => old
        else old
      setCar n (fun c => { c with pausedUntil := c.pausedUntil.mapIdx until_ }) s

/-- The Receive Tw in µs of the EEE TLV among the TLVs of an LLDP frame (R346; log 23). -/
def eeeTw : Nat → List Byte → Option Nat
  | 0, _ => none
  | fuel + 1, bs =>
    let h := nfld bs 0 2
    let ty := h / 512
    let len := h % 512
    if bs.length < 2 ∨ ty = 0 then none
    else if ty = 127 ∧ nfld bs 2 3 = 0x00120F ∧ fld bs 5 1 = 5 ∧ 8 ≤ len then some (nfld bs 8 2)
    else eeeTw fuel (bs.drop (2 + len))

/-- A received LLDP frame (R346): a Receive Tw of up to 100,000 ns is accepted. -/
def lldpRx (n : Nat) (f : List Byte) (s : State) : State :=
  match eeeTw 64 (f.drop 14) with
  | some us => lpiCheck n (setCar n (fun c => { c with partnerTw := if us * 1000 ≤ 100000 then some (us * 1000) else none }) s)
  | none => s

/-- Seconds, nanoseconds and fraction of a line time (R348). -/
def asTime (lt : Nat) : Nat × Nat × Nat := (lt / unitsPerNs / 10 ^ 9, lt / unitsPerNs % 10 ^ 9, lt % unitsPerNs)

/-- A received 802.1AS message (R328, R348, R349, R359): Pdelay_Req is answered, a Pdelay_Resp taken, the rest ignored. -/
def asRx (n sfd : Nat) (f : List Byte) (s : State) : State :=
  if !(carAt s n).asOn then s
  else
    let ty := fld f 14 1 % 16
    let t := asTime sfd
    if ty = 2 then countCar n 0x08 (emit (.asPdelayResp n t.1 t.2.1 t.2.2) s)
    else if ty = 3 then setCar n (fun c => { c with asPeerPs := s.clk.ps, asNoPeer := false }) s
    else s

/-- A frame goes to the port's receive ring with flags of R352. -/
def toPortRing (n sfd flags : Nat) (f : List Byte) (s : State) : State := toRing (carAt s n).rxRing n (withFcs f) flags sfd n s

/-- A link-local frame (R97, R330). -/
def linkLocalRx (n sfd : Nat) (f : List Byte) (s : State) : State :=
  let ty := nfld f 12 2
  if ty = 0x88F7 then asRx n sfd f s
  else if ty = 0x8808 then pauseRx n f s
  else if ty = 0x88CC then toPortRing n sfd (2 ^ 9) f (lldpRx n f s)
  else toPortRing n sfd (2 ^ 9) f s

/-! ### Reception -/

/-- The learned local address follows a unicast SA (R96). -/
def learnSa (n : Nat) (a : Mac) (s : State) : State :=
  if isGroup a then s
  else
    let old := (carAt s n).learned
    let s := setCar n (fun c => { c with learned := some a }) s
    if old.isSome && old != some a then
      let s := countCar n 0x20 s
      if h : n < 12 then assertPort (.car ⟨n, h⟩) 10 s else s
    else s

/-- Bytes of a frame that a mask selects, in ascending order; none where it selects one beyond the frame (R357). -/
def selected (mask : BitVec 128) (f : List Byte) : Option (List Byte) :=
  ((List.range 128).filter fun i => mask.getLsbD i).foldr (fun i r => match r, f[i]? with
    | some bs, some b => some (b :: bs)
    | _, _ => none) (some [])

/-- A frame matches an enabled wake pattern of a port (R357). -/
def wakeMatch (c : CarPort) (f : List Byte) : Bool :=
  c.patterns.any fun p => p.2.mask != 0 && (selected p.2.mask f).any fun bs => crc16 bs == p.2.check

/-- Step 5 of R329: a wake match copies the frame, and ends Doze (R357, R506). -/
def wakeStep (n sfd : Nat) (bytes : List Byte) (s : State) : State :=
  if wakeMatch (carAt s n) bytes then
    let s := countCar n 0x90 s
    let s := if h : n < 12 then assertPort (.car ⟨n, h⟩) 6 s else s
    dozeExit [13] (toRing (carAt s n).rxRing n bytes (2 ^ 7) sfd n s)
  else s

/-- The chambers in which the node releases a stream, in the tables in force: START with whole cycles of LAG. -/
def sourceStarts (s : State) (k : Nat) : List Nat :=
  BPort.all.flatMap fun p => ((banksOf s p).active.filter fun e => e.context == k && releasesAt s e).map fun e => e.start + e.lag * s.time.l

/-- A line time lies in an intake window of a stream (R243). -/
def intakeOpen (s : State) (x : Ctx) (sfd : Nat) : Bool :=
  match sourceStarts s x.canon.context with
  | [] => false
  | t :: ts =>
    let first := ts.foldl min t
    let last := ts.foldl max t
    let k := cycleOf s sfd
    (List.range (canonM s.time.hyper x.canon + 2)).any fun i =>
      let sc := k + i
      usesCycle s x.canon sc && decide (boundary s sc + first ≤ sfd + x.intake * unitsPerNs)
        && decide (sfd + 800 * unitsPerNs < boundary s sc + last)

/-- A TT frame that the source guardian drops; a violation where it has a kind (R244, R251). -/
def dropSource (n : Nat) (kind : Option Nat) (s : State) : State :=
  let s := countCar n 0x30 s
  match kind with
  | some x => if h : n < 12 then violation (.car ⟨n, h⟩) x s else s
  | none => s

/-- The source port's ingress is closed (R251). -/
def carClosed (s : State) (n : Nat) : Bool := (s.gallery.ingress.getD (4 + n) {}).closed

/-- A TT frame at the source port of a contract (R244, R251, R257, R271). `f` comes without FCS. -/
def ttAtSource (n sfd : Nat) (x : Ctx) (f : List Byte) (s : State) : State :=
  let c := x.canon
  let len := f.length + 4
  match c.state with
  | .placed =>
    if !intakeOpen s x sfd then dropSource n (some 5) s
    else if c.contract.maxlen < len then dropSource n (some 4) s
    else if carClosed s n then dropSource n none s
    else acceptSource n c.context (withSa f (carMac s n)) s
  | .loc =>
    if c.contract.maxlen < len then dropSource n (some 6) s
    else if carClosed s n then dropSource n none s
    else if s.gallery.waiting then s
    else
      let g := withSa f (carMac s n)
      let mask := deliverMask c s.survey.position
      deliverTt mask c.context g s
  | _ => countCar n 0x40 s

/-- The DA of an RC or BE frame from a car port is resolved (R333). -/
def resolveCar (n sfd len : Nat) (f : List Byte) (s : State) : State :=
  let da := frDa f
  if isGroup da then spreadGroup (.car n len sfd) f s
  else if isTrainMac da then toTrainMac (.car n len sfd) f s
  else if (carAt s n).filters.any fun x => x.2.enable && x.2.addr == da then toPortRing n sfd (2 ^ 8) f s
  else countCar n 0x50 s

/-- Steps 7 and 8 of R329 for an RC or BE frame: SA, address resolution, DA; then the pause logic of R345. -/
def passCar (n sfd len : Nat) (f : List Byte) (s : State) : State :=
  let g := withSa f (carMac s n)
  let g := match (carAt s n).learned with
    | some a => resolveIn a (carMac s n) g
    | none => g
  pauseCheck n (resolveCar n sfd len g s)

/-- A BE frame finds no room at ingress: pause is disabled and 65,536 bytes are held (R345). -/
def ingressFull (s : State) (n len : Nat) : Bool := !(carAt s n).flags.getLsbD 2 && decide (65536 < heldBytes s n + len)

/-- Step 6 of R329 (R98, R335, R345): the class of a frame, and where it goes on. -/
def classCar (n sfd : Nat) (f : List Byte) (s : State) : State :=
  let len := f.length + 4
  let be (f : List Byte) (s : State) : State := if ingressFull s n len then countCar n 0x60 s else passCar n sfd len f s
  if isTagged f && frPcp f == 6 then
    match ctxOfPort s n with
    | some x => ttAtSource n sfd x f s
    | none => be (demote f) (countCar n 0x28 s)
  else if isRc f then
    let r := police s.clk.ps len (carAt s n).bucket
    let s := setCar n (fun c => { c with bucket := r.1 }) s
    if r.2 then passCar n sfd len f s else countCar n 0x58 s
  else be f s

/-- Error flags of a bad frame (R352): FCS_ERR, MARKED, RUNT, OVERSIZE. -/
def badFlags (bytes : List Byte) : Nat :=
  let how := fcsOf bytes
  flagAt (how != .good) 3 + flagAt (how == .marked) 4 + flagAt (decide (bytes.length < 64)) 5
    + flagAt (!lengthOk bytes && decide (64 ≤ bytes.length)) 6

/-- A frame that fails step 1 or 2 of R329 is kept where RX_KEEP_BAD is set. -/
def dropBad (n sfd off : Nat) (bytes : List Byte) (s : State) : State :=
  let s := countCar n off s
  if (carAt s n).flags.getLsbD 0 then keepBad n bytes (badFlags bytes) sfd n s else s

/-- A standby's car port answers Pdelay_Req and discards every other frame (R328). -/
def standbyRx (n sfd : Nat) (f : List Byte) (s : State) : State :=
  if isLinkLocalDa (frDa f) && nfld f 12 2 == 0x88F7 && fld f 14 1 % 16 == 2 then asRx n sfd f s else s

/-- A frame is received on a car port (R329). -/
def carReceive (n sfd : Nat) (bytes : List Byte) (s : State) : State :=
  if !lengthOk bytes then dropBad n sfd 0x18 bytes s
  else if fcsOf bytes != .good then dropBad n sfd 0x10 bytes s
  else
    let s := countCar n 0x00 s
    let f := stripFcs bytes
    if !isActive s then standbyRx n sfd f s
    else if isLinkLocalDa (frDa f) then linkLocalRx n sfd f s
    else classCar n sfd f (wakeStep n sfd bytes (learnSa n (frSa f) s))

/-- CAR_RX_FRAME (R329): a frame is received whole. -/
def execCarRxFrame (port : Fin 12) (sfd : Nat) (bytes : List Byte) : State → Host.Outcome State Fault Refusal :=
  run fun s =>
    if carWorks s port && carUp (carAt s port) then
      carReceive port sfd bytes (toLt (carRxEnd s port sfd bytes.length) s)
    else s

/-! ### Gates -/

/-- What is left of stretches after a time. -/
def skipSegs : Nat → List (Nat × BitVec 32) → List (Nat × BitVec 32)
  | _, [] => []
  | t, (d, g) :: r => if t < d then (d - t, g) :: r else skipSegs (t - d) r

/-- How long a queue's gate stays open from the start of stretches, and whether to their end. -/
def openRun (q : Nat) : List (Nat × BitVec 32) → Nat × Bool
  | [] => (0, true)
  | (d, g) :: r =>
    if d = 0 ∨ g.getLsbD q then
      let x := openRun q r
      (d + x.1, x.2)
    else (0, false)

/-- The list that runs in the i-th hyper-period after the present one (R343). -/
def nextGates (s : State) (c : CarPort) (i : Nat) : List Gate :=
  let next := (cycleNow s / s.time.hyper + i) * s.time.hyper
  match c.gateDue with
  | some (_, due, l) => if due ≤ next then l else c.gates
  | none => c.gates

/-- How long the gate of a queue stays open from now (R340, R343), as far as the end of the second hyper-period to come: beyond the wire
time of any frame. -/
def openFor (s : State) (c : CarPort) (q : Nat) : Nat :=
  (openRun q (skipSegs (hyperPhase s) (gateSegs (hyperLen s) c.gates)
    ++ gateSegs (hyperLen s) (nextGates s c 1) ++ gateSegs (hyperLen s) (nextGates s c 2))).1

/-- The longest stretch of one queue's open time within stretches taken once. -/
def longestRun (q : Nat) : Nat → List (Nat × BitVec 32) → Nat
  | best, [] => best
  | best, (d, g) :: r => longestRun q (max best (openRun q ((d, g) :: r)).1) r

/-- A queue's longest stretch of open time, the end of the hyper-period joined to its start (R344); none where it never closes. -/
def longestOpen (s : State) (c : CarPort) (q : Nat) : Option Nat :=
  let segs := gateSegs (hyperLen s) c.gates
  if (openRun q segs).2 then none else some (longestRun q 0 (segs ++ segs))

/-- Wire time of a frame on a car port (R340). -/
def carFrameWire (c : CarPort) (x : TxFrame) : Nat := carWire c (wireLen x.bytes + 20)

/-- Frames at the heads of the queues that can never leave are dropped and counted GATE_OVERSIZE (R344); they are held no more (R345). -/
def dropOversize (n : Nat) (s : State) : State :=
  let c := carAt s n
  let large (q : Nat) (x : TxFrame) : Bool := (longestOpen s c q).any fun m => decide (m < carFrameWire c x)
  let lost := (c.queues.mapIdx fun q l => l.takeWhile (large q)).flatten
  if lost = [] then s
  else
    let s := setCar n (fun c => { c with
      queues := c.queues.mapIdx fun q l => l.dropWhile (large q), counters := bumpBy 0x70 lost.length c.counters }) s
    sweepTx (lost.foldl (fun s x => frameStarts x.src s) s)

/-- GATE_ENTRY (R126, R342): the next entry of the list takes effect at the first FABCLK tick at or after its line time. -/
def execGateEntry (port : Fin 12) : State → Host.Outcome State Fault Refusal :=
  run fun s =>
    let c := carAt s port
    match c.gates[c.gateIdx + 1]? with
    | some g =>
      if running s && decide (c.gateNext < boundary s ((cycleOf s c.gateNext / s.time.hyper + 1) * s.time.hyper)) then
        setCar port (fun c => { c with gateIdx := c.gateIdx + 1, gateNext := c.gateNext + g.interval * unitsPerNs }) (toTick (toLt c.gateNext s))
      else s
    | none => s

/-! ### Transmission -/

/-- A queue is stopped by a received pause (R345). -/
def pausedNow (s : State) (c : CarPort) (q : Nat) : Bool := q < 8 && decide (s.clk.ps < c.pausedUntil.getD q 0)

/-- The head of a queue, if it may start now (R340, R345). -/
def mayLeave (s : State) (c : CarPort) (q : Nat) : Option TxFrame :=
  match (c.queues.getD q []).head? with
  | some x => if !pausedNow s c q && decide (carFrameWire c x < openFor s c q + 1) then some x else none
  | none => none

/-- The TT frame that joined its queue first among those that may start (R340). -/
def firstTt (s : State) (c : CarPort) : Option (Nat × TxFrame) :=
  (((List.range 24).map (· + 8)).filterMap fun q => (mayLeave s c q).map fun x => (q, x)).foldl (fun b y => match b with
    | some z => if y.2.joined < z.2.joined then some y else b
    | none => some y) none

/-- The next frame of a car port (R340). -/
def nextCar (s : State) (c : CarPort) : Option (Nat × TxFrame) :=
  match firstTt s c with
  | some x => some x
  | none => [5, 4, 7, 6, 3, 2, 1, 0].findSome? fun q => (mayLeave s c q).map fun x => (q, x)

/-- A frame starts on a car port (R340, R345). -/
def startCar (n q : Nat) (x : TxFrame) (s : State) : State :=
  let s := emit (.car n (withFcs (padTo (max 60 x.bytes.length) 0 x.bytes))) (setCar n (fun c => { c with
    queues := c.queues.modify q (fun l => l.drop 1), sending := some x, sendingQ := q,
    freeAt := s.clk.lt + carFrameWire c x }) s)
  frameStarts x.src s

/-- CAR_EGRESS_START (R328, R340, R344, R345): the next frame in order starts. -/
def execCarEgressStart (port : Fin 12) : State → Host.Outcome State Fault Refusal :=
  run fun s =>
    let c := carAt s port
    if carWorks s port && c.link == .up && c.sending.isNone && isActive s then
      let s := dropOversize port (toLt c.freeAt s)
      match nextCar s (carAt s port) with
      | some (q, x) => startCar port q x s
      | none => lpiCheck port s
    else s

/-! ### Low-power idle -/

/-- The line time at which a port leaves low-power idle, if any does (R347): Tw after the first frame joined a queue, or Tw + 2,000 ns
before the next due delivery, whichever comes first. -/
def lpiEnd (s : State) (n tw : Nat) : Option Nat :=
  let joined := ((carAt s n).queues.flatten).map fun x => x.joined + tw * unitsPerNs
  match joined ++ ((nextDue s n).map fun t => t - lpiLead tw).toList with
  | [] => none
  | t :: ts => some (ts.foldl min t)

/-- LPI_EXIT (R347). The wake takes Tw: a port that leaves for a due delivery sends nothing before it is over, and one that a frame has
woken has waited it out. -/
def execLpiExit (port : Fin 12) : State → Host.Outcome State Fault Refusal :=
  run fun s =>
    let c := carAt s port
    if running s && c.link == .upLpi then
      let tw := c.partnerTw.getD 0
      match lpiEnd s port tw with
      | some t =>
        let ready := if c.queues.flatten = [] then t + tw * unitsPerNs else t
        setLink port .up (setCar port (fun c => { c with freeAt := max c.freeAt ready }) (toLt t s))
      | none => s
    else s

/-- The age of a slice whose last frame has left the lowest DELIVER port (R302, R308, R321). -/
def noteAge (k : Nat) (stamp : Option Nat) (endLt : Nat) (s : State) : State :=
  let age := match stamp with
    | some c => min 0xFFFFFFFE (endLt / unitsPerNs - c)
    | none => 0xFFFFFFFF
  setVsu k (fun v => { v with age := age }) s

/-- A copy of a transmit-ring frame has left the MDI (R354, R355). A frame of a car port's ring is stamped if it asks for it and the FIFO
has room; write-backs that can be made are made, in order. One of the host station is written back when no copy of it waits any more. -/
def txSent (n : Nat) (t : TxTag) (sfd : Nat) (stall : Bool) (s : State) : State :=
  if (txRing s t.ring).port = some 0x80 then sweepTx s
  else
  let used := ((carAt s n).stalls.filter fun x => x.at_.isSome).length
  let lost := t.stamp && decide (64 ≤ used)
  let x : Stall := { tag := t, flags := txFlags lost false, at_ := if t.stamp && !lost then some sfd else none }
  let s := if lost then
      let s := countCar n 0xA8 s
      if h : n < 12 then assertPort (.car ⟨n, h⟩) 5 s else s
    else s
  let s := setCar n (fun c => { c with stalls := c.stalls ++ [x] }) s
  if stall then s else flushStalls n s

/-- CAR_FRAME_SENT (R308, R354, R355, R358): the frame on the wire has left the port. -/
def execCarFrameSent (port : Fin 12) (sfd : Nat) (stall : Bool) : State → Host.Outcome State Fault Refusal :=
  run fun s =>
    let c := carAt s port
    match c.sending with
    | none => s
    | some x =>
      if !running s then s
      else
        let endLt := sfd + carWire c (wireLen x.bytes)
        let s := toLt endLt (setCar port (fun c => { c with sending := none }) s)
        let s := countCar port 0x08 s
        let s := if 8 ≤ c.sendingQ then countCar port 0xB8 s else s
        let s := match x.slice with
          | some (k, stamp) => noteAge k stamp endLt s
          | none => s
        let s := match x.tx with
          | some t => txSent port t sfd stall s
          | none => s
        lpiCheck port s

/-! ### Pause, LLDP and 802.1AS -/

/-- PAUSE_EXPIRY (R345): the quanta of a received pause are over for the queue whose pause ends first. -/
def execPauseExpiry (port : Fin 12) : State → Host.Outcome State Fault Refusal :=
  run fun s =>
    if !running s then s
    else match ((carAt s port).pausedUntil.filter fun t => decide (s.clk.ps < t)) with
      | [] => s
      | t :: ts => toPs (ts.foldl min t) s

/-- PAUSE_REFRESH (R345): 32,768 quanta after a pause frame, while more than 49,152 bytes are still held. -/
def execPauseRefresh (port : Fin 12) : State → Host.Outcome State Fault Refusal :=
  run fun s =>
    let c := carAt s port
    if carWorks s port && carUp c && isActive s && c.flags.getLsbD 2 && c.pausing && decide (49152 < heldBytes s port) then
      sendPause port 0xFFFF (toPs (c.pausePs + quantaPs c 32768) s)
    else s

/-- The node may send on a car port by its own action: the port works, its link is up and the unit is active (R328). -/
def mayOriginate (s : State) (n : Nat) : Bool := carWorks s n && carUp (carAt s n) && isActive s

/-- LLDP_SEND (R346): every 30,000 ms with low-power idle configured, advertising the PHY's minimum wake time in the port's mode and echoing
the accepted Receive Tw. -/
def execLldpSend (port : Fin 12) : State → Host.Outcome State Fault Refusal :=
  run fun s =>
    if mayOriginate s port && (carAt s port).flags.getLsbD 1 then
      let tw := Config.minWake (carAt s port).mode
      countCar port 0x08 (emit (.lldp port (trainMac s.survey.position 0) tw tw ((carAt s port).partnerTw.getD 0)) s)
    else s

/-- A message of the time-aware bridge leaves a port on which 802.1AS is enabled (R348, R349). -/
def asSend (n : Nat) (o : State → Out) (s : State) : State :=
  if mayOriginate s n && (carAt s n).asOn then countCar n 0x08 (emit (o s) s) else s

/-- AS_SYNC_SEND (R348, R358): Sync and Follow_Up with line time, two frames. -/
def execAsSyncSend (port : Fin 12) : State → Host.Outcome State Fault Refusal :=
  run fun s =>
    let t := asSend port (fun s => .asSync port (asTime s.clk.lt).1 (asTime s.clk.lt).2.1 (asTime s.clk.lt).2.2) s
    if mayOriginate s port && (carAt s port).asOn then countCar port 0x08 t else t

/-- AS_ANNOUNCE_SEND (R348): Announce with priority1 1. -/
def execAsAnnounceSend (port : Fin 12) : State → Host.Outcome State Fault Refusal := run (asSend port fun _ => .asAnnounce port 1)

/-- AS_PDELAY_SEND (R348): the node's own Pdelay_Req. -/
def execAsPdelaySend (port : Fin 12) : State → Host.Outcome State Fault Refusal :=
  run (asSend port fun s => .asPdelayReq port (asTime s.clk.lt).1 (asTime s.clk.lt).2.1 (asTime s.clk.lt).2.2)

/-- AS_NO_PEER (R359): no Pdelay_Resp has been valid for 3,000 ms. -/
def execAsNoPeer (port : Fin 12) : State → Host.Outcome State Fault Refusal :=
  run fun s =>
    let c := carAt s port
    if running s && c.asOn && !c.asNoPeer then setCar port (fun c => { c with asNoPeer := true }) (toPs (c.asPeerPs + 3000 * 10 ^ 9) s)
    else s

/-! ### Transmit rings -/

/-- The bytes of a frame's buffers. -/
def txData (descs : List TxDesc) : List Byte := descs.flatMap fun d => d.data

/-- The descriptors make one frame, FIRST to LAST (R352, R354). -/
def wholeFrame : List TxDesc → Bool
  | [] => false
  | d :: t => d.first && (t.all fun x => !x.first) && ((d :: t).getLast?.any fun x => x.last)
      && ((d :: t).dropLast.all fun x => !x.last)

/-- A frame is too long to send (R354). -/
def txTooLong (f : List Byte) : Bool := decide ((if isTagged f then 1518 else 1514) < f.length)

/-- A frame of the host station enters the backbone or its local station (R98, R114, R116, R354); PCP 6 becomes BE. -/
def hostFrame (t : TxTag) (f : List Byte) (s : State) : State :=
  let f := padTo (max 60 f.length) 0 f
  let f := withSa (if isTagged f && frPcp f == 6 then demote f else f) (ownMac s)
  if isGroup (frDa f) then spreadGroup (.host (some t)) f s
  else if isTrainMac (frDa f) then toTrainMac (.host (some t)) f s
  else s

/-- A frame of a car port's ring joins an egress queue of the port (R96, R332, R338, R354). -/
def carRingFrame (n : Nat) (t : TxTag) (f : List Byte) (s : State) : State :=
  let f := readdressOut s n (withSa (padTo (max 60 f.length) 0 f) (trainMac s.survey.position 0))
  if isActive s then joinCar n (frPcp f) { bytes := f, joined := s.clk.lt, tx := some t } s else s

/-- TX_FRAME_READ (R351, R352, R354): the node has read every buffer of the next frame of a ring. -/
def execTxFrameRead (ring : Fin 64) (descs : List TxDesc) : State → Host.Outcome State Fault Refusal :=
  run fun s =>
    let g := txRing s ring
    match g.port with
    | none => s
    | some port =>
      if !(serving s && g.unbinding.isNone && wholeFrame descs && decide (descs.length ≤ posted g)) then s
      else
        let f := txData descs
        let t : TxTag := { ring := ring, desc := g.head, count := descs.length, stamp := port != 0x80 && descs.any fun d => d.first && d.stamp }
        let s := setTx ring (fun g => { g with head := (g.head + descs.length) % ringLen g.log2 }) s
        if txTooLong f then
          let s := if port < 12 then countCar port 0xB0 s else s
          txWriteBack { tag := t, flags := txFlags false true, at_ := none } s
        else
          let s := { s with rings := { s.rings with owed := s.rings.owed ++ [t] } }
          sweepTx (if port = 0x80 then hostFrame t f s else carRingFrame port t f s)

end Sys2Proof.Machine
end

