-- ==== Sys2Proof/Machine/TestOps.lean ====
section
/-! DEFINITION. The self-test engine's blocks, what the autonomous plan may test when, results and tests cut short (R13, R483,
R484, R491, R493, R496). -/

namespace Sys2Proof.Machine

/-- The self-test state changed by a function. -/
def updTest (f : SelfTest → SelfTest) (s : State) : State := { s with test := f s.test }

/-- A block admits a kind of test (R483). -/
def admits (b : Nat) (k : TestKind) : Bool :=
  match k with
  | .logic => decide (b < 33)
  | .loopback => (decide (8 ≤ b) && decide (b ≤ 23)) || b == 31
  | .reference => b == 33

/-- The pattern target of a block (R483); 0 for other kinds than logic. -/
def target (b : Nat) : Nat :=
  if b ≤ 5 ∨ b = 30 then 4080
  else if b ≤ 23 then 2048
  else if b ≤ 29 then 512
  else if b = 33 then 0
  else 1024

/-- Codes of the kinds (R490). -/
def kindCode : TestKind → Nat
  | .logic => 0
  | .loopback => 1
  | .reference => 2

/-- The kind of a code (R490). -/
def kindOf (n : Nat) : Option TestKind :=
  match n with
  | 0 => some .logic
  | 1 => some .loopback
  | 2 => some .reference
  | _ => none

/-- The kinds that a plan entry or a command names agree. -/
def sameKind (a b : TestKind) : Bool := kindCode a == kindCode b

/-! ### The autonomous plan -/

/-- A car port sources no stream, is named in no DELIVER and no LOCAL service, and has nothing queued (R496). -/
def portIdle (s : State) (n : Nat) : Bool :=
  let c := carAt s n
  (s.planner.ctxs.all fun e => !(sourcedHere s e.1 && e.2.canon.contract.srcPort == n && (e.2.canon.state == .placed || e.2.canon.state == .loc)))
    && c.ttStreams == [] && c.queues.all (fun q => q == []) && c.sending.isNone && c.stalls == []

/-- The table of R496 admits a test of a block in a role, in the state as it stands: `act` for the active unit. -/
def eligibleTest (s : State) (act : Bool) (b : Nat) (k : TestKind) : Bool :=
  if !admits b k then false
  else match k with
    | .loopback =>
      if b ≤ 11 then 8 ≤ b && !((s.bb.getD (b - 8) {}).up)
      else decide (b ≤ 23) && (carAt s (b - 12)).mode == 0
    | .reference => true
    | .logic =>
      if b = 3 ∨ b = 4 then
        !act && !(s.test.tests.any fun t => t.origin == 2 && t.block != b && (t.block == 3 || t.block == 4) && decide (0 < t.slices))
      else if b < 12 then false
      else if b ≤ 23 then !act || portIdle s (b - 12)
      else if b ≤ 25 then !act
      else if b ≤ 29 then !act || (canAt s (b - 26)).state == .off
      else if b = 30 then !act || !(s.vsu.any fun e => e.2.configured && vsuRole s e.1)
      else b == 32

/-- The plan runs in FIELD and MAINTENANCE (R477, R496). -/
def planRuns (s : State) : Bool := s.test.lc == 3 || s.test.lc == 4

/-- An autonomous test may be in progress now (R491, R496). -/
def mayContinue (s : State) (t : Test) : Bool := t.origin != 2 || (planRuns s && eligibleTest s (!isStandby s) t.block t.kind)

/-! ### Results -/

/-- The result of a test that ends (R493). -/
def resultOfTest (s : State) (t : Test) (outcome : Nat) (done : Bool) (misr : BitVec 64) (detail : BitVec 16) (m1 m2 : Int) : TestResult :=
  { kind := t.kind, outcome := outcome, complete := done, folded := done && t.kind == .logic, target := done && t.kind == .logic
    autonomous := t.origin == 2, boot := t.origin == 1, patterns := t.patterns, misr := misr, endNs := ltNs s, slices := t.slices
    detail := detail, lost := t.lost, measure1 := m1, measure2 := m2 }

/-- The result of a block (R493). -/
def setResult (b : Nat) (r : TestResult) (s : State) : State := updTest (fun x => { x with results := tabPut x.results b r }) s

/-- After a loopback run a car port's link trains again (R325, R484). -/
def retrain (t : Test) (s : State) : State :=
  if t.kind = .loopback ∧ (t.running = true ∨ t.slices ≠ 0) ∧ 12 ≤ t.block ∧ t.block ≤ 23 ∧ (carAt s (t.block - 12)).mode ≠ 0 then
    trainLink (t.block - 12) s
  else s

/-- A test is no longer under way. -/
def dropTest (t : Test) (s : State) : State := retrain t (updTest (fun x => { x with tests := x.tests.erase t }) s)

/-- A test is cut short (R485, R490, R491): ST_CUT is written, and a host's ST_RUN completes with ABORTED and a cause. -/
def cutTest (cause : Nat) (t : Test) (s : State) : State :=
  let s := setResult t.block (resultOfTest s t 3 false t.misr 0 0 0) (dropTest t s)
  let s := updTest (fun x => { x with sliceEndPs := if t.running then s.clk.ps else x.sliceEndPs }) s
  let s := logEvent 0xC3 srcNode (byte1 t.block ++ byte1 (kindCode t.kind) ++ byte1 t.origin) s
  match t.tag with
  | some tag => finishTag tag 0x80 cause (assertEdge 544 s)
  | none => s

/-- Every test that a condition names is cut short (R491). -/
def cutTests (p : Test → Bool) (s : State) : State := (s.test.tests.filter p).foldl (fun s t => cutTest (Config.cutCause s.clk.draws).toNat t s) s

/-- Autonomous tests whose block has become ineligible are cut short (R491). -/
def cutIneligible (s : State) : State := cutTests (fun t => !mayContinue s t) s

/-- ACTL rises at a standby (R491): autonomous tests on blocks that the active role does not admit are cut short. -/
def cutForTakeover (s : State) : State := cutTests (fun t => t.origin == 2 && !eligibleTest s true t.block t.kind) s

end Sys2Proof.Machine
end

