-- ==== Sys2Proof/Machine/Can.lean ====
section
/-! DEFINITION. What happens on a CAN bus: reception, transmission, errors and states, the schedule matrix, the stamps, and a
twin's standby (R381 to R404, R407). -/

namespace Sys2Proof.Machine

/-! ### Stamps -/

/-- The 10 MHz counter of a controller (R403). -/
def canCounter (s : State) (n : Nat) : Word := Config.canCount n + w32 (s.clk.ps / 100000)

/-- Line time of an SOF stamp in ns, by the latest boundary at or before the SOF (R404; DESIGN CHOICE, log 51: of two counter values the one
that a wrap of less than 2^31 ticks puts before the other is the earlier). -/
def sofLineTime (s : State) (n : Nat) (sof : Word) : Nat :=
  let c := canAt s n
  let (cb, ltb, r) := (((c.cb, c.ltb, rate s) :: c.past).find? fun l => decide ((sof - l.1).toNat < 2 ^ 31)).getD (c.cb, c.ltb, rate s)
  (ltb + (sof - cb).toNat * 100 * r / 10 ^ 12 * unitsPerNs) / unitsPerNs

/-! ### States -/

/-- A record of a controller, at most once per 10,000 ms where an instant of the last one is kept (R385). -/
def canLimited (code : Nat) (n : Nat) (last : Option Nat) (mark : CanCtl → CanCtl) (s : State) : State :=
  let due := match last with
    | none => true
    | some t => decide (t + 10 ^ 13 ≤ s.clk.ps)
  if due then logEvent code (srcPort (0x30 + n)) [] (setCan n mark s) else s

/-- The state that the counters give a controller that takes part in error handling (R384). -/
def canByCounters (c : CanCtl) : CanState := if 127 < c.tec ∨ 127 < c.recv then .errorPassive else .errorActive

/-- A controller leaves ALONE (R384, R385). -/
def canCompany (n : Nat) (s : State) : State :=
  let c := canAt s n
  if c.state = .alone then
    canLimited 0x7A n c.companyPs (fun x => { x with companyPs := some s.clk.ps })
      (setCanState n (canByCounters c) (setCan n (fun x => { x with ackErrors := 0, aloneTry := false }) s))
  else s

/-- The state follows the counters (R384). -/
def canJudge (n : Nat) (s : State) : State :=
  let c := canAt s n
  if c.state = .errorActive ∨ c.state = .errorPassive ∨ c.state = .alone then
    if 255 < c.tec then
      logEvent 0x79 (srcPort (0x30 + n)) (byte1 (min 255 c.tec))
        (setCanState n .busOff (setCan n (fun x => { x with sending := none, ackErrors := 0, aloneTry := false }) s))
    else if c.state = .alone then s
    else if canByCounters c = .errorPassive ∧ 16 ≤ c.ackErrors then
      canLimited 0x78 n c.alonePs (fun x => { x with alonePs := some s.clk.ps }) (setCanState n .alone s)
    else setCanState n (canByCounters c) s
  else s

/-- CAN_INTEGRATED (R381, R384): 11 recessive bits end integration, that of a protocol exception too. -/
def execCanIntegrated (ctl : Fin 4) : State → Host.Outcome State Fault Refusal :=
  run fun s =>
    let c := canAt s ctl
    if !canWorks s ctl then s
    else if c.state == .integrating then setCanState ctl (if c.listenOnly then .listenOnly else .errorActive) s
    else setCan ctl (fun c => { c with awaitsIdle := false }) s

/-- CAN_BUSOFF_RECOVERY (R384): the controller returns to ERROR_ACTIVE with its counters at 0. -/
def execCanBusoffRecovery (ctl : Fin 4) : State → Host.Outcome State Fault Refusal :=
  run fun s =>
    if canWorks s ctl && (canAt s ctl).state == .busOff then
      setCanState ctl .errorActive (setCan ctl (fun c => { c with tec := 0, recv := 0, ackErrors := 0 }) s)
    else s

/-- A format that a mode sends and accepts (R381). -/
def canAccepts (mode : Nat) (f : CanFormat) : Bool := decide (formatCode f < mode)

/-- Protocol exception handling is disabled (R380, R381): PXD, which mode 1 ignores. -/
def pxdSet (c : CanCtl) : Bool := c.mode != 1 && bitOf (fld c.timing 9 1) 2

/-- CAN_PROTOCOL_EXCEPTION (R379, R381): the controller integrates until the bus is idle, and no counter changes; with PXD set the frame is a
form error instead, which a CAN_ERROR brings. For a configuration that waits, the frame in progress is over. -/
def execCanProtocolException (ctl : Fin 4) : State → Host.Outcome State Fault Refusal :=
  run fun s =>
    let c := canAt s ctl
    if canEnds s ctl && canHears c && !pxdSet c then
      canFrameEnd ctl (assertCan ctl 14 (setCan ctl (fun c => { c with awaitsIdle := true }) s))
    else s

/-! ### Reception -/

/-- A buffer takes a frame (R388). -/
def bufferTakes (f : CanFrame) (b : CanBuffer) : Bool :=
  let fmt := formatCode f.format
  let idMask := b.mask.setWidth 29
  (b.kind == 1 || b.kind == 3) && b.accept.getLsbD fmt && b.format.getLsbD 2 == f.ide
    && (b.ident.setWidth 29 &&& idMask) == (f.ident &&& idMask)
    && (f.format != .xl || (b.af &&& b.afMask) == (f.af &&& b.afMask))
    && !(f.format == .xl && b.kind == 1 && decide (56 < f.data.length))

/-- A receive buffer stores a frame (R389): in main, or in the shadow while it is locked. -/
def storeRx (x : CanRx) (b : CanBuffer) : CanBuffer :=
  if b.locked.isSome then { b with shadow := some { x with lost := b.shadow.isSome } }
  else { b with main := some { x with lost := b.main.any fun r => r.new } }

/-- Bytes that a FIFO's frames take (R392). -/
def fifoBytes (q : List CanRx) : Nat := (q.map fun r => (rxLen r.frame + 15) / 16 * 16).foldl (· + ·) 0

/-- A FIFO takes a frame that fits (R392). -/
def pushFifo (n i : Nat) (x : CanRx) (s : State) : State :=
  let q := (canAt s n).fifos.getD i []
  if q.length < 64 ∧ fifoBytes (q ++ [x]) ≤ 8192 then setCan n (fun c => { c with fifos := c.fifos.modify i (· ++ [x]) }) s
  else assertCan n 8 s

/-- A valid frame is matched and stored (R388, R389, R404). -/
def takeFrame (n : Nat) (sof : Word) (f : CanFrame) (s : State) : State :=
  match (canAt s n).buffers.find? fun b => bufferTakes f b.2 with
  | none => s
  | some (i, b) =>
    let x : CanRx := { frame := f, sof := sof, sofLt := sofLineTime s n sof, lost := false, new := true }
    if b.kind = 1 then
      let s := setBuf n i (storeRx x) s
      if b.ctrl.getLsbD 0 then assertCan n 3 s else s
    else pushFifo n (bits b.ctrl.toNat 2 1) x s

/-- The receive error count after a valid frame (R384; log 29). -/
def recAfter (s : State) (n r : Nat) : Nat := if 127 < r then 119 + (Config.canRecBack (s.clk.draws + n)).val else r - 1

/-- CAN_FRAME_RX (R379, R384, R388, R389, R508): a frame becomes valid for the receiver, and a configuration that waits for its end is in force. -/
def execCanFrameRx (ctl : Fin 4) (sof : Word) (frame : CanFrame) : State → Host.Outcome State Fault Refusal :=
  run fun s =>
    let c := canAt s ctl
    if canEnds s ctl && canHears c && canAccepts c.mode frame.format then
      let passive := c.state == .listenOnly || c.state == .standby
      let s := if passive then s else
        let s := setCan ctl (fun c => { c with recv := recAfter s ctl c.recv }) s
        canJudge ctl (canCompany ctl (if 127 < c.recv then draw s else s))
      canFrameEnd ctl (takeFrame ctl sof frame s)
    else s

/-- CAN_LOCK_STALE (R391): a lock held for 1,000 ms is released. -/
def execCanLockStale (ctl : Fin 4) (buffer : Fin 128) : State → Host.Outcome State Fault Refusal :=
  run fun s =>
    match (bufAt (canAt s ctl) buffer).locked with
    | some t => if canWorks s ctl then assertCan ctl 13 (setBuf ctl buffer unlockBuf (toPs (t + 10 ^ 12) s)) else s
    | none => s

/-! ### The schedule matrix -/

/-- The matrix runs (R382, R400, R407). -/
def matrixRuns (s : State) (n : Nat) : Bool :=
  let c := canAt s n
  c.matrix.isSome && !c.listenOnly && c.state != .standby && isActive s

/-- Used columns of a matrix with their STARTs, ascending (R399), that occur in the basic cycle (R400). -/
def usedColumns (l : Nat) (m : Matrix) : List (Nat × Nat) :=
  (List.range 64).filterMap fun k => match m.cells.find? fun e => e.col == k with
    | some e => if e.start < m.bc * l / unitsPerNs then some (k, e.start) else none
    | none => none

/-- Line time at which the row in progress began (R400). -/
def rowStart (s : State) (c : CanCtl) : Nat := boundary s (cycleNow s) - (s.time.cycles - c.rowCycle) * s.time.l

/-- The cell of the open window (R401). -/
def openCell (c : CanCtl) : Option Cell :=
  match c.matrix, c.column with
  | some m, some k => m.cells.find? fun e => e.row == c.row && e.col == k
  | _, _ => none

/-- Line time at which the window after a column ends (R401). -/
def windowEnd (s : State) (c : CanCtl) (m : Matrix) (k : Nat) : Nat :=
  match ((usedColumns s.time.l m).find? fun x => decide (k < x.1)) with
  | some (_, t) => rowStart s c + t * unitsPerNs
  | none => rowStart s c + m.bc * s.time.l

/-- The open window ends: its frame, if unsent, is a SCHED_MISS (R401, R402). -/
def closeWindow (n : Nat) (s : State) : State :=
  let c := canAt s n
  let s' := setCan n (fun c => { c with column := none }) s
  match openCell c with
  | some e =>
    if e.kind = 1 ∨ e.kind = 2 then
      let b := bufAt c e.buffer
      if b.pending ∨ b.suspended then assertCan n 11 (setBuf n e.buffer notPending s') else s'
    else s'
  | none => s'

/-- CAN_COLUMN_START (R401): the next used column of the row begins, and its cell's buffer is pending. -/
def execCanColumnStart (ctl : Fin 4) : State → Host.Outcome State Fault Refusal :=
  run fun s =>
    let c := canAt s ctl
    match c.matrix with
    | none => s
    | some m =>
      if !(canWorks s ctl && matrixRuns s ctl) then s
      else match (usedColumns s.time.l m).find? fun x => match c.column with
          | some k => decide (k < x.1)
          | none => decide (s.clk.lt ≤ rowStart s c + x.2 * unitsPerNs) with
        | none => s
        | some (k, t) =>
          let s := toLt (rowStart s c + t * unitsPerNs) (closeWindow ctl s)
          let s := setCan ctl (fun c => { c with column := some k }) s
          match openCell (canAt s ctl) with
          | some e =>
            if (e.kind = 1 ∨ e.kind = 2) ∧ !(bufAt (canAt s ctl) e.buffer).suspended then
              setBuf ctl e.buffer (fun b => { notPending b with pending := true }) s
            else s
          | none => s

/-- CAN_WINDOW_END (R401): the open window ends. -/
def execCanWindowEnd (ctl : Fin 4) : State → Host.Outcome State Fault Refusal :=
  run fun s =>
    let c := canAt s ctl
    match c.matrix, c.column with
    | some m, some k => if canWorks s ctl then closeWindow ctl (toLt (windowEnd s c m k) s) else s
    | _, _ => s

/-- A cycle boundary at a controller (R385, R399, R400, R403): the latch, a matrix that takes effect, the next row, and the attempt
of a controller that is alone. -/
def canBoundary (n : Nat) (s : State) : State :=
  let now := s.time.cycles
  let s := setCan n (fun c => { c with
    cb := canCounter s n, ltb := boundary s (cycleNow s), past := ((c.cb, c.ltb, rate s) :: c.past).take 8192, aloneTry := c.state == .alone }) s
  let c := canAt s n
  let begin (c : CanCtl) : CanCtl := { c with row := 0, rowCycle := now, restart := false, column := none }
  match c.matrixDue with
  | some (tag, due, m) =>
    if due ≤ now then
      let s := closeWindow n s
      atCommit tag 0 (setCan n fun c => { begin c with matrix := m }) (setCan n (fun c => { c with matrixDue := none }) s)
    else s
  | none =>
    match c.matrix with
    | none => s
    | some m =>
      if c.restart then setCan n begin (closeWindow n s)
      else if m.bc ≤ now - c.rowCycle then
        setCan n (fun c => { c with row := (c.row + 1) % 16, rowCycle := now }) (closeWindow n s)
      else s

/-! ### Transmission -/

/-- The frame that a transmit buffer holds (R386). -/
def frameOf (b : CanBuffer) : CanFrame :=
  { format := if bits b.format.toNat 1 0 = 0 then .classical else if bits b.format.toNat 1 0 = 1 then .fd else .xl,
    ide := b.format.getLsbD 2, ident := b.ident.setWidth 29, rtr := b.format.getLsbD 4, brs := b.format.getLsbD 3, esi := false,
    sec := b.format.getLsbD 5, sdt := b.sdt, vcid := b.vcid, af := b.af, data := b.data }

/-- The arbitration field of a frame as a number; the smaller wins (R393; log 31): identifier, RTR or SRR, IDE, the rest. -/
def arbKey (f : CanFrame) : Nat :=
  if f.ide then f.ident.toNat / 2 ^ 18 * 2 ^ 21 + 2 ^ 20 + 2 ^ 19 + f.ident.toNat % 2 ^ 18 * 2 + b2n f.rtr
  else f.ident.toNat % 2 ^ 11 * 2 ^ 21 + b2n f.rtr * 2 ^ 20

/-- The matrix allows a pending buffer to start now (R393, R401). -/
def mayTransmit (s : State) (n i : Nat) (b : CanBuffer) : Bool :=
  let c := canAt s n
  let f := b.kept.getD (frameOf b)
  match c.matrix with
  | none => true
  | some m => match openCell c, c.column with
    | some e, some k =>
      let fits := decide (s.clk.lt + Config.canWireNs f c.timing * unitsPerNs ≤ windowEnd s c m k)
      let at_ := rowStart s c + e.start * unitsPerNs
      fits && if e.kind = 1 then e.buffer == i && !b.attempted && decide (s.clk.lt ≤ at_)
        else if e.kind = 2 then e.buffer == i else b.txTag.isSome
    | _, _ => false

/-- The pending buffers that may start: number, content (R381, R393 to R395, R397): the mode sends their format. -/
def txCandidates (s : State) (n : Nat) : List (Nat × CanFrame) :=
  ((canAt s n).buffers.filter fun b => b.2.kind == 2 && b.2.pending && !b.2.suspended && mayTransmit s n b.1 b.2
      && canAccepts (canAt s n).mode (b.2.kept.getD (frameOf b.2)).format && (b.2.txTag.isNone || decide (ltNs s ≤ b.2.target + b.2.late))).map fun b => (b.1, b.2.kept.getD (frameOf b.2))

/-- The candidate that would win on the bus, the lower number of a tie (R393). -/
def txBest : List (Nat × CanFrame) → Option (Nat × CanFrame)
  | [] => none
  | x :: t => match txBest t with
    | some y => if arbKey y.2 < arbKey x.2 then some y else some x
    | none => some x

/-- The controller may offer a frame: on the bus, sending none, no configuration waiting, and in ALONE once per cycle (R379, R385). -/
def canMaySend (c : CanCtl) : Bool :=
  c.mode != 0 && !c.listenOnly && !c.awaitsIdle && c.sending.isNone && c.due.isNone
    && (c.state == .errorActive || c.state == .errorPassive || (c.state == .alone && c.aloneTry))

/-- CAN_TX_START (R385, R393, R401): at bus idle the controller offers a frame, which wins arbitration or is offered again later. -/
def execCanTxStart (ctl : Fin 4) (won : Bool) (sof : Word) : State → Host.Outcome State Fault Refusal :=
  run fun s =>
    if !(canWorks s ctl && canMaySend (canAt s ctl)) then s
    else match txBest (txCandidates s ctl) with
      | none => s
      | some (i, f) =>
        let s := setCan ctl (fun c => { c with aloneTry := false }) (setBuf ctl i (fun b => { b with attempted := true }) s)
        let f := { f with esi := (canAt s ctl).state == .errorPassive && f.format == .fd }
        if won then emit (.can ctl f) (setCan ctl (fun c => { c with sending := some (i, sof, f) }) s) else s

/-- CAN_TX_SUCCESS (R379, R384, R394, R402, R508): the frame is sent without error, and its CAN_TX_AT completes with the stamp. -/
def execCanTxSuccess (ctl : Fin 4) : State → Host.Outcome State Fault Refusal :=
  run fun s =>
    match (canAt s ctl).sending with
    | none => s
    | some (i, sof, _) =>
      if !canEnds s ctl then s
      else
        let b := bufAt (canAt s ctl) i
        let s := setCan ctl (fun c => { c with sending := none, tec := c.tec - 1, ackErrors := 0 }) s
        let s := canJudge ctl (canCompany ctl s)
        let s := setBuf ctl i (fun b => { notPending b with clashes := 0 }) s
        let s := if b.ctrl.getLsbD 0 then assertCan ctl 9 s else s
        canFrameEnd ctl (atCommit b.txTag sof.toNat id s)

/-- A second clash in a row suspends the buffer (R402). -/
def clashBuf (n i : Nat) (f : CanFrame) (s : State) : State :=
  let b := bufAt (canAt s n) i
  let s := setBuf n i (fun b => { b with clashes := b.clashes + 1 }) s
  if b.clashes + 1 < 2 then s
  else
    let s := setBuf n i (fun b => { notPending b with clashes := 0, suspended := true }) s
    let s := assertCan n 12 (logEvent 0x7B (srcPort (0x30 + n)) (byte1 i ++ zeros 3 ++ le 4 f.ident.toNat) s)
    match b.txTag with
    | some t => finishTag t 0x20 (refusedResult s) s
    | none => s

/-- An attempt ended in an error (R397, R401, R402): the buffer keeps its content for the retransmission. -/
def attemptFails (n : Nat) (clash : Bool) (s : State) : State :=
  match (canAt s n).sending with
  | none => s
  | some (i, _, f) =>
    let s := setCan n (fun c => { c with sending := none }) s
    let s := setBuf n i (fun b => if b.pending then { b with kept := some f } else notPending b) s
    if clash then clashBuf n i f s else setBuf n i (fun b => { b with clashes := 0 }) s

/-- What an error adds to TEC (R384): 8 for an acknowledgement error until TEC has reached 128, and for any other error of a transmitter what
ISO 11898-1 adds. A receiver's error adds nothing. -/
def tecAdd (c : CanCtl) (ack : Bool) (txInc : Nat) : Nat :=
  if c.sending.isNone then 0 else if ack then (if c.tec < 128 then 8 else 0) else txInc

/-- What an error adds to REC (R384): what ISO 11898-1 adds at a receiver, nothing at a transmitter. -/
def recAdd (c : CanCtl) (rxInc : Nat) : Nat := if c.sending.isNone then rxInc else 0

/-- The error is counted (R384). -/
def countError (ack : Bool) (txInc rxInc : Nat) (c : CanCtl) : CanCtl :=
  { c with
    tec := c.tec + tecAdd c ack txInc, recv := c.recv + recAdd c rxInc
    ackErrors := if c.sending.isNone then c.ackErrors else if ack then c.ackErrors + 1 else 0 }

/-- CAN_ERROR (R379, R382, R384, R402, R508): an error is counted as ISO 11898-1 has it, and the state follows. A controller that only listens
discards the frame. The frame in progress is over for a configuration that waits. -/
def execCanError (ctl : Fin 4) (ack clash : Bool) (txInc rxInc : Nat) : State → Host.Outcome State Fault Refusal :=
  run fun s =>
    let c := canAt s ctl
    if !(canEnds s ctl && canHears c) then s
    else if c.state == .listenOnly || c.state == .standby then canFrameEnd ctl s
    else canFrameEnd ctl (canJudge ctl (attemptFails ctl clash (setCan ctl (countError ack txInc rxInc) s)))

/-- CAN_TX_TARGET (R394): the target of a CAN_TX_AT is reached and its buffer is pending. -/
def execCanTxTarget (ctl : Fin 4) (buffer : Fin 128) : State → Host.Outcome State Fault Refusal :=
  run fun s =>
    let b := bufAt (canAt s ctl) buffer
    if canWorks s ctl && b.txTag.isSome && !b.pending then
      setBuf ctl buffer (fun b => { b with pending := true }) (toLt (b.target * unitsPerNs) s)
    else s

/-- CAN_TX_LATE (R395): no attempt is on the bus when the limit passes, so the command ends with TIMEOUT. -/
def execCanTxLate (ctl : Fin 4) (buffer : Fin 128) : State → Host.Outcome State Fault Refusal :=
  run fun s =>
    let c := canAt s ctl
    let b := bufAt c buffer
    match b.txTag.bind (cmdOf s) with
    | some x =>
      if canWorks s ctl && (c.sending.map fun y => y.1) != some buffer.val then
        let s := toLt ((b.target + b.late) * unitsPerNs) s
        let s := assertCan ctl 10 (setBuf ctl buffer notPending s)
        finishTag x.tag 0x70 (waitedMs x s) s
      else s
    | none => s

/-! ### Twin -/

/-- Every controller of a standby is in STANDBY (R384, R407). -/
def canStandby (s : State) : State :=
  (List.range (canCtls s.part.code)).foldl (fun s n => canRestart n s) s

/-- Every controller of a unit that becomes active integrates and takes up its matrix at the row that its partner mirrored (R407). -/
def canActivate (rows : List (Nat × Nat)) (s : State) : State :=
  (List.range (canCtls s.part.code)).foldl (fun s n =>
    let s := canRestart n s
    match rows[n]? with
    | some (row, anchor) => setCan n (fun c => { c with row := row % 16, rowCycle := s.time.cycles - (cycleNow s - anchor) }) s
    | none => s) s

end Sys2Proof.Machine
end

