-- ==== Sys2Proof/Machine/TwinOps.lean ====
section
/-! DEFINITION. Twin redundancy: the lane, roles, yielding and taking the active role, the numbering of streams across a
switch-over and the mirror (R20, R40, R409 to R430). -/

namespace Sys2Proof.Machine

/-- The twin state changed by a function. -/
def updTwin (f : Twin → Twin) (s : State) : State := { s with twin := f s.twin }

/-- The role logic works: the part has it, PD12 is on and the firmware serves (R6, R501, R561). -/
def roleOn (s : State) : Bool := running s && s.store.service && hasTwin s.part && powered s 12

/-- The Creleber lane works: it is held down while its block is quarantined or under test (R483, R484). -/
def laneOn (s : State) : Bool := roleOn s && !quarantined s 31 && !underTest s 31

/-! ### Heartbeats -/

/-- The HEARTBEAT that the unit sends now (R413). -/
def heartbeatOf (s : State) : Heartbeat :=
  { origin := s.survey.origin, part := s.part.code, hbSeq := s.twin.hbSeq + 1, health := healthWord s, cycle := cycleNow s,
    handover := s.twin.handoverCycle, epoch := s.survey.epoch, position := s.survey.position, orient := s.store.orient,
    handoverAck := s.twin.handoverAck && !isActive s, open_ := isEnd s, gen := BitVec.ofNat 8 s.store.generation,
    round := if numbered s then 0 else s.survey.round, nonce := if numbered s then 0 else s.survey.nonce }

/-- A HEARTBEAT leaves (R412). -/
def sendBeat (s : State) : State :=
  let s := emit (.lane (.heartbeat (heartbeatOf s))) s
  updTwin (fun t => { t with hbSeq := t.hbSeq + 1, sentPs := s.clk.ps }) s

/-- The partner is barred, as its heartbeat shows (R421). -/
def partnerBarred (s : State) : Bool :=
  s.twin.mismatch && match s.twin.partner with
    | some h =>
      let pp := h.health.getLsbD 30
      if s.store.pref != pp then !pp else decide (h.origin.toNat < s.survey.origin.toNat)
    | none => false

/-- The partner is eligible, as far as the lane tells (R421, R429). -/
def partnerEligible (s : State) : Bool := laneUp s && partnerWord s &&& 0x80F == 0 && !partnerBarred s

/-! ### Outputs -/

/-- A GLK output that the unit drives from now on: its next frame and line pulses lie where R162 places them (R424, R428). -/
def glkAlign (s : State) (g : Glk) : Glk :=
  if g.mode = 0 ∨ g.anchorDue then { g with driven := true, level := false }
  else
    let period := max 1 g.m * s.time.l
    let first := boundary s g.anchor + g.phi * unitsPerNs
    let j := (s.clk.lt - first + period - 1) / period
    let line := (s.clk.lt - (first + (j - 1) * period) + g.linePeriod * unitsPerNs - 1) / (g.linePeriod * unitsPerNs)
    { g with
      driven := true, level := false, frameCycle := g.anchor + max 1 g.m * j, frameLt := first + (j - 1) * period, line := if j = 0 then g.lines else max 1 line }

/-- The GLK and DOUT balls are driven (R409, R424). -/
def driveOutputs (s : State) : State :=
  { s with
    time := { s.time with glk := s.time.glk.mapIdx fun n g => if n < glkOuts s.part.code then glkAlign s g else g }
    twin := { s.twin with doutDriven := true } }

/-- The GLK and DOUT balls go to high impedance (R423): a pulse in progress ends first, except on TIME_LOCK. -/
def floatOutputs (atOnce : Bool) (s : State) : State :=
  { s with
    time := { s.time with glk := s.time.glk.map fun g => { g with driven := g.driven && g.level && !atOnce } }
    twin := { s.twin with doutDriven := false } }

/-! ### Giving the role up -/

/-- Delivery to car ports and segments stops: what is queued for them is discarded (R328, R423). -/
def stopDelivery (s : State) : State :=
  sweepTx { s with
    car := s.car.map fun c => { c with queues := List.replicate 32 [] }
    md := s.md.map fun m => { m with
      queues := List.replicate 8 [], current := if m.onPair then m.current else none, backoffPs := none, credit := 0,
      collisions := if m.onPair then m.collisions else 0 } }

/-- A command of R91's groups before its commit point, or a CAN_TX_AT in flight, completes (R423). -/
def refuseChange (c : Cmd) (s : State) : State :=
  if changing.contains c.opcode && (beforeCommit c || (c.opcode == 0x0705 && c.phase != .finished)) then
    finish c 0x20 (refusedResult s) (dropUnits c.tag s)
  else s

/-- The announced handover is no more, and its TWIN_YIELD completes (R429). -/
def dropHandover (s : State) : State :=
  let tag := s.twin.yieldTag
  let s := updTwin (fun t => { t with handover := false, handoverCycle := 0, handoverAck := false, reverting := false, yieldTag := none }) s
  match tag with
  | some t => finishTag t 0x20 (refusedResult s) s
  | none => s

/-- What a unit that is active no longer stops doing (R409, R423, R429): `atOnce` as for floatOutputs. -/
def leaveService (atOnce : Bool) (before s : State) : State :=
  let s := canStandby (floatOutputs atOnce (stopDelivery s))
  let s := s.cmdq.inflight.foldl (fun s c => refuseChange c s) s
  assertEdge 512 (mdNotice before s)

/-- The active unit yields (R423), for the health-word bit that is the cause. -/
def yieldRole (cause : Nat) (s : State) : State :=
  if hasTwin s.part && isActive s then
    let before := s
    let s := updTwin (fun t => { t with
      role := .standby, drivesActl := false, yielding := true, takeover := false, finalMirror := true, mirrorAge := 0xFF,
      revertPs := none, numbering := none }) s
    logEvent 0x14 srcNode (byte1 cause) (leaveService (cause == 2) before (dropHandover s))
  else s

/-- An overlap ends (R422): TWIN_OVERLAP with the row, source 518, and the unit yields. -/
def overlap (row cause : Nat) (s : State) : State :=
  yieldRole cause (assertEdge 518 (logEvent 0x16 srcNode (byte1 row) s))

/-- The unit acts on what it holds of itself and its partner (R420, R422): SELFTEST_FAIL with a partner that is well, and barring. -/
def roleCheck (s : State) : State :=
  if !(hasTwin s.part && isActive s) then s
  else if s.twin.selftestFail && laneUp s && partnerWord s &&& 0x1F == 0 then yieldRole 4 s
  else if barred s then yieldRole 24 s
  else s

/-! ### Taking the role -/

/-- The first boundary at or after A + 10,000 ns (R424). -/
def takeoverCycle (s : State) (a : Nat) : Nat := (a + 10000 * unitsPerNs - s.time.base + s.time.l - 1) / s.time.l

/-- An eligible standby that reads ACTL high drives it and sets TAKEOVER (R424, R428). -/
def takeoverCheck (s : State) : State :=
  if roleOn s && isStandby s && s.twin.actlHigh && s.twin.takeoverAt.isNone && eligible s then
    updTwin (fun t => { t with
      drivesActl := true, takeover := true, takeoverAt := some s.clk.lt, handoverCycle := 0, handoverAck := false, revertReq := false,
      revertPs := none }) s
  else s

/-- The case of R425 for a boundary, by the latest mirror. -/
def numberCase (s : State) (ca : Nat) : Nat :=
  match s.twin.mirror with
  | some m => if m.cycle = ca then 1 else if m.cycle < ca ∧ ca - m.cycle ≤ 1024 then 2 else 3
  | none => 3

/-- NEXT_SEQ of a context in the latest mirror; 0 where the mirror lists no such stream. -/
def mirrorSeq (s : State) (k : Nat) : BitVec 16 :=
  match s.twin.mirror.bind fun m => m.streams.find? fun e => e.valid && e.context == k with
  | some e => e.nextSeq
  | none => 0

/-- Used source cycles of a stream from one cycle up to another, that one excluded (R425). -/
def usedBetween (s : State) (c : Canon) (a b : Nat) : Nat := ((List.range (b - a)).filter fun i => usesCycle s c (a + i)).length

/-- A stream's numbering from the takeover boundary c_a onward (R425). -/
def numberStream (case ca : Nat) (e : Nat × Ctx) (s : State) : State :=
  let k := e.1
  if !(sourcedHere s k && e.2.canon.state == .placed) then s
  else
    let from_ := (s.twin.mirror.map fun m => m.cycle).getD ca
    let seq : BitVec 16 :=
      if case = 1 then mirrorSeq s k
      else if case = 2 then mirrorSeq s k + BitVec.ofNat 16 (e.2.canon.nSrc * usedBetween s e.2.canon from_ ca)
      else 0
    let start := (if s.time.cycle = ca then s.time.cycles else s.time.cycles + 1) + 256
    updGallery (fun g => { g with
      nextSeq := tabSet 0 g.nextSeq k seq, muteUntil := tabSet 0 g.muteUntil k (if case = 3 then start else 0) }) s

/-- Every stream sourced here is numbered (R425). -/
def numberStreams (case ca : Nat) (s : State) : State := s.planner.ctxs.foldl (fun s e => numberStream case ca e s) s

/-- TWIN_TAKEOVER (R424, R425). -/
def noteTakeover (case ca : Nat) (s : State) : State :=
  logEvent 0x15 srcNode (byte1 case ++ le 4 (ca % 2 ^ 32)) (updTwin (fun t => { t with numbering := none }) s)

/-- The boundary is numbered: at once where the mirror of c_a is here, else until that mirror comes in time (R425). -/
def numberTakeover (ca : Nat) (s : State) : State :=
  let case := numberCase s ca
  let s := numberStreams case ca s
  if case = 1 then noteTakeover 1 ca s else updTwin (fun t => { t with numbering := some (ca, case) }) s

/-- The mirror of c_a did not come: TWIN_TAKEOVER carries the case that held without it. -/
def closeNumbering (s : State) : State :=
  match s.twin.numbering with
  | some (ca, case) => if ca < cycleNow s then noteTakeover case ca s else s
  | none => s

/-- Repetitions owed by a standby at a cab are sent (R427). -/
def payHold (e : Nat × Vsu) (s : State) : State :=
  let s := setVsu e.1 (fun v => { v with owed := 0 }) s
  if !vsuCab s e.1 then s
  else (List.range e.2.owed).foldl (fun s _ => repeatHold e.1 (vsuMask s e.1) s) s

/-- The source VSU restarts each configured stream, and the source queues start empty (R427). -/
def restartSources (s : State) : State :=
  { s with
    vsu := s.vsu.map fun e => (e.1, restartVsu e.2)
    gallery := { s.gallery with queues := List.replicate 12 [] } }

/-- The matrix rows that the latest mirror holds (R407, R415). -/
def mirrorRows (s : State) : List (Nat × Nat) := (s.twin.mirror.map fun m => m.canRow).getD []

/-- The unit is active from now on (R409, R422, R424): ACTL, outputs, controllers, source 512. A plan silence that it had as a standby is that
of its position now, which a PL_TALLY ends (R289, R291), and φ follows the unit that releases (R285). -/
def becomeActive (s : State) : State :=
  let before := s
  let s := updTwin (fun t => { t with
    role := .active, drivesActl := hasTwin s.part, yielding := false, takeoverAt := none, handover := false, handoverCycle := 0,
    handoverAck := false, revertPs := none, takeoverCycles := 0 }) s
  let s := updPlanner (fun p => { p with silenced := p.silenced || p.silencedTwin, silencedTwin := false }) s
  let s := canActivate (mirrorRows s) (driveOutputs s)
  assertEdge 512 (mdNotice before (refreshPhi s))

/-- A standby becomes active at a boundary (R424, R425, R427). -/
def takeRole (ca : Nat) (s : State) : State :=
  let owed := s.vsu.filter fun e => decide (0 < e.2.owed)
  let s := numberTakeover ca (restartSources (becomeActive s))
  owed.foldl (fun s e => payHold e s) s

/-- A starting unit finds its partner active (R422). -/
def becomeStandby (s : State) : State :=
  let before := s
  let s := updTwin (fun t => { t with role := .standby }) s
  assertEdge 512 (mdNotice before (canStandby s))

/-- The boot is complete (R422): a unit without a twin is active, one that reads ACTL low is standby, another waits for W. -/
def startRole (s : State) : State :=
  if !hasTwin s.part then becomeActive s
  else if !s.twin.actlHigh then becomeStandby s
  else updTwin (fun t => { t with waitPs := s.clk.ps }) s

/-- W in ns (R422). -/
def startWait (s : State) : Nat :=
  if s.twin.prefFault then 50000000 + s.survey.origin.toNat % 1024 * 4000 else if s.store.pref then 0 else 50000000

/-! ### The mirror -/

/-- The CYCLE_MIRROR of a cycle (R415). -/
def mirrorOf (k : Nat) (s : State) : Mirror :=
  { cycle := k, digest := s.planner.digest, lastSerial := s.planner.inForce, epoch := s.survey.epoch, dout := s.twin.dout
    streams := (List.range 12).map fun n => match ctxOfPort s n with
      | some x => { valid := true, context := x.canon.context, nextSeq := tabGet 0 s.gallery.nextSeq x.canon.context }
      | none => { valid := false, context := 0, nextSeq := 0 }
    learned := s.car.map fun c => c.learned
    glkAnchor := s.time.glk.map fun g => if g.mode = 0 then 0 else g.anchor
    canRow := s.can.map fun c => (c.row, k - (s.time.cycles - c.rowCycle)) }

/-- The active unit, or one that has just yielded, sends its mirror (R412, R423). -/
def sendMirror (s : State) : State :=
  if laneOn s && (isActive s || s.twin.finalMirror) then
    emit (.lane (.mirror (mirrorOf (cycleNow s) s))) (updTwin (fun t => { t with finalMirror := false }) s)
  else s

/-- A standby's digest differs from its active unit's, or agrees again (R291). -/
def compareDigest (m : Mirror) (s : State) : State :=
  if !numbered s || m.epoch != s.survey.epoch || m.cycle != cycleNow s then s
  else if m.digest = s.planner.digest then updPlanner (fun p => { p with silencedTwin := false }) s
  else
    let s := if s.planner.silencedTwin then s
      else logEvent 0x53 srcNode (le 4 m.digest.toNat ++ le 4 s.planner.digest.toNat) (updPlanner (fun p => { p with silencedTwin := true }) s)
    askSync s

/-- A standby adopts what the mirror holds (R416): LEARNED, DOUT and anchors. -/
def adoptMirror (m : Mirror) (s : State) : State :=
  { s with
    car := s.car.mapIdx fun n c => { c with learned := m.learned.getD n none }
    time := { s.time with glk := s.time.glk.mapIdx fun n g =>
      if g.mode = 0 ∨ m.glkAnchor.getD n 0 = 0 then g else { g with anchor := m.glkAnchor.getD n 0, anchorDue := false } }
    twin := { s.twin with dout := m.dout } }

/-! ### Handover and return -/

/-- The first boundary at least 4 cycles ahead (R429). -/
def handoverAt (s : State) : Nat := if boundary s (cycleNow s) = s.clk.lt then cycleNow s + 4 else cycleNow s + 5

/-- A handover may be announced (R429). -/
def mayHandOver (s : State) : Bool := partnerEligible s && !s.twin.laneFault && !s.twin.handover

/-- A handover is announced (R429). -/
def announceHandover (tag : Option (BitVec 8)) (s : State) : State :=
  updTwin (fun t => { t with
    handover := true, handoverCycle := handoverAt s, handoverAck := false, yieldTag := tag, reverting := tag.isNone }) s

/-- The conditions of R430 hold: a PREF standby, clean, its partner active, no PREF fault. -/
def mayRevert (s : State) : Bool :=
  laneOn s && isStandby s && s.store.pref && !s.twin.prefFault && cleanWord (healthWord s) && (partnerWord s).getLsbD 31

/-- How long the conditions of R430 have held is kept; REVERT_REQ goes with them. -/
def revertTrack (s : State) : State :=
  if mayRevert s then updTwin (fun t => { t with revertPs := some (t.revertPs.getD s.clk.ps) }) s
  else updTwin (fun t => { t with revertPs := none, revertReq := false }) s

end Sys2Proof.Machine
end

