-- ==== Sys2Proof/Machine/Twin.lean ====
section
/-! DEFINITION. The commands of the Creleber lane, of ACTL and of the node's own faults (R409 to R434, R436, R581). -/

namespace Sys2Proof.Machine

/-! ### Commands of the hosts -/

/-- The twin's commands are refused: PD12 is off (R503). -/
def twinOff (s : State) : Bool := !powered s 12

/-- TWIN_STATUS (R414). -/
def execTwinStatus (tag : BitVec 8) : State → Host.Outcome State Fault Refusal :=
  run (withCmd 0x0801 tag fun c s =>
    checked c ([lenCheck c 0 false, absent (!hasTwin s.part)] ++ stateChecks c s none (twinOff s))
      (finish c 0 ((healthWord s).toNat + (partnerWord s).toNat * 2 ^ 32)) s)

/-- TWIN_YIELD (R429): it waits for the boundary of the handover. -/
def execTwinYield (tag : BitVec 8) : State → Host.Outcome State Fault Refusal :=
  run (withCmd 0x0802 tag fun c s =>
    checked c ([lenCheck c 0 false, absent (!hasTwin s.part)] ++ stateChecks c s none (twinOff s || !isActive s || !mayHandOver s))
      (fun s => announceHandover (some tag) (park c 0 0 s)) s)

/-! ### The lane -/

/-- HEARTBEAT_SEND (R412): a heartbeat leaves. -/
def execHeartbeatSend : State → Host.Outcome State Fault Refusal := run fun s => if laneOn s then sendBeat s else s

/-- The first heartbeat of a partner is checked against this unit (R20, R40). -/
def checkPartner (m : Heartbeat) (s : State) : State :=
  let pref := s.store.pref == m.health.getLsbD 30
  let part := m.part != s.part.code
  let orient := m.orient != s.store.orient
  let s := updTwin (fun t => { t with mismatch := part || orient, prefFault := pref, configFault := part || orient || pref }) s
  let s := if part then logEvent 0x10 srcNode (le 2 m.part) s else s
  let s := if pref then logEvent 0x11 srcNode (byte1 (b2n s.store.pref) ++ byte1 (b2n (m.health.getLsbD 30))) s else s
  if orient then logEvent 0x12 srcNode (byte1 (b2n s.store.orient) ++ byte1 (b2n m.orient)) s else s

/-- Every setting in force is sent again when the lane returns (R417). -/
def resendSettings (s : State) : State :=
  if isActive s then
    s.twin.inForce.foldl (fun s x =>
      updTwin (fun t => { t with awaiting := t.awaiting ++ [(none, x, s.clk.ps)] }) (emit (.lane (.settings x)) s)) s
  else s

/-- A valid heartbeat counts against LANE_FAULT (R414): the 16th in a row ends it. -/
def countBeat (s : State) : State :=
  if !s.twin.laneFault then s
  else if s.twin.goodBeats + 1 < 16 then updTwin (fun t => { t with goodBeats := t.goodBeats + 1 }) s
  else resendSettings (updTwin (fun t => { t with goodBeats := 0, laneFault := false }) s)

/-- What a heartbeat makes of an active unit (R422, R429, R430). -/
def beatActive (m : Heartbeat) (s : State) : State :=
  if m.health.getLsbD 28 then overlap 1 28 s
  else if m.health.getLsbD 31 && decide (s.survey.origin.toNat < m.origin.toNat) then overlap 2 31 s
  else
    let s := if s.twin.handover && m.handoverAck && m.handover == s.twin.handoverCycle then
      updTwin (fun t => { t with handoverAck := true }) s else s
    let s := if m.health.getLsbD 26 && mayHandOver s then announceHandover none s else s
    roleCheck s

/-- A takeover under way is given up: a barred unit never takes over (R20, R421). -/
def dropTakeover (s : State) : State :=
  if s.twin.takeoverAt.isNone then s
  else updTwin (fun t => { t with takeoverAt := none, takeover := false, drivesActl := false }) s

/-- What a heartbeat makes of a standby (R20, R414, R417, R429): an announced handover is acknowledged while it stands. -/
def beatStandby (m : Heartbeat) (s : State) : State :=
  let ack := m.health.getLsbD 27 && m.handover != 0 && eligible s
  updTwin (fun t => { t with
    handoverAck := ack, handoverCycle := if ack then m.handover else 0, yielding := t.yielding && !m.health.getLsbD 31
    settingsStale := if m.health.getLsbD 31 then m.health.getLsbD 10 else t.settingsStale })
    (if barred s then dropTakeover s else s)

/-- HEARTBEAT_RX (R185, R413, R414, R420 to R422, R429, R430). -/
def execHeartbeatRx (m : Heartbeat) : State → Host.Outcome State Fault Refusal :=
  run fun s =>
    if !laneOn s then s
    else
      let first := match s.twin.partner with
        | some h => h.origin != m.origin
        | none => true
      let s := updTwin (fun t => { t with
        partner := some m, heardPs := s.clk.ps, imageDiff := m.gen != BitVec.ofNat 8 s.store.generation }) s
      let s := if first then checkPartner m s else s
      let s := countBeat s
      let s := decideClaim s
      revertTrack (match s.twin.role with
        | .active => beatActive m s
        | .standby => beatStandby m s
        | .starting => s)

/-- LANE_FAULT_TIMEOUT (R414, R422, R431): 150,000 ns without a heartbeat. -/
def execLaneFaultTimeout : State → Host.Outcome State Fault Refusal :=
  run fun s =>
    if roleOn s && s.twin.partner.isSome && !s.twin.laneFault then
      let s := toPs (s.twin.heardPs + 150000000) s
      let s := revertTrack (updTwin (fun t => { t with laneFault := true, goodBeats := 0 }) s)
      if isStandby s && !s.twin.actlHigh then logEvent 0x13 srcNode [] s else s
    else s

/-- HEARTBEAT_SEND_TIMEOUT (R418): no heartbeat has left for 150,000 ns, and ACTL is released. -/
def execHeartbeatSendTimeout : State → Host.Outcome State Fault Refusal :=
  run fun s =>
    if running s && hasTwin s.part && s.twin.drivesActl then
      updTwin (fun t => { t with drivesActl := false }) (toPs (s.twin.sentPs + 150000000) s)
    else s

/-- CYCLE_MIRROR_RX (R291, R414, R416, R425). -/
def execCycleMirrorRx (m : Mirror) : State → Host.Outcome State Fault Refusal :=
  run fun s =>
    if !laneOn s then s
    else
      let s := updTwin (fun t => { t with mirror := some m, mirrorAge := 0 }) s
      match s.twin.numbering with
      | some (ca, _) =>
        if m.cycle = ca ∧ cycleNow s = ca ∧ phaseOf s s.clk.lt < 10000 * unitsPerNs then noteTakeover 1 ca (numberStreams 1 ca s) else s
      | none => if isStandby s then compareDigest m (adoptMirror m s) else s

/-- SETTINGS_RX (R417): a standby applies the setting and answers. -/
def execSettingsRx (m : Settings) : State → Host.Outcome State Fault Refusal :=
  run fun s =>
    if laneOn s && isStandby s then
      let c := settingsCmd m
      let r := applySetting c m.buffer s
      emit (.lane (.settingsAck c.tag r.2)) r.1
    else s

/-- The last ACK of the settings sent again ends SETTINGS_STALE (R417). -/
def staleEnds (again : Bool) (s : State) : State :=
  if again && !(s.twin.awaiting.any fun a => a.1.isNone) then updTwin (fun t => { t with settingsStale := false }) s else s

/-- SETTINGS_ACK_RX (R417): the command reaches its commit point. -/
def execSettingsAckRx (tag : BitVec 8) (_status : Nat) : State → Host.Outcome State Fault Refusal :=
  run fun s =>
    if !(laneOn s && isActive s) then s
    else match s.twin.awaiting.find? fun a => (settingsCmd a.2.1).tag == tag with
      | none => s
      | some a =>
        let s := updTwin (fun t => { t with awaiting := t.awaiting.erase a }) s
        staleEnds a.1.isNone (settleSetting a.1 a.2.1 s)

/-- SETTINGS_TIMEOUT (R417): no ACK within 200,000 ns; the oldest such command completes as without a partner. -/
def execSettingsTimeout : State → Host.Outcome State Fault Refusal :=
  run fun s =>
    match s.twin.awaiting with
    | [] => s
    | a :: rest =>
      if !(running s && isActive s) then s
      else
        let s := toPs (a.2.2 + 200000000) s
        settleSetting a.1 a.2.1 (updTwin (fun t => { t with awaiting := rest, settingsStale := true }) s)

/-! ### ACTL -/

/-- ACTL_HIGH (R422, R424, R428, R491): an eligible standby takes over; where no unit is eligible, no unit is active. -/
def execActlHigh : State → Host.Outcome State Fault Refusal :=
  run fun s =>
    let s := updTwin (fun t => { t with actlHigh := true }) s
    if !(roleOn s && isStandby s) then s
    else
    let s := cutForTakeover s
    if eligible s then takeoverCheck s
    else if partnerEligible s || (laneUp s && (partnerWord s).getLsbD 31) then s
    else logEvent 0x17 srcNode [] s

/-- ACTL_LOW (R422): a unit that has booted becomes standby. -/
def execActlLow : State → Host.Outcome State Fault Refusal :=
  run fun s =>
    let s := updTwin (fun t => { t with actlHigh := false }) s
    if roleOn s && s.twin.role == .starting then becomeStandby s else s

/-- ACTL_READBACK_FAULT (R419): an active unit drives low and reads high for 500 ns. -/
def execActlReadbackFault : State → Host.Outcome State Fault Refusal :=
  run fun s =>
    if running s && hasTwin s.part && isActive s && s.twin.drivesActl then yieldRole 11 (updTwin (fun t => { t with actlFault := true }) s)
    else s

/-- TWIN_START_WAIT (R422): the wait ends with ACTL high throughout. -/
def execTwinStartWait : State → Host.Outcome State Fault Refusal :=
  run fun s =>
    if roleOn s && s.twin.role == .starting && s.twin.actlHigh && !barred s then
      becomeActive (toPs (s.twin.waitPs + startWait s * 1000) s)
    else s

/-- TAKEOVER_BOUNDARY (R424, R425, R427). -/
def execTakeoverBoundary : State → Host.Outcome State Fault Refusal :=
  run fun s =>
    match s.twin.takeoverAt with
    | some a =>
      if roleOn s && isStandby s && !barred s then
        let ca := takeoverCycle s a
        takeRole ca (toLt (boundary s ca) s)
      else s
    | none => s

/-- TAKEOVER_CLEAR (R414): 64 cycles after the takeover boundary. -/
def execTakeoverClear : State → Host.Outcome State Fault Refusal :=
  run fun s =>
    if isActive s && s.twin.takeover && decide (64 ≤ s.twin.takeoverCycles) then updTwin (fun t => { t with takeover := false }) s else s

/-! ### Planned handover -/

/-- The old active unit at the boundary of h (R423, R429): TWIN_YIELD commits, the mirror of h is sent. -/
def handOver (s : State) : State :=
  let before := s
  let tag := s.twin.yieldTag
  let due := s.time.cycle != s.twin.handoverCycle
  let s := updTwin (fun t => { t with
    role := .standby, drivesActl := false, handover := false, handoverCycle := 0, handoverAck := false, reverting := false,
    yieldTag := none, finalMirror := due, takeover := false, mirrorAge := 0xFF }) s
  let s := leaveService false before s
  match tag with
  | some t => finishTag t 0 0 s
  | none => s

/-- The new active unit at the boundary of h (R424, R429, R430). -/
def takeHandover (s : State) : State :=
  let revert := s.twin.revertReq
  let s := takeRole s.twin.handoverCycle (updTwin (fun t => { t with takeover := false, takeoverAt := none, revertReq := false }) s)
  if revert then logEvent 0x18 srcNode [] s else s

/-- HANDOVER_BOUNDARY (R429): the boundary of the acknowledged handover cycle, at either unit. -/
def execHandoverBoundary : State → Host.Outcome State Fault Refusal :=
  run fun s =>
    if !(roleOn s && s.twin.handoverCycle != 0 && s.twin.handoverAck) then s
    else
      let s := toLt (boundary s s.twin.handoverCycle) s
      match s.twin.role with
      | .active => if s.twin.handover then handOver s else s
      | .standby => takeHandover s
      | .starting => s

/-- HANDOVER_LAPSE (R429): no acknowledgement by the boundary of h − 1. -/
def execHandoverLapse : State → Host.Outcome State Fault Refusal :=
  run fun s =>
    if roleOn s && isActive s && s.twin.handover && !s.twin.handoverAck then
      dropHandover (toLt (boundary s (s.twin.handoverCycle - 1)) s)
    else s

/-- REVERT_TIMER (R430): a clean PREF standby asks for the role after 10,000 ms. -/
def execRevertTimer : State → Host.Outcome State Fault Refusal :=
  run fun s =>
    match s.twin.revertPs with
    | some p => if mayRevert s then updTwin (fun t => { t with revertReq := true }) (toPs (p + 10000 * 10 ^ 9) s) else s
    | none => s

/-! ### The unit's own faults -/

/-- FABRIC_ECC_ERROR (R414, R420, R436): corrected, source 2; uncorrectable, source 3 and FABRIC_ECC until reset. -/
def execFabricEccError (fatal : Bool) : State → Host.Outcome State Fault Refusal :=
  run fun s =>
    if !running s then s
    else if fatal then yieldRole 0 (updTwin (fun t => { t with fabricEcc := true }) s)
    else assertEdge 2 s

/-- GUARDIAN_SELF_FAIL (R414, R420, R436): source 5 and GUARDIAN_SELF until reset. -/
def execGuardianSelfFail : State → Host.Outcome State Fault Refusal :=
  run fun s => if running s then yieldRole 1 (updTwin (fun t => { t with guardianSelf := true }) s) else s

/-- WATCHDOG_FIRE (R414, R420, R528): source 4 and WATCHDOG until reset. -/
def execWatchdogFire : State → Host.Outcome State Fault Refusal :=
  run fun s =>
    if running s then
      yieldRole 3 (updTwin (fun t => { t with watchdog := true, firedPs := if t.watchdog then t.firedPs else s.clk.ps }) s)
    else s

/-- TIME_LOCK_FAULT (R420, R436, R581): the condition has held for more than 1,000 ns. -/
def execTimeLockFault : State → Host.Outcome State Fault Refusal :=
  run fun s =>
    if running s then
      let s := timeSilence (updTime (fun t => { t with timeLock := true, lockCycles := 0 }) s)
      yieldRole 2 (updTwin (fun t => { t with timeLock := true }) s)
    else s

/-- A cycle of lock ends TIME_LOCK after 16 in a row (R414); the unit may then take over again (R428). -/
def lockCycle (s : State) : State :=
  if !s.twin.timeLock then s
  else if s.time.timeLock then updTime (fun t => { t with lockCycles := 0 }) s
  else if s.time.lockCycles + 1 < 16 then updTime (fun t => { t with lockCycles := t.lockCycles + 1 }) s
  else takeoverCheck (updTwin (fun t => { t with timeLock := false }) (updTime (fun t => { t with lockCycles := 0 }) s))

/-- What the twin does at a cycle boundary (R412, R414, R425, R430). -/
def twinBoundary (s : State) : State :=
  let s := updTwin (fun t => { t with
    takeoverCycles := t.takeoverCycles + 1, mirrorAge := if t.role = .active then t.mirrorAge else min 255 (t.mirrorAge + 1) }) s
  sendMirror (revertTrack (closeNumbering (lockCycle s)))

end Sys2Proof.Machine
end

