-- ==== Sys2Proof/Machine/SelfTest.lean ====
section
/-! DEFINITION. Self-test and life-cycle: quarantine, Dark, slices and loopback runs, and their commands (R477 to R500). -/

namespace Sys2Proof.Machine

/-! ### Quarantine and Dark -/

/-- The block whose quarantine makes the node Dark, if one does (R488, R497). -/
def darkBlock (q : BitVec 34) : Option Nat :=
  if q.getLsbD 0 then some 0
  else if q.getLsbD 5 then some 5
  else if q.getLsbD 6 then some 6
  else if q.getLsbD 1 && q.getLsbD 2 then some 2
  else none

/-- DARK is written to Flowstone if STORE is in service, and the same record to the Sump (R497). -/
def darkRecord (b : Nat) (s : State) : State :=
  let r := newRec 0xC5 srcNode (byte1 b) s.flow.next s
  if quarantined s 32 then updFlow (fun f => { sumpPut r f with next := f.next + 1, seqNext := f.next + 1 }) s
  else updFlow (sumpPut r) (logEvent 0xC5 srcNode (byte1 b) s)

/-- The node goes Dark (R491, R497): relays closed, PHYs down, TXD recessive, ACTL, GLK and DOUT not driven. -/
def goDark (b : Nat) (s : State) : State :=
  if s.test.dark.isSome then s
  else
    let s := darkRecord b (cutTests (fun _ => true) s)
    let s := floatOutputs true (updTwin (fun t => { t with drivesActl := false }) s)
    let s := (List.range (canCtls s.part.code)).foldl (fun s n => setCanState n .off (setCan n (fun c => { c with sending := none }) s)) s
    phyDown { s with
      power := { s.power with bypA := false, bypB := false }
      md := s.md.map fun m => { m with onPair := false, current := none }
      survey := { s.survey with state := .dark }
      store := { s.store with service := false }
      test := { s.test with dark := some b } }

/-- The node is Dark once its quarantine bits ask for it (R497). -/
def darkCheck (s : State) : State :=
  match darkBlock s.test.quarantine with
  | some b => goDark b s
  | none => s

/-- A block's quarantine bit is set or cleared in QUAR and MRAM, and QUARANTINE is written (R486, R487). -/
def setQuarantine (b : Nat) (on : Bool) (s : State) : State :=
  let bit := BitVec.twoPow 34 b
  logEvent 0xC4 srcNode (byte1 b ++ byte1 (b2n on))
    (updTest (fun x => { x with quarantine := if on then x.quarantine ||| bit else x.quarantine &&& ~~~bit }) s)

/-- A quarantined block leaves service as R483 sets out. -/
def leaveBlock (b : Nat) (s : State) : State :=
  if b = 8 then bbDown .laf s
  else if b = 9 then bbDown .lar s
  else if b = 10 then bbDown .lbf s
  else if b = 11 then bbDown .lbr s
  else if b < 12 then s
  else if b ≤ 23 then setLink (b - 12) .disabled (clearPort (b - 12) s)
  else if b < 26 then s
  else if b ≤ 29 then setCanState (b - 26) .off (setCan (b - 26) (fun c => { c with sending := none, column := none }) s)
  else if b = 30 then stopVsu s
  else if b = 32 then mediaFailure none (Config.quarantineAddr s.clk.draws) s
  else s

/-- A block that is quarantined no longer serves again (R487). -/
def joinBlock (b : Nat) (s : State) : State :=
  if 12 ≤ b ∧ b ≤ 23 then if (carAt s (b - 12)).mode = 0 then s else setLink (b - 12) .training s
  else if 26 ≤ b ∧ b ≤ 29 then canRestart (b - 26) s
  else s

/-- A failed test (R486, R498): ST_FAIL, sources 545 and 546, SELFTEST_FAIL, and the block is quarantined. -/
def failBlock (b : Nat) (k : TestKind) (origin : Nat) (misr : BitVec 64) (s : State) : State :=
  let before := s
  let s := updTest (fun x => { x with lastFail := w32 (b + kindCode k * 256), failCount := sat 32 (x.failCount + 1) }) s
  let s := logEvent 0xC2 srcNode (byte1 b ++ byte1 (kindCode k) ++ byte1 origin ++ byte1 0 ++ le 4 (misr.toNat % 2 ^ 32)) (assertEdge 545 s)
  let s := mdNotice before (leaveBlock b (setQuarantine b true s))
  darkCheck (roleCheck (updTwin (fun t => { t with selftestFail := true }) s))

/-- A passing test of a host clears the block's stored bit (R487). -/
def passBlock (b : Nat) (s : State) : State :=
  if quarantined s b then
    let before := s
    mdNotice before (joinBlock b (setQuarantine b false s))
  else s

/-! ### The end of a test -/

/-- A test ends with a verdict (R485, R486, R490, R493). -/
def endTest (t : Test) (pass : Bool) (misr : BitVec 64) (detail : BitVec 16) (m1 m2 : Int) (s : State) : State :=
  let s := setResult t.block (resultOfTest s t (if pass then 1 else 2) true misr detail m1 m2) (dropTest t s)
  let s := updTest (fun x => { x with plan := x.plan.map fun e =>
    if t.origin = 2 ∧ e.block = t.block ∧ e.kind = kindCode t.kind then { e with overdue := false } else e }) s
  let s := if pass then (if t.origin = 0 then logEvent 0xC9 srcNode (byte1 t.block ++ byte1 (kindCode t.kind)) (passBlock t.block s) else s)
    else failBlock t.block t.kind t.origin misr s
  match t.tag with
  | some tag => finishTag tag 0 (b2n pass + min 255 t.slices * 2 ^ 8) (assertEdge 544 s)
  | none => s

/-- The running test of a block. -/
def runningTest (s : State) (b : Nat) : Option Test := s.test.tests.find? fun t => t.block == b && t.running

/-- A test under way replaced. -/
def putTest (old new : Test) (s : State) : State :=
  updTest (fun x => { x with tests := x.tests.map fun t => if t = old then new else t }) s

/-- Failed checks of a reference test, as DETAIL has them (R484, R493). -/
def refFailed (r : RefMeasure) : BitVec 16 :=
  BitVec.ofNat 16 (flagAt (decide (150 < r.bandgap.natAbs)) 3 + flagAt (decide (100 < r.agreement)) 4
    + flagAt (decide (r.pllVoltage < 150) || decide (850 < r.pllVoltage)) 5 + flagAt (decide (60 < r.sensorDiff.natAbs)) 6)

/-- ST_SLICE_END (R484, R485): the block is restored; the test goes on, is judged, or ends as cut short. -/
def execStSliceEnd (block : Fin 34) (misr : BitVec 64) (lost : Nat) (ref : RefMeasure) : State → Host.Outcome State Fault Refusal :=
  run fun s =>
    match runningTest s block with
    | none => s
    | some t =>
      if t.kind = .loopback ∨ running s = false then s
      else
        let s := toPs t.endPs s
        let patterns := if t.kind = .logic then min (target t.block) (t.patterns + 16) else t.patterns
        let u := { t with patterns := patterns, misr := misr, lost := t.lost + lost, slices := t.slices + 1, running := false }
        let s := updTest (fun x => { x with
          sliceEndPs := s.clk.ps, sliceCount := sat 32 (x.sliceCount + 1), statSlices := u.slices }) (putTest t u s)
        match t.cut, t.kind with
          | some cause, _ => cutTest cause u s
          | none, .reference => endTest u (refFailed ref == 0) 0 (refFailed ref) ref.bandgap ref.sensorDiff s
          | none, _ =>
            if patterns < target t.block then cutIneligible s
            else
              let folded := Config.misrClock (misr ^^^ BitVec.ofNat 64 patterns)
              endTest { u with misr := folded } (folded == Config.signature s.part.code t.block) folded 0 0 0 s

/-- LOOPBACK_END (R484): the loopback in progress ends, and the run with the last of them. -/
def execLoopbackEnd (block : Fin 34) (returned : Nat) : State → Host.Outcome State Fault Refusal :=
  run fun s =>
    match runningTest s block with
    | none => s
    | some t =>
      if t.kind ≠ .loopback ∨ running s = false then s
      else
        let failed := match t.loops with
          | i :: _ => if returned = 64 then t.failed else t.failed ||| BitVec.twoPow 16 i
          | [] => t.failed
        let u := { t with loops := t.loops.drop 1, failed := failed, returned := t.returned + (if t.loops = [] then 0 else returned) }
        let s := putTest t u s
        if u.loops ≠ [] then s
        else
          let v := { u with running := false, slices := 1 }
          let s := updTest (fun x => { x with sliceCount := sat 32 (x.sliceCount + 1), statSlices := 1 }) (putTest u v s)
          match t.cut with
          | some cause => cutTest cause v s
          | none => endTest v (failed == 0) 0 failed v.returned 0 s

/-! ### The start of a slice or a run -/

/-- An object lies in a block (R483, R492). -/
def objectIn (b : Nat) (o : Obj) : Bool :=
  match o with
  | .port code => blockOf code == some b
  | .log => b == 32
  | .slot => b == 32
  | _ => false

/-- A started command has its object in a block (R492): a context's VSU setting lies in the VSU. -/
def commandIn (b : Nat) (c : Cmd) : Bool := (objects c).any (objectIn b) || (b == 30 && (c.opcode == 0x0410 || c.opcode == 0x0411))

/-- A command on the block is in flight, so that no slice starts there (R492, R546). -/
def blockBusy (s : State) (b : Nat) : Bool := s.cmdq.inflight.any fun c => c.phase == .started && commandIn b c

/-- A slice or a run of a test may start (R484, R490, R496). -/
def maySlice (s : State) (t : Test) : Bool :=
  let loop := t.kind == .loopback
  !t.running && !blockBusy s t.block && !(s.test.tests.any fun x => x.running && (x.kind == .loopback) == loop)
    && (t.origin != 2
      || (planRuns s && s.store.service && !opInFlight s 0x0A01 && decide (8000 * unitsPerNs ≤ phaseOf s s.clk.lt)
        && (loop || !s.test.cycleSlice) && eligibleTest s (!isStandby s) t.block t.kind))

/-- The loopbacks that a run makes (R484): 0 near-end digital, 1 analogue, 2 partner. -/
def loopsOf (s : State) (b : Nat) : List Nat :=
  let en := if b = 31 then 3 else s.test.loopEnable.getD (b - 8) 3
  [0, 1, 2].filter fun i => en.getLsbD i && (i != 2 || decide (12 ≤ b && b ≤ 23))

/-- The bound of a loopback run in ns (R484); a port without a mode counts as 100BASE-T1. -/
def loopBound (s : State) (b : Nat) : Nat :=
  let byte := if 12 ≤ b ∧ b ≤ 23 then (match byte5 (carAt s (b - 12)).mode with
    | 0 => 400
    | x => x) else 4
  (loopsOf s b).length * ((64 * 1538 * byte + 4) / 5 + 1000000)

/-- A loopback run takes the port's link down (R484). -/
def loopDown (b : Nat) (s : State) : State :=
  match BPort.all.find? fun p => 8 + p.idx == b with
  | some p => bbDown p s
  | none =>
    if 12 ≤ b ∧ b ≤ 23 ∧ carUp (carAt s (b - 12)) = true then setLink (b - 12) .training (clearPort (b - 12) s) else s

/-- ST_SLICE_START (R484, R490, R496): a slice or a loopback run on a block, at least 60 µs after the last slice. -/
def execStSliceStart (block : Fin 34) : State → Host.Outcome State Fault Refusal :=
  run fun s =>
    let ts := s.test.tests.filter fun t => t.block == block.val && maySlice s t
    match (ts.find? fun t => t.origin == 0).or ts.head? with
    | none => s
    | some t =>
      if !running s then s
      else
        let loop := t.kind == .loopback
        let s := if loop then s else toPs (s.test.sliceEndPs + 60000000) s
        let bound := if loop then loopBound s t.block else 40000
        let u := { t with
          running := true, startPs := s.clk.ps, endPs := s.clk.ps + bound * 1000, loops := if loop then loopsOf s t.block else [] }
        let s := if loop then loopDown t.block s else s
        updTest (fun x => { x with
          statBlock := t.block, statSlices := t.slices, cycleSlice := x.cycleSlice || (t.origin == 2 && !loop) }) (putTest t u s)

/-! ### The autonomous plan -/

/-- A plan entry's next instant. -/
def nextDueAt (i : Nat) (s : State) : State :=
  updTest (fun x => { x with plan := x.plan.modify i fun e => { e with duePs := max s.clk.ps e.duePs + e.period * 10 ^ 12 } }) s

/-- The role admits a plan entry (R495). -/
def entryRole (s : State) (e : PlanEntry) : Bool := e.roles.getLsbD (if isStandby s then 0 else 1)

/-- A new test on a block. -/
def newTest (b : Nat) (k : TestKind) (origin : Nat) (tag : Option (BitVec 8)) (s : State) : Test :=
  { block := b, kind := k, origin := origin, tag := tag, slices := 0, patterns := 0, misr := 0, lost := 0, running := false
    startPs := s.clk.ps, endPs := s.clk.ps, loops := [], failed := 0, returned := 0 }

/-- ST_PLAN_DUE (R13, R495, R496): a plan entry's test starts, is skipped, or is overdue. -/
def execStPlanDue (entry : Fin 32) : State → Host.Outcome State Fault Refusal :=
  run fun s =>
    match s.test.plan[entry.val]? with
    | none => s
    | some e =>
      if !(running s && s.store.service) then s
      else
        let s := nextDueAt entry (toPs e.duePs s)
        if e.block < 34 ∧ blockPresent s.part e.block = false then
          setResult e.block { outcome := 4, autonomous := true, endNs := ltNs s } s
        else match kindOf e.kind with
          | none => s
          | some k =>
            if s.test.tests.any fun t => t.origin == 2 && t.block == e.block && sameKind t.kind k then
              if e.overdue then s
              else logEvent 0xC8 srcNode (byte1 e.block ++ byte1 e.kind)
                (updTest (fun x => { x with plan := x.plan.modify entry fun e => { e with overdue := true } }) s)
            else if planRuns s && entryRole s e && eligibleTest s (!isStandby s) e.block k then
              updTest (fun x => { x with tests := x.tests ++ [newTest e.block k 2 none s] }) s
            else s

/-! ### ST_RUN and ST_RESULT -/

/-- The block lies in a domain that is off (R503). -/
def blockOff (s : State) (b : Nat) : Bool :=
  if 12 ≤ b ∧ b ≤ 23 then !powered s (7 + (b - 12) / 4)
  else if 24 ≤ b ∧ b ≤ 29 then !powered s 10
  else (b == 30 && !powered s 11) || (b == 31 && !powered s 12)

/-- ST_RUN (R76, R477, R490): one test of a kind on a block. -/
def execStRun (tag : BitVec 8) : State → Host.Outcome State Fault Refusal :=
  run (withCmd 0x0A01 tag fun c s =>
    let b := pB c 0
    checked c [lenCheck c 2 false, absent (decide (b < 34) && !blockPresent s.part b), epochFail c s,
        refuseIf (s.test.lc == 3 || s.test.lc == 5 || blockOff s b) s, busyFail s (some b), badP (decide (33 < b)) c 0,
        badP ((kindOf (pB c 1)).all fun k => !admits b k) c 1, exclusiveFail c s]
      (fun s => match kindOf (pB c 1) with
        | some k => updTest (fun x => { x with tests := x.tests ++ [newTest b k 0 (some tag) s] }) (park c 0 0 s)
        | none => s) s)

/-- The 64 bytes of ST_RESULT (R493). -/
def resultBytes (part b : Nat) (r : TestResult) : List Byte :=
  let ran := r.outcome != 0 && r.outcome != 4
  padTo 64 0 (byte1 b ++ byte1 (kindCode r.kind) ++ byte1 r.outcome
    ++ byte1 (packBits [r.complete, r.folded, r.target, r.autonomous && ran, r.boot])
    ++ le 4 r.patterns ++ le 4 (if ran && r.kind == .logic then target b else 0) ++ le 8 r.misr.toNat
    ++ le 8 (if ran && r.kind == .logic then (Config.signature part b).toNat else 0) ++ le 8 r.endNs ++ le 2 r.slices ++ le 2 r.detail.toNat
    ++ le 4 r.lost ++ le 4 (twos 32 r.measure1) ++ le 4 (twos 32 r.measure2))

/-- ST_RESULT (R8, R489, R493). -/
def execStResult (tag : BitVec 8) (wr : Bool) : State → Host.Outcome State Fault Refusal :=
  run (withCmd 0x0A02 tag fun c s =>
    let b := pB c 0
    checked c ([lenCheck c 1 true, epochFail c s, busyFail s (some b)] ++ descChecks c 64 ++ [badP (decide (33 < b)) c 0])
      (finishOut c wr (resultBytes s.part.code b ((tabFind s.test.results b).getD {})) 0) s)

/-! ### Life-cycle -/

/-- LC_CHALLENGE (R83). -/
def execLcChallenge (tag : BitVec 8) : State → Host.Outcome State Fault Refusal :=
  run (withCmd 0x0A03 tag fun c s => checked c [lenCheck c 0 false, epochFail c s] (fun s =>
    let n := drawn s
    let s := draw { s with cmdq := { s.cmdq with lcNonce := some { value := n, atPs := s.clk.ps } } }
    finish c 0 n.toNat s) s)

/-- The transitions of R479: none, or whether one needs the maintenance key and whether it is stored. -/
def transition (from_ goal : Nat) : Option (Bool × Bool) :=
  match from_, goal with
  | 1, 2 => some (false, true)
  | 2, 3 => some (false, true)
  | 3, 4 => some (true, false)
  | 4, 3 => some (false, false)
  | 1, 5 => some (false, true)
  | 2, 5 => some (false, true)
  | 3, 5 => some (true, true)
  | 4, 5 => some (true, true)
  | _, _ => none

/-- A stored copy of a life-cycle code (R478). -/
def lcWord (code : Nat) : Word := w32 (code % 256 + (255 - code % 256) * 256)

/-- The life-cycle state changes (R481, R482): LC_CHANGE, source 547, keys sealed or erased, slots invalidated. -/
def lcEffect (goal : Nat) (stored : Bool) (s : State) : State :=
  let from_ := s.test.lc
  let s := updTest (fun x => { x with lc := goal, copies := if stored then List.replicate 3 (lcWord goal) else x.copies }) s
  let s := if from_ = 2 ∧ goal = 3 then logEvent 0xC7 srcNode [] (updTest (fun x => { x with keys := s.store.imageKeys }) s) else s
  let s := if goal = 5 then
      { s with test := { s.test with keys := none }, store := { s.store with slots := s.store.slots.map fun x => { x with sealRec := none } } }
    else s
  cutIneligible (assertEdge 547 (logEvent 0xC0 srcNode (byte1 from_ ++ byte1 goal) s))

/-- LC_SET (R83, R479 to R482). -/
def execLcSet (tag : BitVec 8) (ok : Bool) (addr : Word) : State → Host.Outcome State Fault Refusal :=
  run (withCmd 0x0A04 tag fun c s =>
    let goal := pB c 0
    let way := transition s.test.lc goal
    let auth := (way.map fun w => w.1) == some true
    let stored := (way.map fun w => w.2) == some true
    checked c [lenCheck c 32 false] (fun s =>
      let code := slice c.inl 16 16
      let bad := if auth then authFail s s.cmdq.lcNonce 0x0A 0x04 ([BitVec.ofNat 8 goal] ++ zeros 3) code else none
      let s := if auth then { s with cmdq := { s.cmdq with lcNonce := none } } else s
      let s := if (bad.map fun x => x.1) = some 0x41 then logEvent 0xC1 srcNode (byte1 goal) s else s
      checked c [bad, epochFail c s, refuseIf (s.test.lc == 2 && goal == 3 && (s.store.slot.isNone || s.store.imageKeys.isNone)) s,
          badP way.isNone c 0, badP (!auth && code != zeros 16) c 16, failIf (stored && !ok) 0x60 addr.toNat]
        (fun s => finish c 0 goal (lcEffect goal stored s)) s) s)

end Sys2Proof.Machine
end

