-- ==== Sys2Proof/Machine/Boot.lean ====
section
/-! DEFINITION. The boot sequence: life-cycle, boot tests, the log, the choice of an image and its application, and the beginning of
service (R171, R336, R362, R478, R494, R531 to R541, R561, R573). -/

namespace Sys2Proof.Machine

/-- The store changed by a function. -/
def updStore (f : Store → Store) (s : State) : State := { s with store := f s.store }

/-! ### Steps 2 to 5 -/

/-- Reset is released (R127, R171, R531 steps 1 to 3, R573, R587, R588); PREF is ignored on a part without a twin link (R7). -/
def releaseReset (straps : Straps) (s : State) : State :=
  let origin := BitVec.ofNat 32 ((Config.originDraw s.clk.draws).val + 1)
  let lt := floorNs s.flow * unitsPerNs
  draw { s with
    clk := { s.clk with running := true, lt := lt, ltRem := 0 }
    time := { s.time with pllLocked := true }
    survey := { s.survey with origin := origin }
    power := { s.power with bypA := true, bypB := true }
    regs := { s.regs with pcieUp := !s.regs.perstLow }
    store := { s.store with released := true, orient := straps.orient, pref := straps.pref && hasTwin s.part, clksel := straps.clksel, step := 4 } }

/-- The code of a life-cycle copy that is well formed (R478): MAINTENANCE is never stored. -/
def lcCode (w : Word) : Option Nat := [1, 2, 3, 5].find? fun c => w == lcWord c

/-- The code on which two well-formed copies agree (R478). -/
def storedLc (copies : List Word) : Option Nat := [1, 2, 3, 5].find? fun c => decide (2 ≤ (copies.filter fun w => lcCode w == some c).length)

/-- The life-cycle state is read (R478). -/
def readLifeCycle (s : State) : State :=
  match storedLc s.test.copies with
  | some c => updTest (fun x => { x with lc := c }) s
  | none =>
    logEvent 0xC6 srcNode (s.test.copies.map fun w => w.setWidth 8)
      (updTest (fun x => { x with lc := 3, readFault := true }) s)

/-- Blocks that the boot ROM tests (R494). -/
def bootBlocks : List Nat := [0, 1, 2, 3, 4, 5, 6, 7, 33]

/-- The MISR of a block's boot test: the reference signature where it passes (R485, R493). -/
def bootMisrOf (pass : Bool) (b : Nat) (s : State) : BitVec 64 :=
  if b = 33 then 0 else if pass then Config.signature s.part.code b else Config.bootMisr s.clk.draws b

/-- The result of a block's boot test (R493, R494). -/
def bootResult (pass : Bool) (b : Nat) (s : State) : TestResult :=
  let m := Config.bootReference s.clk.draws
  let ref := b == 33
  { kind := if ref then .reference else .logic, outcome := if pass then 1 else 2, complete := true, folded := !ref, target := !ref, boot := true
    patterns := target b, misr := bootMisrOf pass b s, endNs := ltNs s, slices := if ref then 1 else target b / 16
    detail := if ref then m.1 else 0, measure1 := if ref then m.2.1 else 0, measure2 := if ref then m.2.2 else 0 }

/-- The slices of a boot test are counted (R498). -/
def countSlices (b : Nat) (s : State) : State :=
  updTest (fun x => { x with sliceCount := sat 32 (x.sliceCount + (if b = 33 then 1 else target b / 16)) }) s

/-- A boot test passes and clears the block's stored bit (R487). -/
def bootPass (s : State) (b : Nat) : State :=
  let s := countSlices b (setResult b (bootResult true b s) s)
  if quarantined s b then setQuarantine b false s else s

/-- A boot test fails (R486). -/
def bootFail (s : State) (b : Nat) : State :=
  let misr := bootMisrOf false b s
  failBlock b (if b = 33 then .reference else .logic) 1 misr (countSlices b (setResult b (bootResult false b s) s))

/-- The boot tests (R494): the passing blocks and then the failing ones, until the node is Dark (R497, R532). Core 1 tests core 0 last. -/
def bootTests (failed : BitVec 34) (s : State) : State :=
  let s := (bootBlocks.filter fun b => !failed.getLsbD b).foldl bootPass (updStore (fun x => { x with step := 5 }) s)
  let s := (bootBlocks.filter fun b => failed.getLsbD b).foldl (fun s b => if s.test.dark.isSome then s else bootFail s b) s
  updTest (fun x => { x with statBlock := 1, statSlices := 255 }) s

/-! ### Step 7 -/

/-- SLOT_INVALID for a slot that is neither unsealed nor valid (R540, R549). -/
def noteInvalid (s : State) (i : Nat) : State :=
  let r := slotReason s i
  if r = 0 ∨ r = 1 then s
  else logEvent 0xF3 srcNode (byte1 i ++ byte1 r ++ (if (slotAt s i).readable then le 4 (slotGen s i) else [])) s

/-- An image is chosen (R540, R549). -/
def chooseImage (s : State) : State :=
  let s := [0, 1, 2].foldl noteInvalid s
  let (slot, refused) := chooseSlot s
  let s := if refused ≠ [] then
      logEvent 0xF1 srcNode (le 4 (topGen s) ++ byte1 (packBits ([0, 1, 2].map fun i => refused.contains i))) s
    else if slot.isNone then logEvent 0xF2 srcNode ([0, 1, 2].map fun i => BitVec.ofNat 8 (slotReason s i)) s
    else s
  updStore (fun x => { x with
    slot := slot, chosen := true, splitSeen := refused != [], step := 7, generation := (slot.map fun i => slotGen s i).getD 0 }) s

/-! ### Step 8 -/

/-- NODE is applied (R130, R131, R509, R510, R536). -/
def applyNode (n : List Byte) (s : State) : State :=
  { s with
    time := { s.time with l := fld n 0 8, hyper := fld n 8 1, squeeze := fld n 10 2 }
    store := { s.store with imageCycle := (fld n 0 8, fld n 8 1, fld n 10 2) }
    power := { s.power with wakeEn := w32 (fld n 12 4), parkLimit := fld n 16 2 } }

/-- CONTRACTS is taken (R260, R263). -/
def applyContracts (bs : List Byte) (s : State) : State :=
  updStore (fun x => { x with contracts := ((pieces 32 bs).filter fun e => (contractBad e).isNone).map contractOf }) s

/-- The settings commands that an image may hold (R537). -/
def imageSettings : List Nat := [0x0501, 0x0503, 0x0504, 0x0505, 0x0508, 0x0305, 0x0601, 0x0701, 0x0702, 0x0706, 0x0707]

/-- The command of a SETTINGS record (R68, R69, R537): its inline parameters and, for an opcode that takes one, its input buffer. -/
def recordCmd (r : List Byte) : Cmd × List Byte :=
  let op := fld r 0 2
  let plen := fld r 4 2
  let inl := slice r 8 plen
  let buffered := op == 0x0505 || op == 0x0702 || op == 0x0706
  let buf := r.drop (8 + (plen + 3) / 4 * 4)
  let head := le 2 op ++ le 2 0 ++ le 2 (flagAt buffered 1) ++ le 2 plen ++ [0xFF] ++ zeros 7
  let desc := if buffered then le 8 0 ++ le 4 buf.length ++ zeros 4 else []
  (parseCmd 0 0 0 0 (padTo 64 0 (head ++ desc ++ inl)), if buffered then buf else [])

/-- SETTING_SKIPPED (R537, R549). -/
def skipRecord (op i status : Nat) (s : State) : State := logEvent 0xF6 srcNode (le 2 op ++ le 2 i ++ le 2 status) s

/-- One SETTINGS record is applied or skipped (R537). -/
def applyRecord (i : Nat) (r : List Byte) (s : State) : State :=
  let op := fld r 0 2
  if !imageSettings.contains op then skipRecord op i 0x10 s
  else
    let (c, buf) := recordCmd r
    let (s', status) := applySetting c buf s
    if status = 0 then s' else skipRecord op i status s

/-- The SETTINGS records in order; one whose RLEN bounds no record ends them. The first number bounds the records, the second counts
them. -/
def applyRecords : Nat → Nat → List Byte → State → State
  | 0, _, _, s => s
  | n + 1, i, bs, s =>
    if bs = [] then s
    else
      let len := fld bs 2 2
      if len < 8 ∨ len % 4 ≠ 0 ∨ bs.length < len then skipRecord (fld bs 0 2) i 0x12 s
      else applyRecords n (i + 1) (bs.drop len) (applyRecord i (bs.take len) s)

/-- A token bucket as RATES sets it, full (R335). -/
def rateBucket (e : List Byte) (s : State) : Bucket :=
  { rate := fld e 4 4, burst := fld e 8 4, level := fld e 8 4 * 10 ^ 12, atPs := s.clk.ps }

/-- One entry of RATES (R335, R337, R364). -/
def applyRate (s : State) (e : List Byte) : State :=
  let code := fld e 0 1
  let flood := fld e 1 1 == 1
  if (rateBad e).isSome then s
  else if code < 0x0C then setCar code (fun p => { p with bucket := rateBucket e s, floodBit := flood }) s
  else setMd (code - 0x20) (fun m => { m with bucket := rateBucket e s, floodBit := flood }) s

/-- An entry of FDB (R336). -/
def fdbEntry (e : List Byte) : FdbEntry :=
  { vid := fld e 0 2, addr := macOf (slice e 2 6), mask := BitVec.ofNat 12 (fld e 8 2), host := bitOf (fld e 10 1) 0
    localOnly := bitOf (fld e 10 1) 1 }

/-- The set of an entry (R336). -/
def fdbSet (e : FdbEntry) : Nat := (crc16 (be 2 (e.vid % 4096) ++ macBytes e.addr)).toNat % 2048

/-- FDB is loaded (R336): an entry that would be a fifth in its set is not; the count of those is written. -/
def applyFdb (bs : List Byte) (s : State) : State :=
  let r := ((pieces 12 bs).filter fun e => (fdbBad e).isNone).foldl (fun (acc : List FdbEntry × Nat) e =>
    let x := fdbEntry e
    if (acc.1.filter fun y => fdbSet y == fdbSet x).length < 4 then (acc.1 ++ [x], acc.2) else (acc.1, acc.2 + 1)) ([], 0)
  let s := updStore (fun x => { x with fdb := r.1 }) s
  if r.2 = 0 then s else logEvent 0x06 srcNode (le 2 r.2) s

/-- One pinned entry of STATIONS (R362). -/
def applyStation (s : State) (e : List Byte) : State :=
  if (stationBad e).isSome then s
  else setMd (fld e 0 1 - 0x20) (fun m => { m with
    stations := tabSet {} m.stations (fld e 1 1) { addr := some (macOf (slice e 2 6)), pinned := true } }) s

/-- STATIONS is loaded (R362). -/
def applyStations (bs : List Byte) (s : State) : State :=
  let bit (i : Nat) : Bool := bitOf (fld bs 0 4) i
  let s := setMd 1 (fun m => { m with learn := bit 1 }) (setMd 0 (fun m => { m with learn := bit 0 }) s)
  (pieces 8 (bs.drop 4)).foldl applyStation s

/-- VIDEO is loaded, with the lead of each port (R285, R536). -/
def applyVideo (bs : List Byte) (s : State) : State :=
  let es := ((pieces 8 bs).filter fun e => (videoBad e).isNone).map fun e =>
    ({ port := fld e 0 1, glk := fld e 1 1, form := fld e 2 1, codec := fld e 3 1, lead := fld e 4 4 } : Video)
  es.foldl (fun s e => setCar e.port (fun p => { p with lead := e.lead }) s) (updStore (fun x => { x with video := es }) s)

/-- SELFTEST is loaded (R484, R495); its plan comes into force with the service. -/
def applySelfTest (bs : List Byte) (s : State) : State :=
  updTest (fun x => { x with
    loopEnable := (List.range 16).map fun i => BitVec.ofNat 3 (fld bs i 1)
    plan := ((pieces 8 (bs.drop 16)).filter fun e => (planBad e).isNone).map fun e =>
      { block := fld e 0 1, kind := fld e 1 1, roles := BitVec.ofNat 2 (fld e 2 1), period := fld e 4 2, duePs := 0, overdue := false } }) s

/-- A section of the image is applied, where it has it. -/
def withSection (bs : List Byte) (type : Nat) (f : List Byte → State → State) (s : State) : State :=
  match sectionOf bs type with
  | some x => f x s
  | none => s

/-- The image in force is applied (R536, R537); what no section sets keeps the value of FACTORY_SAFE, at which reset left it (R541). -/
def applyImage (s : State) : State :=
  match s.store.slot with
  | none => updPower (fun p => { p with wakeEn := 0x7FF }) s
  | some i =>
    let bs := slotImage s i
    let s := withSection bs 2 applyContracts (withSection bs 1 applyNode s)
    let s := withSection bs 6 applyStations (withSection bs 5 applyFdb (withSection bs 4 (fun x s => (pieces 12 x).foldl applyRate s) s))
    let s := withSection bs 8 applySelfTest (withSection bs 7 applyVideo s)
    let s := withSection bs 9 (fun k s => updStore (fun x => { x with imageKeys := some (k.take 32, slice k 32 32) }) s) s
    withSection bs 3 (fun x => applyRecords x.length 0 x) s

/-- The firmware writes BOOT, WAKE after a wake, and the copy of WATCHDOG_RESET after that reset (R522, R531, R549). -/
def bootRecords (s : State) : State :=
  let s := logEvent 0xF0 srcNode (byte1 s.store.cause ++ byte1 (match s.store.slot with
    | some i => i
    | none => 0xFF) ++ le 4 s.store.generation ++ byte1 s.test.lc) s
  let s := if s.power.waking then assertEdge 608 (logEvent 0xE4 srcNode (le 2 (s.power.wakeLatch.toNat % 65536)) s) else s
  if s.store.cause = 3 then match s.flow.sump.reverse.find? fun r => r.code == 0xF7 with
    | some r => logEvent 0xF7 srcNode r.data s
    | none => s
  else s

/-- RESET_RELEASE (R521, R531, R573): the rails are good and the boot runs to the end of step 8, or to Dark (R532). The log is read
before the tests that write to it. -/
def execResetRelease (straps : Straps) (failed : BitVec 34) : State → Host.Outcome State Fault Refusal :=
  run fun s =>
    if s.store.released || s.store.rstLow || s.power.railHold || s.power.mode != .run then s
    else
      let s := releaseReset straps s
      let s := readLifeCycle (readLog (quarantined s 32) s)
      let s := bootTests failed s
      if s.test.dark.isSome then s
      else
        let s := updStore (fun x => { x with step := 8 }) (bootRecords (applyImage (chooseImage s)))
        { s with time := { s.time with cycle := cycleNow s } }

/-- BOOT_COMPLETE (R422, R495, R531 step 9, R561): service begins, with the Survey, the role and the autonomous plan. -/
def execBootComplete : State → Host.Outcome State Fault Refusal :=
  run fun s =>
    if !(running s) || s.store.service || s.store.step != 8 then s
    else
      let s := updStore (fun x => { x with service := true, step := 9 }) s
      let s := draw { s with survey := { s.survey with state := .listen, nonce := (drawn s).setWidth 32 } }
      let s := updTest (fun x => { x with plan := x.plan.map fun e => { e with duePs := s.clk.ps + e.period * 10 ^ 12 } }) s
      startRole s

end Sys2Proof.Machine
end

