-- ==== Sys2Proof/Machine/StoreCmds.lean ====
section
/-! DEFINITION. The commands of the configuration store (R542 to R549). -/

namespace Sys2Proof.Machine

/-- The target slot of a CONFIG_COMMIT (R542): the lowest-numbered slot that is not valid, else the valid one with the lowest
GENERATION, never the slot in force. -/
def targetSlot (s : State) : Nat :=
  let free := [0, 1, 2].filter fun i => s.store.slot != some i
  match free.find? fun i => !slotValid s i with
  | some i => i
  | none => match free with
    | [] => 0
    | i :: rest => rest.foldl (fun m j => if slotGen s j < slotGen s m then j else m) i

/-- A check of R542: BAD_PARAM at offset 16 with the offset of an image byte in the upper half of the result. -/
def imageFail (off : Option Nat) : Fail := off.map fun o => (0x11, 16 + o % 2 ^ 32 * 2 ^ 32)

/-- The parameter checks of CONFIG_COMMIT in their order (R542). -/
def commitChecks (s : State) (bs : List Byte) : List Fail :=
  let n := imageLen bs
  let at_ (bad : Bool) (o : Nat) : Fail := imageFail (if bad then some o else none)
  [at_ (decide (bs.length < n)) 12, imageFail (imageBad s.part (bs.take n)), at_ (!imageCrcOk bs) (n - 68),
   at_ (decide (imageGen bs ≤ topGen s)) 8, at_ (!signatureOk s bs) (n - 64)]

/-- The target slot is unsealed and its writing begins (R543, R544). -/
def startCommit (c : Cmd) (bs : List Byte) (s : State) : State :=
  let i := targetSlot s
  park c i 0 (updStore (fun x => { x with
    slots := x.slots.modify i fun y => { y with sealRec := none }, commit := some (c.tag, i, bs.take (imageLen bs)) }) s)

/-- CONFIG_COMMIT (R76, R483, R542, R543). -/
def execConfigCommit (tag : BitVec 8) (buf : Option (List Byte)) : State → Host.Outcome State Fault Refusal :=
  run (withCmd 0x0C01 tag fun c s =>
    let bs := inBuffer c buf s
    checked c ([lenCheck c 0 true, epochFail c s, refuseIf (s.test.lc == 5) s, busyFail s (some 32),
        failIf (quarantined s 32) 0x60 (Config.quarantineAddr s.clk.draws).toNat]
      ++ descChecks c 4 ++ [unread bs] ++ commitChecks s (bs.getD []) ++ [exclusiveFail c s])
      (startCommit c (bs.getD [])) s)

/-- CONFIG_SEAL_WRITTEN (R81, R543): the seal is verified, which is the commit point, or the write has failed. -/
def execConfigSealWritten (ok : Bool) (addr : Word) : State → Host.Outcome State Fault Refusal :=
  run fun s =>
    match s.store.commit with
    | none => s
    | some (tag, i, bs) =>
      if !serving s then s
      else
        let moved := epochMoved s (some tag)
        let s := updStore (fun x => { x with commit := none }) s
        if !ok then finishTag tag 0x60 addr.toNat (logEvent 0xF5 srcNode (byte1 i ++ le 4 addr.toNat) s)
        else if moved then finishTag tag 0x50 s.survey.epoch s
        else
          let s := updStore (fun x => { x with
            slots := x.slots.modify i fun _ => { image := bs, sealRec := some (sealFor bs), readable := true } }) s
          finishTag tag 0 (imageGen bs + i * 2 ^ 32) (logEvent 0xF4 srcNode (byte1 i ++ le 4 (imageGen bs)) s)

/-- CONFIG_STATUS's result (R547). -/
def configStatus (s : State) : Nat :=
  packBits ([0, 1, 2].map (slotValid s)) + (match s.store.slot with
    | some i => i
    | none => 0xF) * 2 ^ 4 + flagAt s.store.splitSeen 8 + s.store.cause % 16 * 2 ^ 12 + s.store.generation * 2 ^ 32

/-- CONFIG_STATUS (R489, R547). -/
def execConfigStatus (tag : BitVec 8) : State → Host.Outcome State Fault Refusal :=
  run (withCmd 0x0C02 tag fun c s =>
    checked c ([lenCheck c 0 false] ++ stateChecks c s (some 32) false) (finish c 0 (configStatus s)) s)

/-- The image as CONFIG_READ writes it (R548): bytes 32 to 63 of a KEYS section are zero. -/
def readImage (s : State) (i : Nat) : List Byte :=
  let bs := slotImage s i
  match (sectionTable bs).find? fun x => x.type == 9 with
  | some x => bs.take (x.offset + 32) ++ zeros 32 ++ bs.drop (x.offset + 64)
  | none => bs

/-- CONFIG_READ (R489, R548). -/
def execConfigRead (tag : BitVec 8) (wr : Bool) : State → Host.Outcome State Fault Refusal :=
  run (withCmd 0x0C03 tag fun c s =>
    let i := pB c 0
    checked c ([lenCheck c 1 true] ++ stateChecks c s (some 32) false ++ descChecks c 4 ++ [badP (decide (2 < i)) c 0])
      (fun s =>
        let bs := if slotValid s i then readImage s i else []
        let status := if c.bufLen < bs.length then 1 else 0
        match outBuffer c wr bs s with
        | some s' => finish c status (min c.bufLen bs.length) s'
        | none => if bs = [] then finish c status 0 s else finish c 0x11 16 s) s)

end Sys2Proof.Machine
end

