-- ==== Sys2Proof/Machine/Power.lean ====
section
/-! DEFINITION. Power modes and domains, Park entry, wakes and resets (R501 to R512, R518 to R522, R528 to R530, R563). -/

namespace Sys2Proof.Machine

/-! ### Park entry -/

/-- The nominal rate of a controller's timing is one at which the PD1 decoder runs (R406): 125, 250, 500 or 1,000 kbit/s. -/
def wakeRate (c : CanCtl) : Bool := [2000, 1000, 500, 250].contains (bitPeriods c.timing 0)

/-- The nominal rate of a controller's timing in bit/s, saturating (R380, R466): CANCLK is 250 MHz. -/
def nominalRate (c : CanCtl) : Nat := if bitPeriods c.timing 0 = 0 then 2 ^ 32 - 1 else 250000000 / bitPeriods c.timing 0

/-- The PD1 decoder of CX0 or CX1 is armed (R405, R406): a channel whose mode is not 0 and whose rate is another writes CAN_WAKE_RATE. -/
def armDecoder (s : State) (n : Nat) : State :=
  let c := canAt s n
  let on := c.mode != 0 && wakeRate c
  let s := setCan n (fun c => { c with decoder := on, wakeArmed := c.wake }) s
  if c.mode ≠ 0 ∧ on = false then logEvent 0x7C (srcPort (0x30 + n)) (le 4 (nominalRate c)) s else s

/-- The outputs take their Park levels (R502): low where the unit is not paired, else not driven. ACTL is released. -/
def parkOutputs (s : State) : State :=
  let s := { s with twin := { s.twin with drivesActl := false } }
  if s.twin.partner.isSome then floatOutputs true s
  else { s with
    time := { s.time with glk := s.time.glk.map fun g => { g with level := false } }
    twin := { s.twin with dout := 0 } }

/-- A controller at Park entry (R408, R508): off its bus, at once or, with a frame in progress, at the end of that frame. -/
def parkCan (n : Nat) (s : State) : State :=
  let t := setCan n (fun c => { c with column := none }) s
  if canInFrame s n then t else setCanState n .off (setCan n (fun c => { c with sending := none }) t)

/-- Steps 1 to 5 of Park entry (R478, R491, R502, R508, R561): mode 2 or 3, cause 1 for a network sleep or 2 for a command. -/
def parkEntry (target cause : Nat) (s : State) : State :=
  let s := cutTests (fun _ => true) s
  let s := { s with
    power := { s.power with mode := .parking, parkTarget := target, wakeLatch := 0 }
    survey := { s.survey with state := .parking }
    store := { s.store with service := false } }
  let s := parkOutputs (draw ((List.range (canCtls s.part.code)).foldl (fun s n => parkCan n s) s))
  let s := logEvent 0xE3 srcNode (byte1 target ++ byte1 cause ++ byte1 (b2n (s.power.parkLimit != 0))) s
  let s := flushFlow (armDecoder (armDecoder s 0) 1)
  phyDown { s with
    test := { s.test with lc := if s.test.lc = 4 then 3 else s.test.lc }
    power := { s.power with islands := true, parkPs := s.clk.ps } }

/-- PARK_ENTRY_COMPLETE (R502, R508, R509, R563): step 6. A reason latched LATE wakes the unit at once. -/
def execParkEntryComplete : State → Host.Outcome State Fault Refusal :=
  run fun s =>
    if s.power.mode ≠ .parking then s
    else
      let deep := s.power.parkTarget = 3
      let s := { s with
        clk := { s.clk with running := false }
        regs := { s.regs with pcieUp := false }
        can := s.can.map fun c => { c with state := .off, sending := none, decoder := c.decoder && !deep }
        power := { s.power with
          mode := if deep then .deepPark else .park, wakeOut := false, domains := if deep then 1 else 3, islands := !deep
          bypA := s.power.bypA && !deep, bypB := s.power.bypB && !deep } }
      if s.power.wakeLatch.getLsbD 15 then wakeUp s else s

/-- DEEP_PARK_ENTRY (R509): the park timer reaches PARK_LIMIT. -/
def execDeepParkEntry : State → Host.Outcome State Fault Refusal :=
  run fun s =>
    if s.power.mode != .park || s.power.parkLimit == 0 then s
    else
      let s := toPs (s.power.parkPs + s.power.parkLimit * 10 ^ 12) s
      { s with
        can := s.can.map fun c => { c with decoder := false }
        power := { s.power with mode := .deepPark, domains := 1, islands := false, bypA := false, bypB := false } }

/-! ### Wakes -/

/-- LANTERN_WAKE (R506, R510, R511): LANTERN has been high for 1,000,000 ns. -/
def execLanternWake : State → Host.Outcome State Fault Refusal :=
  run fun s =>
    let s := readyTrack (updPower (fun p => { p with lantern := true }) s)
    if s.power.mode = .doze ∧ running s = true then (if reasonOn s 0 then dozeExit [0] s else s) else wakeReason 0 s

/-- LANTERN_CHANGE (R511, R514, R516). -/
def execLanternChange (level : Bool) : State → Host.Outcome State Fault Refusal :=
  run fun s => readyTrack (updPower (fun p => { p with lantern := level }) s)

/-- WAKE_PULSE_DETECT (R520): a parked island has seen energy for 200 µs. -/
def execWakePulseDetect (port : BPort) : State → Host.Outcome State Fault Refusal :=
  run fun s => if s.power.islands then wakeReason (match port.line with
    | .a => 1
    | .b => 2) s else s

/-- A frame matches a wake filter (R405): a classical data frame. -/
def wakeMatches (f : CanFrame) (w : WakeFilter) : Bool :=
  let bits64 := BitVec.ofNat 64 (unle f.data)
  w.flags.getLsbD 0 && f.format == .classical && !f.rtr && f.ide == w.flags.getLsbD 1
    && (f.ident.setWidth 32 ^^^ w.ident) &&& w.mask &&& 0x1FFFFFFF == 0
    && (!w.flags.getLsbD 2 || (f.data.length == w.dlc && bits64 &&& w.dataMask != 0))

/-- CAN_WAKE_MATCH (R406): the reason bit of CX0 or CX1. -/
def execCanWakeMatch (ctl : Fin 4) (frame : CanFrame) : State → Host.Outcome State Fault Refusal :=
  run fun s =>
    let c := canAt s ctl
    if c.decoder && c.wakeArmed.any (fun e => wakeMatches frame e.2) then wakeReason (3 + ctl.val) s else s

/-- CAN_WAKE_ERRORS (R406): 32 decoding errors without a valid classical frame. -/
def execCanWakeErrors (ctl : Fin 4) : State → Host.Outcome State Fault Refusal :=
  run fun s => if (canAt s ctl).decoder then wakeReason (5 + ctl.val) s else s

/-! ### Resets -/

/-- RSTn counts as low (R528): for 1 µs or more it does, for less than 100 ns it does not, between the two either may hold (log 11). -/
def rstnCounts (width : Nat) (s : State) : Bool := decide (1000 ≤ width) || (decide (100 ≤ width) && Config.rstnShort s.clk.draws)

/-- RSTN_LOW (R510, R525, R528, R530, R587): a reset, or a parked unit held parked, with the bypass outputs low. -/
def execRstnLow (width : Nat) : State → Host.Outcome State Fault Refusal :=
  run fun s =>
    if rstnCounts width s = false ∨ s.store.rstLow = true then s
    else
      let s := draw { s with store := { s.store with rstLow := true } }
      match s.power.mode with
      | .unpowered => s
      | .park => updPower (fun p => { p with bypA := false, bypB := false }) s
      | .deepPark => updPower (fun p => { p with bypA := false, bypB := false }) s
      | _ => onlyReason 12 (startReset 2 false s)

/-- RSTN_RISE (R510, R530): the boot may start, and a parked unit wakes. -/
def execRstnRise : State → Host.Outcome State Fault Refusal :=
  run fun s =>
    if s.store.rstLow = false then s
    else
      let s := { s with store := { s.store with rstLow := false } }
      if s.power.mode = .park ∨ s.power.mode = .deepPark then wakeUp (latchReason 12 s) else s

/-- POWER_LOSS (R464, R528, R587): VAON falls below its minimum. PD0 and what is not in MRAM are lost; nothing is driven. -/
def execPowerLoss : State → Host.Outcome State Fault Refusal :=
  run fun s =>
    let s := startReset 1 true s
    updPower (fun p => { p with mode := .unpowered, wakeOut := false, domains := 0 }) { s with regs := {} }

/-- POWER_ON (R510, R521, R528): VAON is applied, POWER_ON is latched and WAKE_OUT rises. -/
def execPowerOn : State → Host.Outcome State Fault Refusal :=
  run fun s => if s.power.mode = .unpowered then startReset 1 true s else s

/-- RAIL_FAULT's data (R526). -/
def railData (rails : BitVec 3) : List Byte := [rails.setWidth 8]

/-- BROWN_OUT (R528, R587): a switched rail leaves regulation in Run or Doze. -/
def execBrownOut (rails : BitVec 3) : State → Host.Outcome State Fault Refusal :=
  run fun s =>
    if rails != 0 && s.store.released && (s.power.mode == .run || s.power.mode == .doze) then
      startReset 4 false (sumpEvent 0xE8 (railData rails) s)
    else s

/-- WATCHDOG_RESET (R528, R549): 20 ms after the watchdog fired. -/
def execWatchdogReset (core : Fin 4) : State → Host.Outcome State Fault Refusal :=
  run fun s =>
    if s.twin.watchdog && s.store.released then
      startReset 3 false (sumpEvent 0xF7 (byte1 core) (toPs (s.twin.firedPs + 20 * 10 ^ 9) s))
    else s

/-- The unit waits for its rails: powered, awake and in reset. -/
def awaitsRails (s : State) : Bool := s.power.mode == .run && !s.store.released

/-- RAIL_TIMEOUT (R521): the rails are not good within 10 ms of WAKE_OUT's rise; it falls. -/
def execRailTimeout (rails : BitVec 3) : State → Host.Outcome State Fault Refusal :=
  run fun s =>
    if awaitsRails s && !s.power.railHold && rails != 0 then
      let s := toPs (s.power.railPs + 10 * 10 ^ 9) s
      updPower (fun p => { p with railHold := true, wakeOut := false, railPs := s.clk.ps }) (sumpEvent 0xE8 (railData rails) s)
    else s

/-- RAIL_RETRY (R521): after 100 ms WAKE_OUT rises again. -/
def execRailRetry : State → Host.Outcome State Fault Refusal :=
  run fun s =>
    if awaitsRails s && s.power.railHold then
      let s := toPs (s.power.railPs + 100 * 10 ^ 9) s
      updPower (fun p => { p with railHold := false, wakeOut := true, railPs := s.clk.ps }) s
    else s

/-! ### Commands -/

/-- The unit may park alone (R507): it is not NUMBERED, or its consist has COUNT 1. -/
def mayPark (s : State) : Bool := s.survey.state != .numbered || consistCount s == 1

/-- POWER_MODE_SET is refused (R504, R507, R546). -/
def modeRefused (mode : Nat) (s : State) : Bool :=
  if mode = 1 then s.power.mode != .run || (s.planner.staged.any fun t => hasRole s t.ctxs) || hasRole s s.planner.ctxs
  else (mode == 2 || mode == 3) && (!mayPark s || opInFlight s 0x0C01)

/-- The node enters Doze (R501, R504): PD11 is off, cores 1 to 3 sleep. -/
def enterDoze (s : State) : State :=
  let s := updPower (fun p => { p with mode := .doze, domains := p.domains &&& ~~~(BitVec.twoPow 14 11) }) (stopVsu s)
  setAsleep true (logEvent 0xE5 srcNode [] s)

/-- POWER_MODE_SET (R501, R504, R506, R507). -/
def execPowerModeSet (tag : BitVec 8) : State → Host.Outcome State Fault Refusal :=
  run (withCmd 0x0B02 tag fun c s =>
    let mode := pB c 0
    checked c ([lenCheck c 1 false] ++ stateChecks c s none (modeRefused mode s) ++ [badP (decide (3 < mode)) c 0])
      (fun s => match mode with
        | 0 => finish c 0 0 (dozeExit [] s)
        | 1 => finish c 0 0 (enterDoze s)
        | m => parkEntry m 2 (finish c 0 0 s)) s)

/-- DOMAIN_SET off is refused (R503). -/
def domainRefused (d : Nat) (on : Bool) (s : State) : Bool :=
  !on && match d with
    | 7 => [0, 1, 2, 3].any fun n => (carAt s n).mode != 0
    | 8 => [4, 5, 6, 7].any fun n => (carAt s n).mode != 0
    | 9 => [8, 9, 10, 11].any fun n => (carAt s n).mode != 0
    | 10 => s.can.any fun c => c.state != .off
    | 12 => s.twin.partner.isSome
    | _ => false

/-- The domain is one that DOMAIN_SET switches (R503). -/
def switchable (d : Nat) : Bool := decide (7 ≤ d) && decide (d ≤ 12)

/-- DOMAIN_SET (R8, R14, R503). -/
def execDomainSet (tag : BitVec 8) : State → Host.Outcome State Fault Refusal :=
  run (withCmd 0x0B03 tag fun c s =>
    let d := pB c 0
    let on := pB c 1 == 1
    checked c ([lenCheck c 2 false, absent (switchable d && !(populated s.part).getLsbD d)]
        ++ stateChecks c s none (switchable d && domainRefused d on s) ++ [badP (!switchable d) c 0, badP (decide (1 < pB c 1)) c 1])
      (fun s => park c d (b2n on) (updPower (fun p => { p with switching := some (d, on, some tag) }) s)) s)

/-- A domain takes its level (R503): what lies in one that is off stops. PD11 stays off in Doze (R501). -/
def switchDomain (d : Nat) (on : Bool) (s : State) : State :=
  let before := s
  let bit := BitVec.twoPow 14 d
  let stays := d = 11 ∧ s.power.mode = .doze
  let s := updPower (fun p => { p with
    domains := if on ∧ ¬stays then p.domains ||| bit else p.domains &&& ~~~bit
    vsuOff := if d = 11 then !on else p.vsuOff }) (if d = 11 ∧ on = false then stopVsu s else s)
  let s := if d = 10 then mdNotice before s else s
  assertEdge 614 (logEvent 0xE7 srcNode (byte1 d ++ byte1 (b2n on)) s)

/-- DOMAIN_SWITCH_DONE (R81, R503): the commit point of DOMAIN_SET. -/
def execDomainSwitchDone (domain : Fin 14) : State → Host.Outcome State Fault Refusal :=
  run fun s =>
    match s.power.switching with
    | none => s
    | some (d, on, tag) =>
      if d ≠ domain.val ∨ serving s = false then s
      else
        let s := updPower (fun p => { p with switching := none }) s
        atCommit tag 0 (switchDomain d on) s

/-- WAKE_CONFIG (R510). -/
def execWakeConfig (tag : BitVec 8) : State → Host.Outcome State Fault Refusal :=
  run (withCmd 0x0B04 tag fun c s =>
    let v := pF c 0 4
    checked c ([lenCheck c 4 false] ++ stateChecks c s none false ++ [badP (v % 2 == 0 || decide (2047 < v)) c 0])
      (fun s => finish c 0 0 (readyTrack (updPower (fun p => { p with wakeEn := w32 v }) s))) s)

/-- WAKE_REASON (R510). -/
def execWakeReason (tag : BitVec 8) : State → Host.Outcome State Fault Refusal :=
  run (withCmd 0x0B05 tag fun c s =>
    checked c ([lenCheck c 0 false] ++ stateChecks c s none false) (finish c 0 s.power.wakeLatch.toNat) s)

/-- NET_SLEEP (R76, R512). -/
def execNetSleep (tag : BitVec 8) : State → Host.Outcome State Fault Refusal :=
  run (withCmd 0x0B01 tag fun c s =>
    checked c ([lenCheck c 0 false] ++ stateChecks c s none (!(isReference s && isActive s && s.reform.phase == 0)) ++ [exclusiveFail c s])
      (fun s => park c 0 0 (updPower (fun p => { p with
        sleepId := p.sleepId + 1, sleepTag := some tag, proposeDue := true, vetoDue := false, vetoPos := 0, votes := [], voted := none }) s)) s)

/-- The reasons that arose too late for a veto, with LATE (R508, R518). -/
def lateReasons (s : State) : BitVec 32 :=
  if s.power.vetoDue = false ∧ ready s = true then 0 else readiness s ||| BitVec.twoPow 32 15

/-- SLEEP_INSTANT (R518, R519): the commit point of NET_SLEEP, and Park entry. -/
def execSleepInstant : State → Host.Outcome State Fault Refusal :=
  run fun s =>
    if running s && s.power.sleepPhase == 2 then
      let s := toLt (s.power.instant * unitsPerNs) s
      let s := endNetSleep 0 s.power.instant s
      let late := lateReasons s
      updPower (fun p => { p with wakeLatch := p.wakeLatch ||| late }) (parkEntry 2 1 s)
    else s

end Sys2Proof.Machine
end

