-- ==== Sys2Proof/Machine/Queues.lean ====
section
/-! DEFINITION. The command engine: queue registers, doorbells, fetching and the general commands (R49 to R73, R79, R83, R85). -/

namespace Sys2Proof.Machine

/-! ### Queue registers -/

/-- The host may change the queue's registers (R52, R61): its own queue, and not RESETTING. -/
def mayWriteSq (h : HostId) (q : Nat) (s : State) : Bool := sqHost q == h && (sqAt s q).state != .resetting

/-- LOG2SIZE lies within R49. -/
def goodLog2 (n : Nat) : Bool := decide (4 ≤ n) && decide (n ≤ 10)

/-- The fields that SQ_CFG sets while the queue is disabled (R61). -/
def sqFields (val : Word) (q : Sq) : Sq := { q with cq := bits val.toNat 18 16, log2 := bits val.toNat 3 0 }

/-- A submission queue may be enabled as it is configured (R62); none may while CMD is quarantined (R483). -/
def sqEnableOk (q : Nat) (s : State) : Bool :=
  let x := sqAt s q
  goodLog2 x.log2 && decide (x.cq < 4) && cqHost x.cq == sqHost q && (cqAt s x.cq).enable && !quarantined s 7

/-- A write of SQ_CFG that sets ENABLE and not RESET (R61 to R63). -/
def sqEnableWrite (h : HostId) (q : Nat) (val : Word) (s : State) : State :=
  if !mayWriteSq h q s || (sqAt s q).enable then s
  else
    let s := setSq q (sqFields val) s
    if sqEnableOk q s then setSq q (fun x => { x with enable := true, state := .running, head := 0, tail := 0 }) s
    else setSq q (fun x => { x with err := 1 }) s

/-- A write of SQ_CFG that clears ENABLE (R56, R61): an enabled queue stops fetching, a disabled one takes the other fields. -/
def sqDisableWrite (h : HostId) (q : Nat) (val : Word) (s : State) : State :=
  if !mayWriteSq h q s then s
  else if (sqAt s q).enable then setSq q (fun x => { x with enable := false, state := .disabled }) s
  else setSq q (sqFields val) s

/-- A completion is owed to a queue (R58). -/
def owes (s : State) (m : Nat) : Bool :=
  (s.cmdq.sqs.any fun q => q.cq == m && (q.enable || q.state == .resetting))
    || (s.cmdq.inflight.any fun c => c.cq == m) || (cqAt s m).held != []

/-- A write of CQ_CFG that sets ENABLE (R61 to R63, R483): CQ3's ring is zeroed. -/
def cqEnableWrite (h : HostId) (m : Nat) (val : Word) (s : State) : State :=
  if cqHost m != h || (cqAt s m).enable then s
  else
    let s := setCq m (fun x => { x with log2 := bits val.toNat 3 0 }) s
    if goodLog2 (cqAt s m).log2 && !quarantined s 7 then
      let s := setCq m (fun x => { x with enable := true, state := .running, head := 0, tail := 0, phase := true }) s
      if m = 3 then { s with ram := memZero s.ram 0x01020000 0x4000 } else s
    else setCq m (fun x => { x with err := 1 }) s

/-- A write of CQ_CFG that clears ENABLE (R58): refused while any completion is owed. -/
def cqDisableWrite (h : HostId) (m : Nat) (val : Word) (s : State) : State :=
  if cqHost m != h then s
  else if !(cqAt s m).enable then setCq m (fun x => { x with log2 := bits val.toNat 3 0 }) s
  else if owes s m then setCq m (fun x => { x with err := 1 }) s
  else setCq m (fun x => { x with enable := false, state := .disabled }) s

/-- A write of SQ_TAIL_DB (R60, R64). -/
def sqTailWrite (h : HostId) (q : Nat) (val : Word) (s : State) : State :=
  let x := sqAt s q
  let i := bits val.toNat 10 0
  let n := ringLen x.log2
  if sqHost q ≠ h ∨ x.state = .disabled ∨ x.state = .resetting then s
  else if n ≤ i ∨ (i + n - x.head) % n < (x.tail + n - x.head) % n then setSq q (fun x => { x with state := .stopped, err := 2 }) s
  else setSq q (fun x => { x with tail := i }) s

/-- The state of an enabled completion queue after its head has moved (R59, R79; log 14). -/
def cqRefresh (q : Cq) : Cq := { q with state := if cqFull q then .held else .running }

/-- A write of CQ_HEAD_DB (R60, R64, R79): entries are freed and kept completions written. -/
def cqHeadWrite (h : HostId) (m : Nat) (val : Word) (s : State) : State :=
  let x := cqAt s m
  let i := bits val.toNat 10 0
  let n := ringLen x.log2
  if cqHost m ≠ h ∨ x.state = .disabled then s
  else if n ≤ i ∨ (x.tail + n - x.head) % n < (i + n - x.head) % n then setCq m (fun x => { x with err := 2 }) s
  else
    let s := setCq m (fun x => { x with head := i, state := .running, held := [] }) s
    setCq m cqRefresh (drainHeld m x.held s)

/-- SQ_TAIL_DB (R64). -/
def execSqTailDb (host : HostId) (q : Fin 8) (val : Word) : State → Host.Outcome State Fault Refusal :=
  run fun s => if s.store.service then sqTailWrite host q val s else s

/-- CQ_HEAD_DB (R64, R79). -/
def execCqHeadDb (host : HostId) (q : Fin 4) (val : Word) : State → Host.Outcome State Fault Refusal :=
  run fun s => if s.store.service then cqHeadWrite host q val s else s

/-- SQ_ENABLE (R61 to R63). -/
def execSqEnable (host : HostId) (q : Fin 8) (val : Word) : State → Host.Outcome State Fault Refusal :=
  run fun s => if s.store.service then sqEnableWrite host q val s else s

/-- SQ_DISABLE (R56, R61). -/
def execSqDisable (host : HostId) (q : Fin 8) (val : Word) : State → Host.Outcome State Fault Refusal :=
  run fun s => if s.store.service then sqDisableWrite host q val s else s

/-- CQ_ENABLE (R61 to R63). -/
def execCqEnable (host : HostId) (q : Fin 4) (val : Word) : State → Host.Outcome State Fault Refusal :=
  run fun s => if s.store.service then cqEnableWrite host q val s else s

/-- CQ_DISABLE (R58, R61). -/
def execCqDisable (host : HostId) (q : Fin 4) (val : Word) : State → Host.Outcome State Fault Refusal :=
  run fun s => if s.store.service then cqDisableWrite host q val s else s

/-- SQ_RESET_DONE (R88): no command of a RESETTING queue remains in flight. -/
def execSqResetDone (q : Fin 8) : State → Host.Outcome State Fault Refusal :=
  run fun s =>
    if (sqAt s q).state == .resetting && !(s.cmdq.inflight.any fun c => c.sq == q.val) then
      setSq q (fun x => { x with state := .disabled, head := 0, tail := 0, err := 0 }) s
    else s

/-! ### Fetching -/

/-- The opcodes of R85. -/
def opcodes : List Nat :=
  [0x0101, 0x0102, 0x0103, 0x0104, 0x0201, 0x0202, 0x0203, 0x0204, 0x0301, 0x0302, 0x0303, 0x0304, 0x0305, 0x0306, 0x0307,
   0x0401, 0x0402, 0x0403, 0x0404, 0x0405, 0x0406, 0x0407, 0x0410, 0x0411, 0x0501, 0x0502, 0x0503, 0x0504, 0x0505, 0x0506,
   0x0507, 0x0508, 0x0601, 0x0602, 0x0603] ++
  [0x0701, 0x0702, 0x0703, 0x0704, 0x0705, 0x0706, 0x0707, 0x0708, 0x0801, 0x0802, 0x0901, 0x0902, 0x0903, 0x0A01, 0x0A02,
   0x0A03, 0x0A04, 0x0B01, 0x0B02, 0x0B03, 0x0B04, 0x0B05, 0x0C01, 0x0C02, 0x0C03]

/-- A queue from which an entry may be fetched (R73). -/
def fetchable (s : State) (q : Nat) : Bool :=
  let x := sqAt s q
  x.enable && x.state == .running && x.head != x.tail && (cqAt s x.cq).state != .held

/-- The queue whose turn it is (R73). -/
def nextQueue (s : State) : Option Nat := ((List.range 8).map fun i => (s.cmdq.turn + i) % 8).find? (fetchable s)

/-- A queue stops with a cause (R57, R72, R90). -/
def stopSq (q err : Nat) (s : State) : State := setSq q (fun x => { x with state := .stopped, err := err }) s

/-- A tag lies in its host's range, and bits [15:8] of the field are 0 (R71, R72). -/
def goodTag (q tag : Nat) : Bool := if q < 6 then decide (tag < 0xC0) else decide (0xC0 ≤ tag) && decide (tag < 0x100)

/-- A GATE_LIST_SET that is accepted replaces the list loaded at its port and not yet in force: the earlier command completes with
ABORTED, cause 0x05, and its list goes (R343). -/
def replaceGates (c : Cmd) (s : State) : State :=
  if c.opcode = 0x0505 then match (carAt s (pB c 0)).gateDue with
    | some (some old, _, _) => finishTag old 0x80 5 (setCar (pB c 0) (fun p => { p with gateDue := none }) s)
    | _ => s
  else s

/-- An entry is taken into flight (R53, R71, R73, R343). -/
def acceptEntry (q : Nat) (e : List Byte) (s : State) : State :=
  let x := sqAt s q
  let c := { parseCmd s.cmdq.accepted q s.clk.ps s.clk.lt e with cq := x.cq }
  let s := setSq q (fun x => { x with head := (x.head + 1) % ringLen x.log2 }) s
  replaceGates c { s with cmdq := { s.cmdq with inflight := s.cmdq.inflight ++ [c], accepted := s.cmdq.accepted + 1 } }

/-- A fetched entry is checked and taken, or stops its queue (R72). -/
def takeEntry (q : Nat) (e : List Byte) (s : State) : State :=
  if (cmdOf s (BitVec.ofNat 8 (fld e 2 1))).isSome then stopSq q 3 s
  else if !goodTag q (fld e 2 2) then stopSq q 4 s
  else acceptEntry q e s

/-- Commands of an undefined opcode that nothing holds back complete with BAD_OPCODE (R9, R75, R84). -/
def endUndefined (s : State) : State :=
  s.cmdq.inflight.foldl (fun s c => if !opcodes.contains c.opcode && mayStart s c then finish c 0x10 0 s else s) s

/-- The entry of the ring of a queue: as given for the PCIe host, from node memory for the SPI host (R51, R67, R90). -/
def ringEntry (q : Nat) (entry : Option (List Byte)) (s : State) : Option (List Byte) :=
  if q < 6 then entry.map (padTo 64 0) else some (memRead s.ram (sqBase q (sqAt s q) + 64 * (sqAt s q).head) 64)

/-- COMMAND_FETCH (R72, R73, R90): the next queue in turn gives one entry. -/
def execCommandFetch (entry : Option (List Byte)) : State → Host.Outcome State Fault Refusal :=
  run fun s =>
    if !serving s then s
    else endUndefined (match nextQueue s with
      | none => s
      | some q =>
        let s := { s with cmdq := { s.cmdq with turn := (q + 1) % 8 } }
        match ringEntry q entry s with
        | none => stopSq q 5 s
        | some e => takeEntry q e s)

/-- NONCE_EXPIRY (R83): a challenge nonce lapses 10,000 ms after its issue. -/
def execNonceExpiry (lc : Bool) : State → Host.Outcome State Fault Refusal :=
  run fun s =>
    match if lc then s.cmdq.lcNonce else s.cmdq.logNonce with
    | none => s
    | some n =>
      let s := toPs (n.atPs + 10000 * 10 ^ 9) s
      if lc then { s with cmdq := { s.cmdq with lcNonce := none } } else { s with cmdq := { s.cmdq with logNonce := none } }

/-! ### General commands -/

/-- NOP (R85). -/
def execNop (tag : BitVec 8) : State → Host.Outcome State Fault Refusal :=
  run (withCmd 0x0101 tag fun c s => checked c ([lenCheck c 0 false] ++ stateChecks c s none false) (finish c 0 0) s)

/-- NODE_INFO's result (R85). -/
def nodeInfo (s : State) : Nat :=
  s.part.code + s.survey.position % 256 * 2 ^ 16 + s.survey.epoch % 256 * 2 ^ 24 + b2n (isStandby s) * 2 ^ 32
    + s.test.lc % 256 * 2 ^ 40

/-- NODE_INFO (R85). -/
def execNodeInfo (tag : BitVec 8) : State → Host.Outcome State Fault Refusal :=
  run (withCmd 0x0102 tag fun c s => checked c ([lenCheck c 0 false] ++ stateChecks c s none false) (finish c 0 (nodeInfo s)) s)

/-- FW_VERSION (R85; log 8). -/
def execFwVersion (tag : BitVec 8) : State → Host.Outcome State Fault Refusal :=
  run (withCmd 0x0103 tag fun c s => checked c ([lenCheck c 0 false] ++ stateChecks c s none false)
    (finish c 0 (Config.firmwareVersion.toNat + s.store.generation % 2 ^ 32 * 2 ^ 32)) s)

end Sys2Proof.Machine
end

