-- ==== Sys2Proof/Machine/Abort.lean ====
section
/-! DEFINITION. Commands stopped before their commit point: ABORT, timeouts, queue resets and PCIe resets (R82, R87 to R89, R447,
R449, R490, R519, R544, R558, R588). -/

namespace Sys2Proof.Machine

/-- A self-test of a command under way that is in a slice: it ends with the slice (R490). -/
def inSlice (tag : BitVec 8) (s : State) : Bool := s.test.tests.any fun t => t.tag == some tag && t.running

/-- The self-test of a command ends as cut short, at once or at the end of its slice (R490). -/
def stopTest (tag : BitVec 8) (cause : Nat) (s : State) : State :=
  match s.test.tests.find? fun t => t.tag == some tag with
  | some t => if t.running then putTest t { t with cut := some cause } s else cutTest cause t s
  | none => s

/-- What the node's own units hold for a command before its commit point goes: a sleep proposal is cancelled with a cause (R519), a
slot stays unsealed (R544), a domain stays as it is, a handover is dropped. -/
def dropNode (tag : BitVec 8) (cause : Nat) (s : State) : State :=
  let mine (t : Option (BitVec 8)) : Bool := t == some tag
  let s := { s with store := { s.store with commit := s.store.commit.filter fun x => x.1 != tag } }
  let s := updPower (fun p => { p with switching := p.switching.filter fun x => !mine x.2.2 }) s
  let s := if mine s.power.sleepTag then updPower (fun p => { p with sleepTag := none }) (cancelSleep cause s) else s
  if mine s.twin.yieldTag then dropHandover (updTwin (fun t => { t with yieldTag := none }) s) else s

/-- A command before its commit point is stopped and completes with ABORTED and a cause (R87 to R89). -/
def stopCmd (cause : Nat) (s : State) (c : Cmd) : State :=
  let wait := inSlice c.tag s
  let s := stopTest c.tag cause (dropNode c.tag 2 (dropUnits c.tag s))
  if wait then s else finishTag c.tag 0x80 cause s

/-- ABORT (R85, R87): of a command of either host. -/
def execAbort (tag : BitVec 8) : State → Host.Outcome State Fault Refusal :=
  run (withCmd 0x0104 tag fun c s =>
    checked c ([lenCheck c 1 false] ++ stateChecks c s none false)
      (fun s => match cmdOf s (BitVec.ofNat 8 (pB c 0)) with
        | some x => if x.tag != c.tag && beforeCommit x then finish c 0 1 (stopCmd 1 s x) else finish c 0 0 s
        | none => finish c 0 0 s) s)

/-- The TIMEOUT of a waiting command in ms, none where it waits without limit (R82, R85). -/
def timeoutMs (c : Cmd) : Option Nat :=
  match c.opcode with
  | 0x0B01 => some (sleepTimeout c)
  | 0x0202 | 0x0401 | 0x0404 | 0x0406 => if c.timeout = 0 then none else some c.timeout
  | _ => none

/-- The sleep that a command proposed is announced: its TIMEOUT lies beyond INSTANT (R515). -/
def announced (c : Cmd) (s : State) : Bool := s.power.sleepTag == some c.tag && s.power.sleepPhase == 2

/-- COMMAND_TIMEOUT (R82, R515): the TIMEOUT of a waiting command expires before its commit point. -/
def execCommandTimeout (tag : BitVec 8) : State → Host.Outcome State Fault Refusal :=
  run fun s =>
    match cmdOf s tag with
    | some c => match timeoutMs c with
      | some ms =>
        if !(serving s && beforeCommit c) || announced c s then s
        else
          let s := toPs (c.atPs + ms * 10 ^ 9) s
          finishTag tag 0x70 (waitedMs c s) (dropNode tag 1 (dropUnits tag s))
      | none => s
    | none => s

/-- A submission queue is reset (R88): fetching stops, and its commands before their commit point are stopped. -/
def resetSq (q cause : Nat) (s : State) : State :=
  let s := setSq q (fun x => { x with state := .resetting, enable := false, resetCause := cause }) s
  (s.cmdq.inflight.filter fun c => c.sq == q && beforeCommit c).foldl (stopCmd (sqAt s q).resetCause) s

/-- SQ_RESET (R61, R88): a write of SQ_CFG with RESET set acts as the reset alone. -/
def execSqReset (host : HostId) (q : Fin 8) (_ : Word) : State → Host.Outcome State Fault Refusal :=
  run fun s => if s.store.service && mayWriteSq host q s then resetSq q 2 s else s

/-! ### PCIe resets -/

/-- CQ0 to CQ2 are disabled and their completions discarded, those of the commands still in flight too (R89). What the rule leaves open is
chosen (DESIGN CHOICE, log 71): the bases and LOG2SIZE stay, and TAIL, the head, PHASE and ERR read as after RSTn. -/
def dropCqs (s : State) : State :=
  let gone (x : Cmd) : Bool := x.phase == .finished && decide (x.cq < 3)
  { s with cmdq := { s.cmdq with
      cqs := s.cmdq.cqs.mapIdx fun m q => if m < 3 then { base := q.base, log2 := q.log2 } else q
      inflight := (s.cmdq.inflight.filter fun x => !gone x).map fun x => if x.sq < 6 then { x with lost := true } else x } }

/-- T4 to T13 lose their sources, stacks and thresholds; MSI-X is reset as PCI Express has it (R447, R449). -/
def resetTargets (s : State) : State :=
  let ours (t : Nat) : Bool := decide (4 ≤ t) && decide (t < 14)
  let serving := (s.router.targets.zipIdx.filter fun x => ours x.2).flatMap fun x => x.1.stack.map fun e => e.1
  updRouter (fun r => { r with
    cfg := r.cfg.filter fun e => !ours e.2.target
    targets := r.targets.mapIdx fun t x => if ours t then { asleep := x.asleep } else x
    service := clrBits serving r.service
    msix := List.replicate 10 {}, pba := 0, functionMask := false, d0 := true, busMaster := false }) s

/-- PCIE_RESET (R89, R449, R558, R588): before reset release only the level of PE_RSTn counts. -/
def execPcieReset (kind : PcieReset) : State → Host.Outcome State Fault Refusal :=
  run fun s =>
    let s := { s with regs := { s.regs with perstLow := s.regs.perstLow || kind == .perst } }
    if !s.clk.running then s
    else
      let s := resetTargets (dropCqs s)
      let s := [0, 1, 2, 3, 4, 5].foldl (fun s q => resetSq q 4 s) s
      { s with regs := { s.regs with scratchPcie := 0, pcieUp := s.regs.pcieUp && kind != .perst } }

/-- PE_RSTN_RISE (R588): the endpoint trains once step 2 of the boot has begun. -/
def execPeRstnRise : State → Host.Outcome State Fault Refusal :=
  run fun s => { s with regs := { s.regs with
    perstLow := false, pcieUp := s.regs.pcieUp || (s.regs.perstLow && s.store.released && s.clk.running) } }

end Sys2Proof.Machine
end

