-- ==== Sys2Proof/Machine/Reform.lean ====
section
/-! DEFINITION. The commands of re-forming up to the cut-over: neighbours, lost links, ends, offers, the pending record, tracking,
announcements and abandons (R199, R200, R204 to R221, R226 to R232). -/

namespace Sys2Proof.Machine

/-! ### Neighbours -/

/-- The line B port of a side that leads to another unit than its line A port is held (R180). -/
def splitCheck (sd : Side) (s : State) : State :=
  let b := BPort.mk' .b sd
  match (neighAt s (.mk' .a sd)).hello, (neighAt s b).hello with
  | some x, some y =>
    if x.origin ≠ y.origin ∧ !(neighAt s b).split then
      logEvent 0x31 (srcPort b.code) [] (setNeigh b (fun n => { n with split := true }) (dropMember b s))
    else s
  | _, _ => s

/-- A settled unit that hears FULL or HELD is held (R193). -/
def overflowCheck (m : SvHello) (s : State) : State :=
  if s.survey.state == .settled && ((m.state == 5 && m.full) || m.state == 6) then
    logEvent 0x37 srcNode [] (updSurvey (fun v => { v with state := .held }) s)
  else s

/-- SV_HELLO_RX (R175, R179, R180, R182, R193, R232): the port's row follows; a new origin changes the neighbour table; a neighbour
of the record with another EPOCH is a lost link. -/
def execSvHelloRx (rx : MgRx) (m : SvHello) : State → Host.Outcome State Fault Refusal :=
  run (mgIn rx (.svHello m) fun s =>
    let fresh := ((neighAt s rx.port).hello.map fun h => h.origin) != some m.origin
    let s := setNeigh rx.port (fun n => { n with hello := some m, epoch := rx.epoch }) s
    let cut := (neighAt s (.mk' .b rx.port.side)).split
    let s := splitCheck rx.port.side s
    let fresh := fresh || (!cut && (neighAt s (.mk' .b rx.port.side)).split)
    if numbered s then
      if innerPort s rx.port && rx.epoch != s.survey.epoch then
        breakCheck (setNeigh rx.port (fun n => { n with lost := true }) s)
      else s
    else
      let s := adoptRound m.round s
      let s := if fresh then neighbourChange s else s
      overflowCheck m s)

/-- LINK_LOST (R204, R205): a port has had no valid Echo sample in 4 consecutive cycles. -/
def execLinkLost (port : BPort) : State → Host.Outcome State Fault Refusal :=
  run fun s =>
    if running s && decide (4 ≤ (echoAt s port).dry) then breakCheck (setNeigh port (fun n => { n with lost := true }) s) else s

/-! ### Starting again -/

/-- SURVEY_RESTART (R85, R91, R200): in COMMISSION or MAINTENANCE; a numbered unit floods the new round and gives up its own position. A unit
without one enters the round, which its SV_HELLO spreads (R174; log 40). -/
def execSurveyRestart (tag : BitVec 8) : State → Host.Outcome State Fault Refusal :=
  run (withCmd 0x0203 tag fun c s =>
    checked c ([lenCheck c 0 false]
        ++ stateChecks c s none (standbyRefused s || (s.test.lc != 2 && s.test.lc != 4)))
      (fun s =>
        let round := s.survey.round + 1
        let s := finish c 0 0 s
        if numbered s then giveUp round (floodMg (.svRestart round) s) else if surveying s then enterRound round s else s) s)

/-- SV_RESTART_RX (R200): a numbered unit gives up its position and adopts the round. -/
def execSvRestartRx (rx : MgRx) (round : BitVec 16) : State → Host.Outcome State Fault Refusal :=
  run (mgIn rx (.svRestart round) fun s => if numbered s then giveUp round s else adoptRound round s)

/-! ### Ends -/

/-- JN_END_TIMER (R210): an end unit originates JN_END every 10,000 ms. -/
def execJnEndTimer : State → Host.Outcome State Fault Refusal :=
  run fun s =>
    if running s && numbered s && endSides s != [] then sendEnds (toPs (s.reform.endPs + 10 ^ 13) s) else s

/-- JN_END_RX (R199, R204, R210): stored; at position 1 it may ask for a lead change. -/
def execJnEndRx (rx : MgRx) (m : JnEnd) : State → Host.Outcome State Fault Refusal :=
  run (jnIn rx m.head (.jnEnd m) fun s =>
    let s := jnRelay rx (.jnEnd m) s
    if m.head.epochOf = s.survey.epoch then leadCheck (conflictCheck (storeEnd rx.port.side m s)) else s)

/-! ### Offers -/

/-- A side where a merge may start (R204, R231): open to the consist, with a NUMBERED neighbour and a valid D on a line. -/
def mergeSide (s : State) (sd : Side) : Bool :=
  numbered s && !hasSide s sd && sd.ports.any fun p =>
    bbOpen s p && (echoAt s p).dValid && ((neighAt s p).hello.map fun h => h.state) == some 5

/-- The offer of this unit's part across its coupler (R209, R211); none until the far end's JN_END is known. -/
def offerOf (s : State) (c : Side) : Option JnOffer :=
  let isHead := s.survey.headSide == some c
  match s.survey.record, (if isHead then s.reform.endTail else s.reform.endHead) with
  | some r, some e => some {
      head := nextHead s, units := unitCount r, farKey := e.key, farLast := e.last, couplerIsHead := isHead, crc := r.crc,
      cplDelayA := linkDelay s .a c, cplDelayB := linkDelay s .b c, entries := r.entries }
  | _, _ => none

/-- Two offers of one content. -/
def sameOffer (a b : JnOffer) : Bool := a.farKey == b.farKey && a.entries == b.entries

/-- A merge across a side stands refused for an own COUNT, until either COUNT changes (R213). -/
def standsRefused (s : State) (c : Side) (own : Nat) : Bool := s.reform.refused.any fun x => x.1 == c && x.2.1 == own

/-- The unit offers in each cycle (R211, R226): a decided offer is repeated until the merge is announced. -/
def offerDuty (s : State) : State :=
  let side := match s.reform.coupler with
    | some c => some c
    | none => [Side.front, Side.rear].find? (mergeSide s)
  match side with
  | none => s
  | some c =>
    if s.reform.cutover.isSome || (s.reform.coupler.isNone && !idleReform s) then s
    else if !mergeSide s c && s.reform.pending.isNone then
      updReform (fun r => { r with coupler := none, sentOffer := none, gotOffer := none, tie := false, phase := if r.phase = 1 then restPhase s else r.phase }) s
    else
      let offer := if s.reform.pending.isSome then s.reform.sentOffer else offerOf s c
      match offer with
      | none => s
      | some o =>
        let o := { o with head := nextHead s }
        if standsRefused s c o.entries.length then s
        else
          let s := updReform (fun r => { r with
            coupler := some c, sentOffer := some o, phase := if r.phase = 0 ∨ r.phase = 4 then 1 else r.phase }) s
          originate c.ports (.jnOffer o) s

/-- A merged record becomes the unit's pending record (R215, R226). -/
def takePending (p : Pending) (s : State) : State :=
  updReform (fun r => { r with phase := 2, pending := some p, shadowDone := false, readySent := false, ready := none }) s

/-- The coupler units decide for a merge (R212, R214 to R216): the record goes into this part, its contracts across. -/
def agreeMerge (c : Side) (own other : JnOffer) (s : State) : State :=
  let keeping := decide (keyValue other.farKey < keyValue own.farKey)
  let k := if keeping then own else other
  let j := if keeping then other else own
  let r := mergedRecord k j
  let reverse := if keeping then k.couplerIsHead else !j.couplerIsHead
  let p : Pending := { record := r, keeping := keeping, reverse := reverse, units := own.units + other.units, cause := 1,
                       subject := k.head.origin, couplerPos := s.survey.position }
  let s := takePending p s
  let h : JnHead := { nextHead s with origin := k.head.origin }
  let m := MgMsg.jnMerge { head := h, keeping := keeping, reverse := reverse, units := p.units, record := r }
  let s := originate (BPort.all.filter (innerPort s)) m s
  (crossSet s p).foldl (fun s x => jnMg c.ports (.plContract x) s) s

/-- The decision of R212 and R213 on the two offers that a coupler unit holds. -/
def decideMerge (s : State) : State :=
  match s.reform.coupler, s.reform.sentOffer, s.reform.gotOffer with
  | some c, some own, some (side, other) =>
    if side ≠ c ∨ !idleReform s then s
    else
      let a := own.entries.length
      let b := other.entries.length
      if 63 < a + b then
        let s' := updReform (fun r => { r with refused := some (c, a, b), phase := restPhase s, coupler := none, sentOffer := none }) s
        if s.reform.refused = some (c, a, b) then s' else logEvent 0x3A srcNode (byte1 a ++ byte1 b) s'
      else if keyValue own.farKey = keyValue other.farKey then
        if s.reform.tie then s else logEvent 0x3B srcNode [] (updReform (fun r => { r with tie := true }) s)
      else agreeMerge c own other (updReform (fun r => { r with tie := false }) s)
  | _, _, _ => s

/-- JN_OFFER_RX (R211 to R213, R226): the other part's offer; with the unit's own sent, both decide. -/
def execJnOfferRx (rx : MgRx) (m : JnOffer) : State → Host.Outcome State Fault Refusal :=
  run (jnIn rx m.head (.jnOffer m) fun s =>
    if hasSide s rx.port.side || !idleReform s || s.reform.refused == some (rx.port.side, consistCount s, m.entries.length) then s
    else
      let again := s.reform.refused.any fun x => x.1 == rx.port.side && x.2.2 != m.entries.length
      decideMerge (updReform (fun r => { r with
        refused := if again then none else r.refused
        gotOffer := some (rx.port.side, m), phase := if r.phase = 0 ∨ r.phase = 4 then 1 else r.phase }) s))

/-- A coupler unit whose own merge gives way sends JN_ABANDON across its coupler and forgets its offers (R231). The SUBJECT is
the keeping coupler unit's origin of the merge decided, or of the one that the two offers would give (DEDUCED, log 35). -/
def standDown (subject : Option (BitVec 32)) (s : State) : State :=
  match s.reform.coupler, s.reform.sentOffer with
  | some c, some own =>
    let subj := subject.getD (match s.reform.gotOffer with
      | some (side, other) => if side = c ∧ keyValue own.farKey < keyValue other.farKey then other.head.origin else own.head.origin
      | none => own.head.origin)
    updReform (fun r => { r with coupler := none, sentOffer := none, gotOffer := none, tie := false })
      (originate (couplerPorts s) (.jnAbandon { head := nextHead s, subject := subj }) s)
  | _, _ => updReform (fun r => { r with coupler := none, sentOffer := none }) s

/-- Of two merges at once the one with the smaller coupler position stays; the coupler unit of the other abandons. A coupler unit
still at its offers gives way to a merge that reaches it (R231, DEDUCED, log 35). -/
def takeMerge (p : Pending) (s : State) : State :=
  match s.reform.pending with
  | none => if s.reform.cutover.isSome then s else takePending p (standDown none s)
  | some old =>
    if old.cause ≠ 1 ∨ s.reform.cutover.isSome ∨ old.couplerPos ≤ p.couplerPos then s
    else
      takePending p (updReform (fun r => { r with gotOffer := none, other := [], contractsHeld := false, delta := none })
        (standDown (some old.subject) s))

/-- JN_MERGE_RX (R215, R231): relayed, and stored as the pending record. -/
def execJnMergeRx (rx : MgRx) (m : JnMerge) : State → Host.Outcome State Fault Refusal :=
  run (jnIn rx m.head (.jnMerge m) fun s =>
    let s := jnRelay rx (.jnMerge m) s
    if m.head.epochOf ≠ s.survey.epoch then s
    else takeMerge {
      record := m.record, keeping := m.keeping, reverse := m.reverse, units := m.units, cause := 1, subject := m.head.origin,
      couplerPos := m.head.posOf } s)

/-! ### Tracking and readiness -/

/-- The rate of change of minus the Echo offset over the samples kept, in units of 10^-12 (R218). -/
def slopeOf (l : List (Nat × Int)) : Int :=
  match l.head?, l.getLast? with
  | some (t1, o1), some (t0, o0) => if t0 < t1 then (o0 - o1) * (10 : Int) ^ 12 / ((t1 : Int) - t0) else 0
  | _, _ => 0

/-- The unit's Echo offset toward the far end of a list of ports: the first that has a sample of late, with its track. -/
def trackPort (s : State) (ports : List BPort) : Option EchoPort :=
  ((ports.filter fun p => (echoAt s p).dValid && (echoAt s p).track != []).map (echoAt s)).head?

/-- The joining coupler unit forms and sends its Δi in every cycle (R218). -/
def trackDuty (s : State) : State :=
  match s.reform.coupler, s.reform.pending with
  | some c, some p =>
    if p.cause = 1 ∧ !p.keeping then match trackPort s c.ports with
      | some e =>
        let at_ := ((e.track.head?.map fun x => ((x.1 : Int) + x.2) / (unitsPerNs : Int)).getD 0).toNat
        let d := (-e.offset, slopeOf e.track, at_)
        let s := updReform (fun r => { r with delta := some d }) s
        let m : JnTrack := { head := nextHead s, at_ := at_, delta := d.1, slope := d.2.1, ready := 0 }
        originate (BPort.all.filter (innerPort s)) (.jnTrack m) s
      | none => s
    else s
  | _, _ => s

/-- JN_TRACK_RX (R218): a joining unit forms its own Δi from the one received and relays it. -/
def execJnTrackRx (rx : MgRx) (m : JnTrack) : State → Host.Outcome State Fault Refusal :=
  run (jnIn rx m.head (.jnTrack m) fun s =>
    if !isJoining s then s
    else
      let own := m.delta - (echoAt s rx.port).offset
      let s := updReform (fun r => { r with delta := some (own, m.slope, m.at_) }) s
      jnRelay rx (.jnTrack { m with delta := own }) s)

/-- The unit goes first in the merged record and meets JN_READY last (R219, R220). -/
def isFirstUnit (s : State) (p : Pending) : Bool := newPosition s p == 1 && !(hasSide s (newHead s p)) && s.reform.coupler != some (newHead s p)

/-- What is left of a slew at a line time (R151, R220). -/
def slewLeft (s : State) (ns : Nat) : Int :=
  let rest (change : Int) (start : Nat) : Int :=
    let moved : Nat := min change.natAbs ((ns - start) / 5000)
    if change < 0 then change + moved else change - moved
  match (s.time.calPending.filter fun m => decide (m.start ≤ ns)).getLast? with
  | some m => if m.step then 0 else rest m.change m.start
  | none => match s.time.slew with
    | some w => rest w.change w.startLt
    | none => 0

/-- Position 1 of the merged record announces the cut-over (R151, R220). -/
def announceMerge (p : Pending) (m : JnTrack) (s : State) : State :=
  let cut := clearOfSwaps s (sendCycle s + max 4 (crossing p.units + 3))
  let ns := swapNs s cut
  let delta : Int := m.delta + m.slope * ((ns : Int) - m.at_) * (unitsPerNs : Int) / (10 : Int) ^ 12
  let hp := s.time.l * s.time.hyper
  let leap := if delta ≤ 0 then 0 else (delta.toNat + hp - 1) / hp * hp / unitsPerNs
  let a := { announcement s 1 cut 1 p.record.entries.length p.record with
    leap := leap, calOffset := calOffsetAt s ns - leap, calSlew := slewLeft s ns }
  holdCutover a (jnFlood (.jnCutover a) s)

/-- A JN_READY passes a unit that holds its shadow plan (R219): counted, DELTA raised to the unit's own; at the first unit of the
merged record it ends. -/
def passReady (port : BPort) (m : JnTrack) (s : State) : State :=
  match s.reform.pending with
  | none => s
  | some p =>
    let raised : Int := if p.keeping then m.delta else max m.delta (deltaAt s m.at_)
    let m := { m with ready := m.ready + 1, delta := raised }
    let s := updReform (fun r => { r with ready := none }) s
    if isFirstUnit s p then (if m.ready = p.units ∧ s.reform.cutover.isNone then announceMerge p m s else s)
    else jnMg ((port.side.other.ports).filter fun q => (jnPorts s (.jnReady m)).contains q) (.jnReady m) s

/-- The tail of the merged record originates JN_READY once (R219). -/
def readyDuty (s : State) : State :=
  match s.reform.pending, s.reform.delta with
  | some p, some d =>
    let tail := !p.keeping && newPosition s p == p.record.entries.length && !hasSide s (newHead s p).other
    if p.cause = 1 ∧ tail ∧ s.reform.shadowDone ∧ !s.reform.readySent then
      let m : JnTrack := { head := nextHead s, at_ := d.2.2, delta := d.1, slope := d.2.1, ready := 1 }
      originate (jnPorts s (.jnReady m)) (.jnReady m) (updReform (fun r => { r with readySent := true }) s)
    else s
  | _, _ => s

/-- JN_READY_RX (R219, R220): passed on headward by a unit that holds its shadow plan; until then it waits. -/
def execJnReadyRx (rx : MgRx) (m : JnTrack) : State → Host.Outcome State Fault Refusal :=
  run (jnIn rx m.head (.jnReady m) fun s =>
    if s.reform.shadowDone then passReady rx.port m s else updReform (fun r => { r with ready := some (rx.port, m) }) s)

/-! ### Shadow plans -/

/-- The plan of a pending merge or lead change is complete (R217, R219, R230, R506). -/
def reformShadow (p : Pending) (s : State) : State :=
  let f := formed s p
  let s := if p.cause = 2 then splitShadow p s
    else updReform (fun r => { r with shadowDone := true }) (writeShadow (formedTables s p f.ctxs) s)
  let s := if hasRole s f.ctxs then dozeExit [14] s else s
  match s.reform.ready with
  | some (port, m) => passReady port m s
  | none => s

/-- The first plan named that may have SHADOW now: one that swaps before any cut-over announced (R266, R267). -/
def nextShadow (s : State) : Option Stage := s.planner.staged.head?.filter (beforeCut s)

/-- SHADOW_PLAN_DONE (R217, R257, R258, R266): the SHADOW of the plan named first is complete, else that of a re-forming whose record and
contracts are held; there is one only once RETIRING has been released (R255). -/
def execShadowPlanDone : State → Host.Outcome State Fault Refusal :=
  run fun s =>
    if !(running s && numbered s) || s.gallery.retiringHeld then s
    else match nextShadow s, s.reform.pending with
      | some g, _ => if s.gallery.shadowComplete && !s.reform.shadowDone then s else completeShadow g s
      | none, some p => if s.reform.shadowDone ∨ (p.cause = 1 ∧ !s.reform.contractsHeld) then s else reformShadow p s
      | none, none => s

/-! ### Announcements, breaks and abandons -/

/-- JN_CUTOVER_RX (R220, R228, R230): relayed and held. -/
def execJnCutoverRx (rx : MgRx) (m : JnCutover) : State → Host.Outcome State Fault Refusal :=
  run (jnIn rx m.head (.jnCutover m) fun s => holdCutover m (jnRelay rx (.jnCutover m) s))

/-- JN_BREAK_RX (R227, R228): the old position 1 announces the split, any other unit relays the notice headward. -/
def execJnBreakRx (rx : MgRx) (m : JnBreak) : State → Host.Outcome State Fault Refusal :=
  run (jnIn rx m.head (.jnBreak m) fun s =>
    if m.head.epochOf ≠ s.survey.epoch then s
    else if isReference s && (isActive s || !hasSide s (s.survey.headSide.getD .front)) then announceSplit 1 m.headPos s
    else jnRelay rx (.jnBreak m) s)

/-- An offer withdrawn across the coupler before a merge was decided from it is forgotten (R231, DEDUCED, log 35). -/
def forgetOffer (sd : Side) (s : State) : State :=
  if (s.reform.gotOffer.map fun g => g.1) = some sd then
    updReform (fun r => { r with gotOffer := none, phase := if r.phase = 1 ∧ r.coupler = none then restPhase s else r.phase }) s
  else s

/-- JN_ABANDON_RX (R231): a unit that holds the subject drops it before the cut-over; the notice goes on. -/
def execJnAbandonRx (rx : MgRx) (m : JnAbandon) : State → Host.Outcome State Fault Refusal :=
  run (jnIn rx m.head (.jnAbandon m) fun s =>
    let s := jnRelay rx (.jnAbandon m) s
    match s.reform.pending with
    | some p => if p.subject = m.subject ∧ p.cause ≠ 2 then dropReform m.subject s else s
    | none => forgetOffer rx.port.side s)

/-- What re-forming originates in a Survey chamber (R211, R218, R219). -/
def reformChamber (s : State) : State := if numbered s then readyDuty (trackDuty (decideMerge (offerDuty s))) else s

end Sys2Proof.Machine
end

