-- ==== Sys2Proof/Machine/Cutover.lean ====
section
/-! DEFINITION. The cut-overs: the one that numbers a consist and those of re-forming, with the steps of line time, the plan and the
addresses that they bring, and the end of aliasing (R118, R119, R121, R123, R148 to R153, R187, R196, R222 to R225, R229, R258). -/

namespace Sys2Proof.Machine

/-! ### Shared -/

/-- A vehicle that is not an end of its consist and asserts CAB_ACTIVE sets INNER_CAB and writes CAB_INNER, once (R170). -/
def innerCheck (s : State) : State :=
  let inner := numbered s && s.survey.cabActive && s.survey.position != 1 && s.survey.position != consistCount s
  let s' := updSurvey (fun v => { v with innerCab := inner }) s
  if inner && !s.survey.innerCab then logEvent 0x35 srcNode [] s' else s'

/-- The record of a cut-over, source 97, and CONSIST_WAIT (R196, R223): the cause, the epoch and COUNT. -/
def cutoverRecord (cause : Nat) (s : State) : State :=
  let data := byte1 cause ++ byte1 s.survey.epoch ++ byte1 (consistCount s)
  consistWaits (logEvent 0x3C (srcPos s.survey.position) data (assertEdge 97 s))

/-- A planner that starts with a record (R262, R264, R286): its count of requests goes on. -/
def freshPlanner (s : State) (cut : Nat) : Planner :=
  { reqId := s.planner.reqId, record := s.survey.record, lastS := cut, waiting := s.planner.waiting }

/-- The digest in force is that of the present round of reports (R287): a cut-over has made a new one. -/
def startRound (s : State) : State := updPlanner (fun p => { p with roundDigest := p.digest, roundSerial := p.inForce }) s

/-! ### The cut-over that numbers a consist -/

/-- Position 1 takes the contracts of its image and floods them (R263, R282). -/
def coldContracts (s : State) : State :=
  if isReference s && isActive s then
    let cs := imageContracts s (consistCount s)
    stageCold (cycleNow s) cs (updPlanner (fun p => { p with flood := coldFlood s.survey.epoch cs, coldDone := true }) s)
  else s

/-- NUMBERING_CUTOVER (R187, R196, R263, R286): at CUTOVER a unit whose record matches takes its position. -/
def execNumberingCutover : State → Host.Outcome State Fault Refusal :=
  run fun s =>
    match s.survey.commit, s.survey.stored, s.survey.pendingPos, s.survey.headSide with
    | some c, some r, some pos, some head =>
      if running s && s.survey.state == .counted && r.crc == c.crc then
        let s := toLt (c.cutover * unitsPerNs) s
        let conflict := claimsConflict s
        let s := takeCycle c.cycle c.hyper c.squeeze (c.cutover * unitsPerNs) s
        let s := takePosition pos c.epoch head { r with epoch := c.epoch, cutover := c.cutover } s
        let s := updSurvey (fun v => { v with aliasLeft := 0, aliasMap := [], conflict := conflict }) (startServo s)
        let s := { s with
          reform := { serial := s.reform.serial }
          gallery := { ingress := s.gallery.ingress, lastSwap := some (cycleNow s), retHyper := c.hyper }
          planner := freshPlanner s (cycleNow s)
          store := { s.store with videoDue := true }
          vsu := [] }
        let s := cutoverRecord 0 (startRound (updPlanner (fun p => { p with digest := ownDigest s }) s))
        let s := logEvent 0x38 (srcPos pos) (byte1 c.epoch ++ byte1 (consistCount s)) s
        let s := if conflict then cabConflict (consistCount s) s else s
        sendEnds (innerCheck (coldContracts s))
      else s
    | _, _, _, _ => s

/-! ### Time at a re-forming -/

/-- J of R151 in units of 2^-16 ns: LEAP is whole ns, and J is a multiple of the hyper-period. -/
def leapUnits (hp leap : Nat) : Nat :=
  let j := (leap * unitsPerNs + hp - 1) / hp * hp
  if j < (leap + 1) * unitsPerNs then j else leap * unitsPerNs

/-- Cycle numbers held move by `n` (R152); what the Gallery and the VSU hold goes by the count of cycles as they occur. -/
def shiftCycles (n : Nat) (s : State) : State :=
  if n = 0 then s
  else { s with
    car := s.car.map fun c => { c with gateDue := c.gateDue.map fun g => (g.1, g.2.1 + n, g.2.2) }
    twin := { s.twin with
      handoverCycle := if s.twin.handoverCycle = 0 then 0 else s.twin.handoverCycle + n
      mirror := s.twin.mirror.map fun m => { m with cycle := m.cycle + n } } }

/-- New cycle settings (R131): the boundary is the new B and cycle numbers start again. -/
def newCycle (m : JnCutover) (s : State) : State :=
  let last := cycleNow s
  let hyper := s.time.hyper
  let s := takeCycle m.cycle m.hyper m.squeeze s.clk.lt s
  { s with
    gallery := { s.gallery with retHyper := hyper, retShift := last % hyper }
    car := s.car.map fun c => { c with gateDue := c.gateDue.map fun g => (g.1, 0, g.2.2) }
    twin := { s.twin with handoverCycle := 0, handoverAck := false } }

/-- The settings announced differ from those in force. -/
def otherCycle (m : JnCutover) (s : State) : Bool :=
  m.cycle != s.time.l || m.hyper != s.time.hyper || m.squeeze != s.time.squeeze

/-- A keeping unit's time (R149, R151, R153): it leaps by J. -/
def keepTime (m : JnCutover) (s : State) : State :=
  let j := leapUnits (s.time.l * s.time.hyper) m.leap
  let n := j / s.time.l
  let s := shiftCycles n (stepForward j true s)
  if otherCycle m s then newCycle m s else if m.cause = 2 then s else updTime (fun t => { t with pendingCycle := none }) s

/-- A joining unit's time (R151, R159, R168): its step, L and B, and the keeping part's calendar, with TIME_STEP where calendar time
jumps and source 68 where a slew ends or starts. -/
def joinTime (m : JnCutover) (s : State) : State :=
  let j := leapUnits (m.cycle * m.hyper) m.leap
  let before := (ltNs s : Int) + calOffsetNow s
  let slewing := s.time.slew.isSome || m.calSlew != 0
  let target := m.cutover * unitsPerNs + j
  let s := stepForward (target - s.clk.lt) false s
  let base := target - Config.joinCycles m.cutover m.cycle * m.cycle
  let s := if otherCycle m s then newCycle m s else s
  let start := target / unitsPerNs
  let s := updTime (fun t => { t with
    calOffset := m.calOffset, calValid := true, calPending := [],
    slew := if m.calSlew = 0 then none else some { startLt := start, base := m.calOffset, change := m.calSlew } })
    (takeCycle m.cycle m.hyper m.squeeze base s)
  let change := (ltNs s : Int) + m.calOffset - before
  let s := if slewing then assertEdge 68 s else s
  if change = 0 then s else logEvent 0x21 srcNode (le 8 (twos 64 change)) s

/-- The servo at a re-forming (R149, R151, R153): a new position 1 has S = 0, the old one keeps LOCKED and U. A holdover of the old one
before its first sample grows from the U of 0 that it held, from the cut-over on (DESIGN CHOICE, log 63). -/
def servoChange (wasRef : Bool) (s : State) : State :=
  if isReference s then { s with clk := { s.clk with s := 0 }, time := { s.time with holdover := false } }
  else if wasRef then updTime (fun t => { t with locked := true, uLast := 0, sampleLt := s.clk.lt }) s
  else s

/-! ### Addresses and plan at a re-forming -/

/-- Where the vehicles of the previous consist are now (R123, R224). -/
def aliasOf (s : State) (p : Pending) : Tab Nat :=
  (List.range (consistCount s)).filterMap fun i => (ownMap s p (i + 1)).map fun q => (i + 1, q)

/-- Windows of the previous epoch stay, others are fresh (R119). -/
def ageWindows (old new : Nat) (t : Tab Window) : Tab Window := t.filter fun e => e.1 / 256 == old && old != new

/-- This unit's contexts under their new numbers (R216), with what hangs on them. -/
def renumberOwn (f : Formed) (s : State) : State :=
  let move (k : Nat) : Option Nat := tabFind f.numbers k
  { s with
    planner := { s.planner with ctxs := renumberCtxs f.numbers s.planner.ctxs }
    vsu := f.numbers.foldl (fun t e => match tabFind s.vsu e.1 with
      | some v => tabPut t e.2 v
      | none => t) []
    time := { s.time with glk := s.time.glk.map fun g => { g with bound := g.bound.bind move } } }

/-- Answered changes up to a SERIAL are in force with the plan of the cut-over, and their commands complete (R81, R266); later ones are
discarded, and their requests lapse (R267). -/
def completeAnswered (f : Formed) (serial : Nat) (s : State) : State :=
  let done (r : Request) : Bool := r.answered && (r.tag.bind (cmdOf s)).all fun c => decide ((serial + 65536 - c.ref) % 65536 ≤ 32767)
  let now := s.planner.waiting.filter done
  let s := updPlanner (fun p => { p with waiting := p.waiting.filter fun r => !done r }) s
  now.foldl (fun s r =>
    let s := match r.tag with
      | some t => setCmd t (fun c => { c with ref2 := (tabFind f.numbers c.ref2).getD c.ref2 }) s
      | none => s
    completeChange r s) s

/-- Contexts that no longer had a number, and streams that lost destinations (R225). -/
def recordChanges (f : Formed) (s : State) : State :=
  let s := f.deaths.foldl (fun s e => logEvent 0x3E (srcCtx e.1) (byte1 e.2) s) s
  f.partials.foldl (fun s e => logEvent 0x3F (srcCtx e.1) (byte1 e.2) s) s

/-- The plan comes into force (R121, R222, R223, R229, R255, R286). Without a complete SHADOW the banks alone wait (R257), a joining unit's
without the old ones (R223). -/
def cutoverPlan (f : Formed) (joining done : Bool) (old s : State) : State :=
  let c := cycleNow s
  let s := { s with planner := { freshPlanner s c with
    silenced := s.planner.silenced, silencedTwin := s.planner.silencedTwin, coldDone := true, ctxs := s.planner.ctxs,
    selections := s.planner.selections, requests := [] } }
  let g : Stage := { swap := c, serial := 0, ctxs := f.ctxs, sels := f.sels }
  let kept (k : Nat) : Bool := f.kept.contains k
  let shift := s.gallery.retShift
  let hyper := s.gallery.retHyper
  let s := updGallery (fun y => { y with swapAt := none, quietFrom := none }) s
  let s := if done then
      updGallery (fun y => { y with retShift := shift, retHyper := if shift = 0 then s.time.hyper else hyper }) (rotateBanks c joining s)
    else s
  let s := startRound (takePlan g kept kept c old s)
  let s := if done then s
    else
      let s := updGallery (fun y => { y with
        waiting := true, shadowComplete := false, swapAt := some c
        banks := if joining then y.banks.map fun b => { b with active := [], retiring := [] } else y.banks }) s
      logEvent 0x50 srcNode (le 4 c) (updPlanner (fun p => { p with staged := [g] }) s)
  match f.later with
  | some t => stage { swap := c + cyclesOf s 8000000, serial := 0, ctxs := t, sels := f.sels } s
  | none => s

/-- A unit changes over (R223): time, position, windows, plan, records and what follows from the new ends. -/
def changeOver (p : Pending) (m : JnCutover) (s : State) : State :=
  let f := formed s p
  let joining := !p.keeping
  let pos := newPosition s p
  let head := newHead s p
  let aliases := aliasOf s p
  let oldEpoch := s.survey.epoch
  let wasRef := isReference s
  let done := s.reform.shadowDone && s.gallery.shadowComplete
  let serial := serialAtCut s
  let s := addDues (cycleTag s (cycleNow s) - 1) s
  let s := if joining then joinTime m s else keepTime m s
  let s := renumberOwn f s
  let old := s
  let s := takePosition pos m.epoch head { p.record with epoch := m.epoch, cutover := m.cutover } s
  let s := updSurvey (fun v => { v with aliasLeft := 64, aliasMap := aliases, conflict := false }) (servoChange wasRef s)
  let s := updGallery (fun g => { g with
    ttWin := if joining then [] else g.ttWin, flights := if joining then [] else g.flights,
    accepted := if joining then [] else g.accepted,
    rcWin := ageWindows oldEpoch m.epoch g.rcWin, mgWin := ageWindows oldEpoch m.epoch g.mgWin }) s
  let s := recordChanges f (cutoverPlan f joining done old { s with store := { s.store with videoDue := true } })
  let s := updReform (fun r => { serial := r.serial, endPs := r.endPs, refused := r.refused, phase := 4 }) s
  let s := lapseRequests (completeAnswered f serial (cutoverRecord m.cause s))
  breakCheck (sendEnds (innerCheck s))

/-- A unit whose pending record does not match gives up its position (R200, R223). -/
def failOver (m : JnCutover) (s : State) : State :=
  giveUp (s.survey.round + 1) (logEvent 0x39 srcNode (le 4 m.crc.toNat) s)

/-- CUTOVER (R221, R223, R225, R519): the boundary of the held announcement. -/
def execCutover : State → Host.Outcome State Fault Refusal :=
  run fun s =>
    match s.reform.cutover with
    | none => s
    | some m =>
      if !(running s && numbered s) then s
      else
        let s := toLt (ownCut s m) s
        sleepCutover (match s.reform.pending with
          | some p => if p.record.crc = m.crc ∧ p.cause = m.cause then changeOver p m s else failOver m s
          | none => failOver m s)

/-- ALIAS_END (R119, R224, R226): the alias period is over. -/
def execAliasEnd : State → Host.Outcome State Fault Refusal :=
  run fun s =>
    if numbered s && s.survey.prevEpoch != 0xFF && decide (s.survey.aliasLeft ≤ 1) then
      let s := if s.survey.aliasLeft = 1 then toLt (boundary s (s.time.cycle + 1)) s else s
      let gone := s.survey.prevEpoch
      let drop (t : Tab Window) : Tab Window := t.filter fun e => e.1 / 256 != gone || gone == s.survey.epoch
      let s := updGallery (fun g => { g with rcWin := drop g.rcWin, mgWin := drop g.mgWin }) s
      updReform (fun r => { r with phase := if r.phase = 4 then 0 else r.phase })
        (updSurvey (fun v => { v with aliasLeft := 0, prevRecord := none, prevEpoch := 0xFF, aliasMap := [] }) s)
    else s

end Sys2Proof.Machine
end

