-- ==== Sys2Proof/Machine/Survey.lean ====
section
/-! DEFINITION. The commands of the Survey: consist reading, claims, the count wave, links (R169 to R202). -/

namespace Sys2Proof.Machine

/-! ### Commands of group 0x02 -/

/-- The record in force as the unit shows it: its own entry carries INNER_CAB while R170 sets it. RECORD_CRC stays that of the record sent
(log 66). -/
def shownRecord (s : State) (r : Record) : Record :=
  let es := r.entries.map fun e => if e.position = s.survey.position then { e with innerCab := e.innerCab || s.survey.innerCab } else e
  { r with entries := es, innerSeen := es.any fun e => e.innerCab }

/-- The record as CONSIST_READ writes it: 1,024 bytes, zeros after entry COUNT (R194). -/
def consistBuffer (s : State) : List Byte :=
  match s.survey.record.map (shownRecord s) with
  | some r => padTo 1024 0 (if numbered s then recordHeader false r ++ entriesBytes false r.entries else [])
  | none => zeros 1024

/-- CONSIST_READ (R85, R194): the record to an output buffer, epoch and count as the result. -/
def execConsistRead (tag : BitVec 8) (wr : Bool) : State → Host.Outcome State Fault Refusal :=
  run (withCmd 0x0201 tag fun c s =>
    checked c ([lenCheck c 0 true] ++ stateChecks c s none false ++ descChecks c 1024)
      (finishOut c wr (consistBuffer s) (s.survey.epoch + consistCount s * 2 ^ 8)) s)

/-- CONSIST_WAIT (R85): completes at once where the epoch already differs from p0, else waits. -/
def execConsistWait (tag : BitVec 8) : State → Host.Outcome State Fault Refusal :=
  run (withCmd 0x0202 tag fun c s =>
    checked c ([lenCheck c 1 false] ++ stateChecks c s none false)
      (fun s => if s.survey.epoch ≠ pB c 0 then finish c 0 s.survey.epoch s else park c (pB c 0) 0 s) s)

/-- ALIAS_STATUS (R85, R224): the cycles of address aliasing remaining. -/
def execAliasStatus (tag : BitVec 8) : State → Host.Outcome State Fault Refusal :=
  run (withCmd 0x0204 tag fun c s =>
    checked c ([lenCheck c 0 false] ++ stateChecks c s none false) (finish c 0 s.survey.aliasLeft) s)

/-! ### SV_HELLO -/

/-- The SV_HELLO of a port (R175). -/
def helloOf (s : State) (p : BPort) : SvHello :=
  { origin := s.survey.origin, round := s.survey.round, part := s.part.code, cabActive := s.survey.cabActive,
    cabPresent := s.survey.cabPresent, orient := s.store.orient, twin := s.twin.partner.isSome,
    active := s.twin.partner.isNone || s.twin.role == .active, pref := s.store.pref, settled := hasSettled s,
    full := consistCount s == 63, state := stateCode s.survey.state, port := p.code, position := s.survey.position,
    peer := peerOrigin s }

/-- The SV_HELLO of the present cycle is still to be sent: its instant, Survey chamber start plus 3,200 ns, has not passed (R133, R174). -/
def helloDue (s : State) (p : BPort) : Bool :=
  decide (phaseOf s s.clk.lt ≤ 3200 * unitsPerNs) && ((neighAt s p).helloLt.all fun t => cycleOf s t != cycleNow s)

/-- SV_HELLO_SEND (R133, R174): a port that is up sends SV_HELLO at Survey chamber start plus 3,200 ns, once in a cycle. -/
def execSvHelloSend (p : BPort) : State → Host.Outcome State Fault Refusal :=
  run fun s =>
    if running s && bbOpen s p && s.survey.state != .boot && helloDue s p then
      let s := toPhase (3200 * unitsPerNs) s
      let s := setNeigh p (fun n => { n with helloLt := some s.clk.lt }) s
      emitMg p (.svHello (helloOf s p)) s
    else s

/-! ### Settling and claims -/

/-- SETTLE (R183, R186, R201): after 16 unchanged cycles an end unit enters CLAIM, any other SETTLED; a unit that is to claim
waits until both cab inputs are known (R169). -/
def execSettle : State → Host.Outcome State Fault Refusal :=
  run fun s =>
    if running s && s.survey.state == .listen && decide (16 ≤ s.survey.settleCycles) then
      if isEnd s then
        if s.survey.cabActiveKnown && s.survey.cabPresentKnown then
          decideClaim (makeClaims (updSurvey (fun v => { v with state := .claim, claimSent := false, quietPs := s.clk.ps, noEndPs := none }) s))
        else s
      else updSurvey (fun v => { v with state := .settled, quietPs := s.clk.ps, noEndPs := none }) s
    else s

/-- The claim stored for its side in place of an older one of the same origin (R186). -/
def storeClaim (sd : Side) (m : SvClaim) (s : State) : State :=
  updSurvey (fun v => { v with
    claims := (sd, m) :: v.claims.filter (fun c => !(c.1 == sd && c.2.origin == m.origin && c.2.key.front == m.key.front)),
    quietPs := s.clk.ps, noEndPs := none }) s

/-- A claim is relayed with UNITS one higher (R172, R176, R186). -/
def relayClaim (rx : MgRx) (m : SvClaim) (s : State) : State :=
  let x : Relayed := { mtype := 0x0102, origin := m.origin, round := m.round }
  if relayOnce x s then sendSurvey rx.port.side.other (.svClaim { m with units := m.units + 1 }) (markRelayed x s) else s

/-- SV_CLAIM_RX (R172, R186): stored, relayed and, in CLAIM, compared. -/
def execSvClaimRx (rx : MgRx) (m : SvClaim) : State → Host.Outcome State Fault Refusal :=
  run (mgIn rx (.svClaim m) fun s =>
    let s := adoptRound m.round s
    if inRound s m.round then decideClaim (relayClaim rx m (storeClaim rx.port.side m s)) else s)

/-- NO_END (R188): a settled unit that has heard no claim for 400 ms writes NO_END, and again every 10,000 ms. -/
def execNoEnd : State → Host.Outcome State Fault Refusal :=
  run fun s =>
    if running s && (s.survey.state == .settled || s.survey.state == .claim) then
      let due := match s.survey.noEndPs with
        | none => s.survey.quietPs + 400 * 10 ^ 9
        | some t => t + 10000 * 10 ^ 9
      let s := toPs due s
      logEvent 0x36 srcNode [] (updSurvey (fun v => { v with noEndPs := some s.clk.ps }) s)
    else s

/-! ### The count wave -/

/-- SV_COUNT_RX (R190 to R193): the unit takes its pending position, enters COUNTED and sends the count on. Under IN_VEHICLE the position is
that of the vehicle, one above the entries, where R190's NEXT - 1 agrees only for the head's own pair (DEDUCED, log 75). -/
def execSvCountRx (rx : MgRx) (m : SvCount) : State → Host.Outcome State Fault Refusal :=
  run (mgIn rx (.svCount m) fun s =>
    let s := adoptRound m.round s
    if inRound s m.round && (s.survey.state == .listen || s.survey.state == .settled || s.survey.state == .claim) then
      let head := rx.port.side
      let pos := if m.inVehicle then m.entries.length + 1 else m.next
      countOn head m.inVehicle m (updSurvey (fun v => { v with
        headSide := some head, pendingPos := some pos, state := .counted, countedCycles := 0 }) s)
    else s)

/-- SV_RECORD_RX (R192): stored and relayed headward; at the head it ends and the commit falls due (R195). -/
def execSvRecordRx (rx : MgRx) (m : SvRecord) : State → Host.Outcome State Fault Refusal :=
  run (mgIn rx (.svRecord m) fun s =>
    let s := adoptRound m.round s
    if inRound s m.round && s.survey.state == .counted && s.survey.stored.isNone then
      let s := updSurvey (fun v => { v with stored := some m.record, commitDue := v.isHead }) s
      let x : Relayed := { mtype := 0x0104, origin := m.headOrigin, round := m.round }
      if s.survey.isHead || !relayOnce x s then s else sendSurvey rx.port.side.other (.svRecord m) (markRelayed x s)
    else s)

/-- The commit matches the stored record (R196). -/
def commitMatches (m : SvCommit) (s : State) : Bool :=
  match s.survey.stored with
  | some r => r.crc == m.crc
  | none => false

/-- SV_COMMIT_RX (R178, R196, R197): relayed tailward and held, or COMMIT_MISMATCH and a new round. -/
def execSvCommitRx (rx : MgRx) (m : SvCommit) : State → Host.Outcome State Fault Refusal :=
  run (mgIn rx (.svCommit m) fun s =>
    let s := adoptRound m.round s
    if inRound s m.round && s.survey.state == .counted && s.survey.commit.isNone then
      let x : Relayed := { mtype := 0x0105, origin := m.headOrigin, round := m.round }
      let s := if relayOnce x s then sendSurvey rx.port.side.other (.svCommit m) (markRelayed x s) else s
      if commitMatches m s then updSurvey (fun v => { v with commit := some m }) s
      else enterRound (s.survey.round + 1) (logEvent 0x39 srcNode (le 4 m.crc.toNat) s)
    else s)

/-- COUNTED_TIMEOUT (R197): no commit within 64 cycles of entering COUNTED starts a new round. -/
def execCountedTimeout : State → Host.Outcome State Fault Refusal :=
  run fun s =>
    if running s && s.survey.state == .counted && s.survey.commit.isNone && decide (64 ≤ s.survey.countedCycles) then
      enterRound (s.survey.round + 1) s
    else s

/-! ### Links of the consist -/

/-- SV_LINK_RX (R198): the position's LINKS and the whole-line flags follow, source 102 asserts. -/
def execSvLinkRx (rx : MgRx) (m : SvLink) : State → Host.Outcome State Fault Refusal :=
  run (mgIn rx (.svLink m) fun s => if numbered s then applyLink m.position m.links s else s)

/-- MEMBER_LINK_REGAIN (R198): after 16 cycles of valid D a link between adjacent units is a member link again. -/
def execMemberLinkRegain (p : BPort) : State → Host.Outcome State Fault Refusal :=
  run fun s =>
    let n := neighAt s p
    if running s && (innerPort s p || memberJumper s p) && !n.member && bbOpen s p && (echoAt s p).dValid && decide (16 ≤ n.regain)
    then memberChange p true s else s

end Sys2Proof.Machine
end

