-- ==== Sys2Proof/Machine/Boundary.lean ====
section
/-! DEFINITION. What a cycle brings by itself: the cycle boundary, the Survey chamber, the start of queued management frames, and the
cab inputs (R130, R169, R235, R236). -/

namespace Sys2Proof.Machine

/-! ### The cycle boundary -/

/-- Every backbone port whose link is up has a valid D (R183). -/
def allValid (s : State) : Bool := BPort.all.all fun p => !(bbAt s p).up || (echoAt s p).dValid

/-- What the Survey counts at a boundary (R172, R183, R197, R198, R224); a cut-over at this boundary has set its own count of
aliasing. -/
def surveyBoundary (cut : Bool) (s : State) : State :=
  let steady := surveying s && !s.survey.stepped && allValid s
  let ports := s.survey.ports.mapIdx fun i n =>
    let idle := !n.member && ((s.bb.getD i {}).up && !n.crossed && !n.split) && (s.echo.getD i {}).dValid
    { n with regain := if idle then n.regain + 1 else 0 }
  updSurvey (fun v => { v with
    settleCycles := if steady then v.settleCycles + 1 else 0, stepped := false, relayed := [], ports := ports,
    countedCycles := if v.state = .counted then v.countedCycles + 1 else v.countedCycles
    aliasLeft := if cut then v.aliasLeft else v.aliasLeft - 1 }) s

/-- The cycle of a port's Echo ends (R138, R167, R205): a request without an answer is lost. -/
def echoEnd (e : EchoPort) : EchoPort :=
  { e with
    lost := if e.t1.isSome && e.sample.isNone then sat 64 (e.lost + 1) else e.lost
    dry := if e.sample.isNone then e.dry + 1 else 0, t1 := none, sample := none }

/-- An ingress at a boundary (R251, R252). -/
def ingressEnd (now : Nat) (i : Ingress) : Ingress :=
  { i with
    clean := if i.closed && !i.dirty then i.clean + 1 else 0, dirty := false
    violations := i.violations.filter fun v => decide (now < v.1 + 16) }

/-- The Gallery at a boundary (R46, R118, R248, R252): windows that accepted nothing for 256 cycles, and what is over. -/
def galleryBoundary (s : State) : State :=
  let now := cycleTag s (cycleNow s)
  updGallery (fun g => { g with
    ttWin := (g.ttWin.filter fun e => decide (e.2.idle < 256)).map fun e => (e.1, { e.2 with idle := e.2.idle + 1 })
    ingress := g.ingress.map (ingressEnd s.time.cycles)
    accepted := g.accepted.filter fun x => decide (now ≤ x.2.2 + 8)
    flights := g.flights.filter fun f => decide (now ≤ f.cycle + 4) }) s

/-- A genlock output that waits takes its anchor (R162, R165). -/
def glkAnchor (k : Nat) (g : Glk) : Glk :=
  if g.anchorDue && g.mode != 0 then { g with anchorDue := false, anchor := k, frameCycle := k, line := g.lines } else g

/-- One VIDEO entry acts (R272, R294, R536): the output is bound to the stream sourced at the port, and the form and codec go to every
stream of the port that does not have them. -/
def actVideo (s : State) (v : Video) : State :=
  let s := if 0x40 ≤ v.glk ∧ v.glk < 0x40 + glkOuts s.part.code then match ctxOfPort s v.port with
      | some x => bindGlk (v.glk - 0x40) x.canon.context s
      | none => s
    else s
  if v.form ≤ 2 ∧ hasVsu s.part = true then s.planner.ctxs.foldl (fun s e =>
    let mine := (sourcedHere s e.1 && e.2.canon.contract.srcPort == v.port) || (maskHere s e.2.canon).getLsbD v.port
    let has := let u := vsuAt s e.1
      u.due.getD (u.form, u.codec) == (v.form, v.codec) && (u.configured || u.due.isSome)
    if mine && !has then setVsu e.1 (fun u => { u with due := some (v.form, v.codec), holds := 0, disorder := 0 }) s else s) s
  else s

/-- The VIDEO entries act at a boundary after a cut-over or swap (R536). -/
def videoBoundary (s : State) : State :=
  if s.store.videoDue && numbered s then s.store.video.foldl actVideo { s with store := { s.store with videoDue := false } } else s

/-- A CAL_APPLY still waits in a port's queue. -/
def calQueued (s : State) (id : Nat) : Bool :=
  s.bb.any fun b => b.mg.any fun f => match f.msg with
    | .calApply m => m.changeId == id && f.hops == 0
    | _ => false

/-- A TIME_SET completes when its CAL_APPLY has been sent on every port (R155). -/
def sweepTimeSets (s : State) : State :=
  (s.cmdq.inflight.filter fun c => c.opcode == 0x0303 && c.phase == .committed && !calQueued s c.ref).foldl
    (fun s c => finish c 0 c.ref2 s) s

/-- The start of a cycle in the clocks: the boundary of a cycle that a step or a cut-over began stands, any other is waited for. -/
def reachBoundary (s : State) : State :=
  let s := if s.time.boundaryDue then s else toLt (boundary s (s.time.cycle + 1)) s
  let passed := max 1 (cycleNow s - s.time.cycle)
  updTime (fun t => { t with cycle := cycleNow s, cycles := t.cycles + passed, boundaryDue := false }) s

/-- What is due at each boundary, unit by unit. -/
def boundaryDuties (cut : Bool) (s : State) : State :=
  let k := cycleNow s
  let s := galleryBoundary (surveyBoundary cut { s with echo := s.echo.map echoEnd, test := { s.test with cycleSlice := false } })
  let s := bindBoundary (updTime (fun t => { t with glk := t.glk.map (glkAnchor k) }) s)
  let s := videoBoundary (vsuBoundary (refreshIntake s))
  let ports := List.range (carPorts s.part.code)
  let s := if k % s.time.hyper = 0 then ports.foldl (fun s n => gateBoundary n s) s else s
  let s := (ports.filter (carWorks s)).foldl (fun s n => lpiCheck n s) s
  let s := (List.range (canCtls s.part.code)).foldl (fun s n => canBoundary n s) s
  sweepTimeSets (cutIneligible (twinBoundary s))

/-- CYCLE_BOUNDARY (R130): the next boundary, with what is due at it. -/
def execCycleBoundary : State → Host.Outcome State Fault Refusal :=
  run fun s =>
    if running s then
      let s := coldStep s
      boundaryDuties s.time.boundaryDue (reachBoundary s)
    else s

/-! ### The Survey chamber -/

/-- Claims, count and commit in a Survey chamber (R184 to R186, R189, R195): a claim is sent before the unit decides. The count of a
head goes out in its next chamber. -/
def surveyChamber (s : State) : State :=
  let count := s.survey.countDue
  let s := if s.survey.state == .claim && mayClaim s then
      decideClaim (([Side.front, Side.rear].filter (openSide s)).foldl (fun s sd => sendSurvey sd.other (.svClaim (claimOf s sd)) s)
        (makeClaims (updSurvey (fun v => { v with claimSent := true }) s)))
    else s
  let s := if count && s.survey.countDue then startCount s else s
  if s.survey.commitDue then sendCommit s else s

/-- The chamber of the present cycle where its first instant is still to come, else that of the next (R132, R235). -/
def toChamber (s : State) : State :=
  if phaseOf s s.clk.lt < 200 * unitsPerNs then s else toLt (boundary s (cycleNow s + 1)) s

/-- SURVEY_CHAMBER_START (R235): what the unit originates in a Survey chamber joins the queues. -/
def execSurveyChamberStart : State → Host.Outcome State Fault Refusal :=
  run fun s =>
    if running s && s.survey.state != .boot then sleepChamber (reformChamber (plannerChamber (surveyChamber (toChamber s)))) else s

/-! ### Queued management frames -/

/-- The gaps of a Survey chamber that the fixed instants leave, as phases (R132, R174, R236). -/
def mgGaps (s : State) (p : BPort) : List (Nat × Nat) :=
  let echo : MgMsg := .echoReq { probeId := 0, port := p.code, sync := 0, position := 0 }
  let t1 := 200 * unitsPerNs
  let t2 := 3200 * unitsPerNs
  [(0, t1), (t1 + mgWire echo, t2), (t2 + mgWire (.svHello (helloOf s p)), 8000 * unitsPerNs)]

/-- The earliest phase at or after `t` at which a frame of `w` fits in a gap (R236). -/
def fitGap (t w : Nat) (gaps : List (Nat × Nat)) : Option Nat :=
  (gaps.find? fun g => decide (max t g.1 + w ≤ g.2)).map fun g => max t g.1

/-- When the frame at the head of a port's queue may start, line time (R173, R236). What the unit queued while it was numbered, such as
its SV_RESTART, leaves in a Survey chamber. -/
def mgStart (s : State) (p : BPort) (f : MgFrame) : Option Nat :=
  let now := max s.clk.lt (bbAt s p).freeAt
  if !numbered s && f.epoch == 0xFF then some now
  else if cycleOf s now = cycleNow s then
    (fitGap (phaseOf s now) (mgWire f.msg) (mgGaps s p)).map fun t => boundary s (cycleNow s) + t
  else none

/-- MG_FRAME_START (R236): the frame at the head of a port's queue starts in the first gap that holds it. -/
def execMgFrameStart (port : BPort) : State → Host.Outcome State Fault Refusal :=
  run fun s =>
    match (bbAt s port).mg with
    | f :: rest =>
      if running s && bbOpen s port then match mgStart s port f with
        | some t =>
          let s := setBb port (fun b => { b with mg := rest, freeAt := t + mgWire f.msg }) (toLt t s)
          sweepTimeSets (countBb port 0x08 (emit (.mg port f) s))
        | none => s
      else s
    | [] => s

/-! ### Cab inputs -/

/-- What follows from a new level of a cab input (R169, R170, R199, R210, R516): source 104, and a fresh JN_END at an end. -/
def cabChanged (s : State) : State :=
  let s := innerCheck (assertEdge 104 s)
  let s := if numbered s && endSides s != [] then sendEnds s else s
  readyTrack (leadCheck s)

/-- CAB_INPUT_CHANGE (R169, R170, R506, R510): an input has shown one level for 50 ms. `active` names CAB_ACTIVE. -/
def execCabInputChange (active level : Bool) : State → Host.Outcome State Fault Refusal :=
  run fun s =>
    if running s then
      let old := if active then s.survey.cabActive else s.survey.cabPresent
      let s := updSurvey (fun v => if active then { v with cabActive := level, cabActiveKnown := true }
        else { v with cabPresent := level, cabPresentKnown := true }) s
      if old = level then s
      else
        let s := cabChanged s
        if active && level && reasonOn s 7 then dozeExit [7] s else s
    else if s.power.mode = .parking ∧ active = true ∧ level = true then wakeReason 7 s
    else s

end Sys2Proof.Machine
end

