-- ==== Sys2Proof/Machine/Registers.lean ====
section
/-! DEFINITION. The registers of the window: what each reads as and what a write to it does (R26, R54 to R61, R166, R451, R475, R498,
R525, R550 to R559, R561, R562, R569). -/

namespace Sys2Proof.Machine

/-- The window answers (R560, R563): from the start of the boot ROM until Park entry is complete. -/
def windowUp (s : State) : Bool :=
  s.store.released && (s.power.mode == .run || s.power.mode == .doze || s.power.mode == .parking)

/-- Register state changed by a function. -/
def updRegs (f : Regs → Regs) (s : State) : State := { s with regs := f s.regs }

/-! ### Reads -/

/-- Word n of a set of sources: bit b for ID 32n + b (R451, R569). -/
def sourceWord (s : State) (p : Nat → Bool) (n : Nat) : Word :=
  w32 (packBits ((List.range 32).map fun b =>
    let id := 32 * n + b
    decide (1 ≤ id) && decide (id ≤ 640) && !absentId s.part id && p id))

/-- SRC_CFG (R451). -/
def srcCfgRead (s : State) (id : Nat) : Word :=
  let c := srcCfg s id
  if id = 0 ∨ 640 < id ∨ c.prio = 0 then 0
  else w32 ((match targetHost c.target with
    | none => 1
    | some .pcie => 2
    | some .spi => 3) * 2 ^ 12 + c.target % 16 * 2 ^ 8 + c.prio % 16)

/-- TGT_STAT (R451). -/
def tgtStat (s : State) (t : Nat) : Word :=
  let x := targetAt s t
  w32 (flagAt (request s t) 31 + flagAt (decide (4 ≤ t) && decide (t < 14) && s.router.pba.getLsbD (t - 4)) 30 + flagAt (x.asleep && decide (t < 4)) 29
    + x.stack.length % 16 * 2 ^ 24 + topPrio x % 16 * 2 ^ 16 + topId x)

/-- INT_FAULT_INFO (R451). -/
def faultInfo (r : Router) : Word :=
  w32 (flagAt r.faultValid 31 + flagAt r.faultOverrun 30 + r.faultTarget % 16 * 2 ^ 20 + r.faultExpected % 1024 * 2 ^ 10 + r.faultGiven % 1024)

/-- A word of the event router's region (R451, R552); CLAIM apart. -/
def routerRead (s : State) (o : Nat) : Word :=
  let n := o % 0x80 / 4
  if o < 0x400 then
    if 20 < n then 0
    else match o / 0x80 with
      | 0 => sourceWord s (isPending s) n
      | 1 => sourceWord s (isPending s) n
      | 2 => sourceWord s s.router.mask.getLsbD n
      | 3 => sourceWord s s.router.mask.getLsbD n
      | 4 => sourceWord s s.router.wake.getLsbD n
      | 5 => sourceWord s edgeId n
      | 6 => sourceWord s (levelOf s) n
      | _ => sourceWord s s.router.service.getLsbD n
  else if o < 0x1000 then 0
  else if o < 0x1000 + 4 * 641 then srcCfgRead s ((o - 0x1000) / 4)
  else if 0x2000 ≤ o ∧ o < 0x2200 then
    let t := (o - 0x2000) / 0x20
    match o % 0x20 with
    | 0 => w32 (targetAt s t).threshold
    | 0xC => tgtStat s t
    | _ => 0
  else if o = 0x3000 then faultInfo s.router
  else if o = 0x3004 then w32 s.router.faultCount
  else if 0x4000 ≤ o ∧ o < 0x40A0 then
    let v := s.router.msix.getD ((o - 0x4000) / 16) {}
    match o % 16 with
    | 0 => v.addr.setWidth 32
    | 4 => (v.addr >>> 32).setWidth 32
    | 8 => v.data
    | _ => w32 (b2n v.masked)
  else if o = 0x4800 then s.router.pba.setWidth 32
  else 0

/-- Codes of the submission queue states (R57). -/
def sqCode : QState → Nat
  | .disabled => 0
  | .running => 1
  | .stopped => 2
  | _ => 3

/-- Codes of the completion queue states (R59). -/
def cqCode : QState → Nat
  | .disabled => 0
  | .held => 2
  | _ => 1

/-- A register of a submission queue's block (R54 to R57). -/
def sqRead (s : State) (q o : Nat) : Word :=
  let x := sqAt s q
  match o with
  | 0x00 => w32 (sqBase q x)
  | 0x04 => w32 (sqBase q x / 2 ^ 32)
  | 0x08 => w32 (flagAt x.enable 31 + x.cq % 8 * 2 ^ 16 + x.log2 % 16)
  | 0x0C => w32 (sqCode x.state * 2 ^ 30 + x.err % 256 * 2 ^ 16 + x.head % 2048)
  | _ => 0

/-- A register of a completion queue's block (R54, R55, R58, R59). -/
def cqRead (s : State) (m o : Nat) : Word :=
  let x := cqAt s m
  match o with
  | 0x00 => w32 (cqBase m x)
  | 0x04 => w32 (cqBase m x / 2 ^ 32)
  | 0x08 => w32 (flagAt x.enable 31 + x.log2 % 16)
  | 0x0C => w32 (cqCode x.state * 2 ^ 30 + x.err % 256 * 2 ^ 16 + flagAt x.phase 11 + x.tail % 2048)
  | _ => 0

/-- A register of the time region (R166). -/
def timeRead (s : State) (o : Nat) : Word :=
  let t := s.time
  match o with
  | 0x04 => w32 (flagAt t.snapValid 31 + flagAt t.snapCalValid 30 + t.snapCount.toNat)
  | 0x08 => w32 (t.snapLt / unitsPerNs)
  | 0x0C => w32 (t.snapLt / unitsPerNs / 2 ^ 32)
  | 0x10 => w32 (t.snapLt % unitsPerNs)
  | 0x14 => t.snapCal.setWidth 32
  | 0x18 => (t.snapCal >>> 32).setWidth 32
  | 0x1C => w32 t.snapPhase
  | 0x24 => w32 (servoStat s)
  | 0x28 => w32 (twos 32 (thetaNs s))
  | 0x2C => w32 (twos 32 (s.clk.f + s.clk.s))
  | 0x30 => w32 (t.stepTotal / unitsPerNs)
  | 0x34 => w32 (t.stepTotal / unitsPerNs / 2 ^ 32)
  | 0x38 => w32 (twos 64 (calOffsetNow s))
  | 0x3C => w32 (twos 64 (calOffsetNow s) / 2 ^ 32)
  | 0x40 => w32 (glkStat s)
  | _ => 0

/-- A register of the Flowstone region (R475). -/
def flowRead (s : State) (o : Nat) : Word :=
  if 0x20 ≤ o ∧ o < 0x40 then flwData s ((o - 0x20) / 4)
  else if 0x100 ≤ o ∧ o < 0x200 then sumpWord s ((o - 0x100) / 0x20) (o % 0x20 / 4)
  else match o with
    | 0x00 => w32 (flwStat s)
    | 0x04 => ((oldest s.flow).map fun r => r.seq).getD 0
    | 0x08 => ((newest s.flow).map fun r => r.seq).getD 0
    | 0x0C => w32 s.flow.lost
    | 0x10 => if windowOpen s then s.flow.cursor else 0
    | 0x200 => w32 (sumpStat s)
    | _ => 0

/-- A register of the life-cycle and self-test region (R498, R569). -/
def testRead (s : State) (o : Nat) : Word :=
  match o with
  | 0x00 => w32 (lcStat s)
  | 0x04 => s.test.quarantine.setWidth 32
  | 0x08 => (s.test.quarantine >>> 32).setWidth 32
  | 0x0C => w32 (stStat s)
  | 0x10 => s.test.lastFail
  | 0x14 => w32 s.test.failCount
  | 0x18 => w32 s.test.sliceCount
  | _ => 0

/-- A register of the power region (R525). -/
def powerRead (s : State) (o : Nat) : Word :=
  match o with
  | 0x00 => w32 (pwrStat s)
  | 0x04 => s.power.wakeEn
  | 0x08 => s.power.wakeLatch
  | 0x0C => readyReasons s
  | 0x10 => w32 (b2n s.power.hold)
  | 0x14 => w32 (sleepStat s)
  | 0x18 => w32 s.power.instant
  | 0x1C => w32 (s.power.instant / 2 ^ 32)
  | _ => 0

/-- BAD_ACCESS_INFO (R559). -/
def badInfo (r : Regs) : Word :=
  w32 (flagAt r.badValid 31 + flagAt r.badOverrun 30 + flagAt r.badWrite 29 + flagAt r.badSpi 28 + r.badOff % 2 ^ 22)

/-- A register of the identity region (R4, R553 to R559). -/
def idRead (s : State) (o : Nat) : Word :=
  match o with
  | 0x00 => w32 (s.part.code * 2 ^ 16 + 2 ^ 8 + s.minor.toNat)
  | 0x04 => w32 (nodeState s)
  | 0x08 => w32 (nodeAddr s)
  | 0x0C => w32 (bootStat s)
  | 0x10 => s.regs.scratchPcie
  | 0x14 => s.regs.scratchSpi
  | 0x18 => badInfo s.regs
  | _ => 0

/-- What a register reads as, side effects apart (R26, R550, R551). CLAIM reads 0 here. -/
def readReg (s : State) (off : Nat) : Word :=
  if off < 0x1000 then idRead s off
  else if off < 0x1200 then sqRead s ((off - 0x1000) / 0x40) (off % 0x40)
  else if off < 0x1300 then cqRead s ((off - 0x1200) / 0x40) (off % 0x40)
  else if off < 0x10000 then 0
  else if off < 0x20000 then routerRead s (off - 0x10000)
  else if off < 0x30000 then timeRead s (off - 0x20000)
  else if off < 0x40000 then flowRead s (off - 0x30000)
  else if off < 0x50000 then testRead s (off - 0x40000)
  else if off < 0x60000 then powerRead s (off - 0x50000)
  else 0

/-! ### Writes -/

/-- A write of SQ_CFG (R56, R61, R88). -/
def sqCfgWrite (h : HostId) (q : Nat) (val : Word) (s : State) : State :=
  if val.getLsbD 30 then (if mayWriteSq h q s then resetSq q 2 s else s)
  else if val.getLsbD 31 then sqEnableWrite h q val s
  else sqDisableWrite h q val s

/-- A ring base with one half written; bits [5:0] are reserved (R55). -/
def baseWith (hi : Bool) (val : Word) (b : BitVec 64) : BitVec 64 :=
  if hi then BitVec.ofNat 64 (val.toNat * 2 ^ 32 + b.toNat % 2 ^ 32)
  else BitVec.ofNat 64 (b.toNat / 2 ^ 32 * 2 ^ 32 + val.toNat / 64 * 64)

/-- A write in a submission queue's block (R52, R54 to R61). -/
def sqWrite (h : HostId) (q o : Nat) (val : Word) (s : State) : State :=
  let free := mayWriteSq h q s && !(sqAt s q).enable && (sqAt s q).state == .disabled && decide (q < 6)
  match o with
  | 0x00 => if free then setSq q (fun x => { x with base := baseWith false val x.base }) s else s
  | 0x04 => if free then setSq q (fun x => { x with base := baseWith true val x.base }) s else s
  | 0x08 => sqCfgWrite h q val s
  | 0x10 => sqTailWrite h q val s
  | _ => s

/-- A write in a completion queue's block (R52, R54, R55, R58 to R61). -/
def cqWrite (h : HostId) (m o : Nat) (val : Word) (s : State) : State :=
  let free := cqHost m == h && !(cqAt s m).enable && decide (m < 3)
  match o with
  | 0x00 => if free then setCq m (fun x => { x with base := baseWith false val x.base }) s else s
  | 0x04 => if free then setCq m (fun x => { x with base := baseWith true val x.base }) s else s
  | 0x08 => if val.getLsbD 31 then cqEnableWrite h m val s else cqDisableWrite h m val s
  | 0x10 => cqHeadWrite h m val s
  | _ => s

/-- A write in the event router's region (R438 to R451, R552). -/
def routerWrite (h : HostId) (o : Nat) (val : Word) (s : State) : State :=
  let n := o % 0x80 / 4
  if o < 0x400 then
    if 20 < n then s
    else match o / 0x80 with
      | 0 => pendSet h n val s
      | 1 => pendClr h n val s
      | 2 => maskSet h n val s
      | 3 => maskClr h n val s
      | _ => s
  else if o < 0x1000 then s
  else if o < 0x1000 + 4 * 641 then srcCfgWrite h ((o - 0x1000) / 4) val s
  else if 0x2000 ≤ o ∧ o < 0x2200 then
    let t := (o - 0x2000) / 0x20
    match o % 0x20 with
    | 0 => thresholdWrite h t val s
    | 8 => completeWrite h t val s
    | _ => s
  else if o = 0x3008 then faultAck val s
  else if 0x4000 ≤ o ∧ o < 0x40A0 then msixWrite h (0x10000 + o) val s
  else s

/-- A write of BAD_ACCESS_ACK (R553). -/
def badAck (val : Word) (s : State) : State :=
  if val.getLsbD 0 then updRegs (fun r => { r with badValid := false, badOverrun := false }) s else s

/-- A write of FLW_CURSOR (R472, R475): ignored in normal service. -/
def flwCursor (val : Word) (s : State) : State := if windowOpen s then updFlow (cursorWrite val) s else s

/-- A write of PWR_HOLD (R514, R516, R525). -/
def pwrHold (val : Word) (s : State) : State := readyTrack (updPower (fun p => { p with hold := val.getLsbD 0 }) s)

/-- A write of SNAP_CTRL (R166). -/
def snapCtrl (val : Word) (s : State) : State := if val.getLsbD 0 then snapTake s else s

/-- What a 32-bit write does (R26, R550, R551, R558, R561, R562): while SERVICE is 0 only the scratch registers, BAD_ACCESS_ACK and
FLW_CURSOR take it. -/
def writeReg (h : HostId) (off : Nat) (val : Word) (s : State) : State :=
  if off = 0x10 then (if h = .pcie then updRegs (fun r => { r with scratchPcie := val }) s else s)
  else if off = 0x14 then (if h = .spi then updRegs (fun r => { r with scratchSpi := val }) s else s)
  else if off = 0x1C then badAck val s
  else if off = 0x30010 then flwCursor val s
  else if s.store.service = false ∨ off < 0x1000 then s
  else if off < 0x1200 then sqWrite h ((off - 0x1000) / 0x40) (off % 0x40) val s
  else if off < 0x1300 then cqWrite h ((off - 0x1200) / 0x40) (off % 0x40) val s
  else if 0x1400 ≤ off ∧ off < 0x1500 then ringDoorbell 0 h ((off - 0x1400) / 4) val s
  else if 0x1500 ≤ off ∧ off < 0x1600 then ringDoorbell 1 h ((off - 0x1500) / 4) val s
  else if off < 0x10000 then s
  else if off < 0x20000 then routerWrite h (off - 0x10000) val s
  else if off = 0x20000 then snapCtrl val s
  else if off = 0x50010 then pwrHold val s
  else s

/-- An access that R25 refuses is recorded, and source 9 asserts (R559). -/
def noteBad (h : HostId) (write : Bool) (off : Nat) (s : State) : State :=
  assertEdge 9 (updRegs (fun r =>
    if r.badValid then { r with badOverrun := true }
    else { r with badValid := true, badWrite := write, badSpi := h == .spi, badOff := off % 2 ^ 22 }) s)

end Sys2Proof.Machine
end

