-- ==== Sys2Proof/Machine/Window.lean ====
section
/-! DEFINITION. The commands of the register window, of the SPI port and of the JTAG port (R25, R66, R67, R166, R472, R525, R552 to
R568, R590). -/

namespace Sys2Proof.Machine

/-- REGISTER_WRITE (R25, R26): a 32-bit write, or a 64-bit one that covers two registers, the lower address in the low half. -/
def execRegisterWrite (host : HostId) (off : Nat) (wide : Bool) (val : BitVec 64) : State → Host.Outcome State Fault Refusal :=
  run fun s =>
    if windowUp s = false ∨ 0x400000 ≤ off then s
    else if off % (if wide then 8 else 4) ≠ 0 then noteBad host true off s
    else
      let s := writeReg host off (val.setWidth 32) s
      if wide then writeReg host (off + 4) ((val >>> 32).setWidth 32) s else s

/-- BAD_ACCESS (R25, R559): a read answers 0, a write is ignored. -/
def execBadAccess (host : HostId) (write : Bool) (off : Nat) : State → Host.Outcome State Fault Refusal :=
  run fun s =>
    if !windowUp s then s
    else
      let s := noteBad host write off s
      if write then s else emit (.readData [0]) s

/-- BAD_ACCESS_ACK (R553). -/
def execBadAccessAck (_ : HostId) (val : Word) : State → Host.Outcome State Fault Refusal :=
  run fun s => if windowUp s then badAck val s else s

/-- SNAP (R166, R568). -/
def execSnap (_ : HostId) (val : Word) : State → Host.Outcome State Fault Refusal :=
  run fun s => if s.store.service then snapCtrl val s else s

/-- FLW_CURSOR_WRITE (R472, R561). -/
def execFlwCursorWrite (_ : HostId) (val : Word) : State → Host.Outcome State Fault Refusal :=
  run fun s => if windowUp s then flwCursor val s else s

/-- A read of FLW_DATA7 loads the next record (R472). -/
def afterData7 (s : State) : State := if windowOpen s then updFlow cursorNext s else s

/-- FLW_DATA7_READ (R472, R567): a 64-bit read captures FLW_DATA6 too before the next record is loaded. -/
def execFlwData7Read (_ : HostId) (wide : Bool) : State → Host.Outcome State Fault Refusal :=
  run fun s =>
    if !windowUp s then s
    else
      let data := if wide then [flwData s 6, flwData s 7] else [flwData s 7]
      afterData7 (emit (.readData data) s)

/-- PWR_HOLD_WRITE (R525). -/
def execPwrHoldWrite (_ : HostId) (val : Word) : State → Host.Outcome State Fault Refusal :=
  run fun s => if s.store.service then pwrHold val s else s

/-! ### SPI -/

/-- The part of the SPI address map above the window that holds bytes: the rings in use and the buffer area (R67). -/
def spiHolds (s : State) (a : Nat) : Bool :=
  let ring (base region size : Nat) : Bool := decide (base ≤ a) && decide (a < base + min region size)
  ring 0x01000000 0x10000 (64 * 2 ^ (sqAt s 6).log2) || ring 0x01010000 0x10000 (64 * 2 ^ (sqAt s 7).log2)
    || ring 0x01020000 0x4000 (16 * 2 ^ (cqAt s 3).log2) || ring 0x02000000 0x40000 0x40000

/-- One word written over SPI (R66, R67). -/
def spiPut (a : Nat) (w : List Byte) (s : State) : State :=
  if a < 0x400000 then writeReg .spi a (w32 (unle w)) s
  else if spiHolds s a then { s with ram := memWrite s.ram a w }
  else s

/-- Words written at ascending addresses; a partial word at the end is discarded (R66). The number bounds them. -/
def spiPutAll : Nat → Nat → List Byte → State → State
  | 0, _, _, s => s
  | n + 1, a, bs, s => if bs.length < 4 then s else spiPutAll n (a + 4) (bs.drop 4) (spiPut a (bs.take 4) s)

/-- An SPI address that is no multiple of 4 is, in the window, an access of the wrong alignment: refused and recorded (R25, R551, R559;
DEDUCED, log 39). -/
def spiMisaligned (write : Bool) (a : Nat) (s : State) : State := if a < 0x400000 then noteBad .spi write a s else s

/-- SPI_WRITE (R66, R67): at an address that is no multiple of 4 nothing is written. -/
def execSpiWrite (addr : Nat) (data : List Byte) : State → Host.Outcome State Fault Refusal :=
  run fun s =>
    if !windowUp s then s
    else if addr % 4 ≠ 0 then spiMisaligned true addr s
    else spiPutAll data.length addr data s

/-- The target whose CLAIM an offset is (R451). -/
def claimTarget (off : Nat) : Option Nat :=
  if 0x12000 ≤ off ∧ off < 0x12200 ∧ off % 0x20 = 4 then some ((off - 0x12000) / 0x20) else none

/-- One word read over SPI, and the state after (R67, R567): `many` in a transaction of more than one word. -/
def spiGet (many : Bool) (a : Nat) (s : State) : State × Word :=
  if a < 0x400000 then
    match claimTarget a with
    | some t => claimRead .spi t many s
    | none => (if a = 0x3003C then afterData7 s else s, readReg s a)
  else if spiHolds s a then (s, w32 (unle (memRead s.ram a 4)))
  else (s, 0)

/-- Words read at ascending addresses. -/
def spiGetAll (many : Bool) : Nat → Nat → State → State × List Word
  | 0, _, s => (s, [])
  | n + 1, a, s =>
    let r := spiGet many a s
    let t := spiGetAll many n (a + 4) r.1
    (t.1, r.2 :: t.2)

/-- SPI_READ (R66, R67, R560, R566, R567): before the port answers it drives nothing. An address that is no multiple of 4 reads
0. -/
def execSpiRead (addr words : Nat) : State → Host.Outcome State Fault Refusal :=
  run fun s =>
    if !windowUp s then s
    else if addr % 4 ≠ 0 then emit (.readData (List.replicate words 0)) (spiMisaligned false addr s)
    else
      let r := spiGetAll (decide (1 < words)) words addr s
      emit (.readData r.2) r.1

/-- SPI_OTHER_INSTRUCTION (R66): ignored, with all that follows until CSn rises. -/
def execSpiOtherInstruction (_ : Byte) : State → Host.Outcome State Fault Refusal := run fun s => s

/-! ### JTAG -/

/-- JTAG_INSTRUCTION (R590): a production instruction acts as BYPASS except in FACTORY, where the spec does not say what it does. -/
def execJtagInstruction (instr : JtagInstr) (s : State) : Host.Outcome State Fault Refusal :=
  match instr with
  | .bypass => run (updRegs fun r => { r with jtag := .bypass }) s
  | .boundaryScan => run (updRegs fun r => { r with jtag := .boundaryScan }) s
  | .production _ => if s.test.lc = 1 then .fault .productionInstruction else run (updRegs fun r => { r with jtag := .bypass }) s

end Sys2Proof.Machine
end

