-- ==== Sys2Proof/Machine/Dispatch.lean ====
section
/-! DEFINITION. One arm for each command: the meaning it has. -/

namespace Sys2Proof.Machine

/-- The effect of a command on everything but the queue. -/
def exec (i : Instr) (s : State) : Host.Outcome State Fault Refusal :=
  match i with
  | .nop tag => Sys2Proof.Machine.execNop tag s
  | .nodeInfo tag => Sys2Proof.Machine.execNodeInfo tag s
  | .fwVersion tag => Sys2Proof.Machine.execFwVersion tag s
  | .abort tag => Sys2Proof.Machine.execAbort tag s
  | .consistRead tag wr => Sys2Proof.Machine.execConsistRead tag wr s
  | .consistWait tag => Sys2Proof.Machine.execConsistWait tag s
  | .surveyRestart tag => Sys2Proof.Machine.execSurveyRestart tag s
  | .aliasStatus tag => Sys2Proof.Machine.execAliasStatus tag s
  | .timeGet tag => Sys2Proof.Machine.execTimeGet tag s
  | .calGet tag => Sys2Proof.Machine.execCalGet tag s
  | .timeSet tag => Sys2Proof.Machine.execTimeSet tag s
  | .cycleSet tag => Sys2Proof.Machine.execCycleSet tag s
  | .glkConfig tag => Sys2Proof.Machine.execGlkConfig tag s
  | .echoRead tag wr => Sys2Proof.Machine.execEchoRead tag wr s
  | .servoStatus tag => Sys2Proof.Machine.execServoStatus tag s
  | .streamDeclare tag => Sys2Proof.Machine.execStreamDeclare tag s
  | .streamWithdraw tag => Sys2Proof.Machine.execStreamWithdraw tag s
  | .streamRead tag wr => Sys2Proof.Machine.execStreamRead tag wr s
  | .planRepack tag => Sys2Proof.Machine.execPlanRepack tag s
  | .planStatus tag => Sys2Proof.Machine.execPlanStatus tag s
  | .viewSelect tag => Sys2Proof.Machine.execViewSelect tag s
  | .cameraBind tag => Sys2Proof.Machine.execCameraBind tag s
  | .vsuConfig tag => Sys2Proof.Machine.execVsuConfig tag s
  | .vsuStatus tag => Sys2Proof.Machine.execVsuStatus tag s
  | .portConfig tag => Sys2Proof.Machine.execPortConfig tag s
  | .portStatus tag => Sys2Proof.Machine.execPortStatus tag s
  | .ucastFilterSet tag => Sys2Proof.Machine.execUcastFilterSet tag s
  | .wakePatternSet tag => Sys2Proof.Machine.execWakePatternSet tag s
  | .gateListSet tag buf => Sys2Proof.Machine.execGateListSet tag buf s
  | .ringSet tag => Sys2Proof.Machine.execRingSet tag s
  | .portCounters tag wr => Sys2Proof.Machine.execPortCounters tag wr s
  | .asConfig tag => Sys2Proof.Machine.execAsConfig tag s
  | .mdConfig tag => Sys2Proof.Machine.execMdConfig tag s
  | .mdStatus tag => Sys2Proof.Machine.execMdStatus tag s
  | .mdCounters tag wr => Sys2Proof.Machine.execMdCounters tag wr s
  | .canConfig tag => Sys2Proof.Machine.execCanConfig tag s
  | .canBufferSet tag buf => Sys2Proof.Machine.execCanBufferSet tag buf s
  | .canReadLock tag wr => Sys2Proof.Machine.execCanReadLock tag wr s
  | .canReadRelease tag => Sys2Proof.Machine.execCanReadRelease tag s
  | .canTxAt tag => Sys2Proof.Machine.execCanTxAt tag s
  | .canScheduleSet tag buf => Sys2Proof.Machine.execCanScheduleSet tag buf s
  | .canWakeFilterSet tag => Sys2Proof.Machine.execCanWakeFilterSet tag s
  | .canStatus tag => Sys2Proof.Machine.execCanStatus tag s
  | .twinStatus tag => Sys2Proof.Machine.execTwinStatus tag s
  | .twinYield tag => Sys2Proof.Machine.execTwinYield tag s
  | .logRead tag wr => Sys2Proof.Machine.execLogRead tag wr s
  | .logChallenge tag => Sys2Proof.Machine.execLogChallenge tag s
  | .logClear tag ok addr => Sys2Proof.Machine.execLogClear tag ok addr s
  | .stRun tag => Sys2Proof.Machine.execStRun tag s
  | .stResult tag wr => Sys2Proof.Machine.execStResult tag wr s
  | .lcChallenge tag => Sys2Proof.Machine.execLcChallenge tag s
  | .lcSet tag ok addr => Sys2Proof.Machine.execLcSet tag ok addr s
  | .netSleep tag => Sys2Proof.Machine.execNetSleep tag s
  | .powerModeSet tag => Sys2Proof.Machine.execPowerModeSet tag s
  | .domainSet tag => Sys2Proof.Machine.execDomainSet tag s
  | .wakeConfig tag => Sys2Proof.Machine.execWakeConfig tag s
  | .wakeReason tag => Sys2Proof.Machine.execWakeReason tag s
  | .configCommit tag buf => Sys2Proof.Machine.execConfigCommit tag buf s
  | .configStatus tag => Sys2Proof.Machine.execConfigStatus tag s
  | .configRead tag wr => Sys2Proof.Machine.execConfigRead tag wr s
  | .commandFetch entry => Sys2Proof.Machine.execCommandFetch entry s
  | .commandTimeout tag => Sys2Proof.Machine.execCommandTimeout tag s
  | .nonceExpiry lc => Sys2Proof.Machine.execNonceExpiry lc s
  | .sqTailDb host q val => Sys2Proof.Machine.execSqTailDb host q val s
  | .cqHeadDb host q val => Sys2Proof.Machine.execCqHeadDb host q val s
  | .sqEnable host q val => Sys2Proof.Machine.execSqEnable host q val s
  | .sqDisable host q val => Sys2Proof.Machine.execSqDisable host q val s
  | .sqReset host q val => Sys2Proof.Machine.execSqReset host q val s
  | .sqResetDone q => Sys2Proof.Machine.execSqResetDone q s
  | .cqEnable host q val => Sys2Proof.Machine.execCqEnable host q val s
  | .cqDisable host q val => Sys2Proof.Machine.execCqDisable host q val s
  | .pcieReset kind => Sys2Proof.Machine.execPcieReset kind s
  | .peRstnRise => Sys2Proof.Machine.execPeRstnRise s
  | .spiWrite addr data => Sys2Proof.Machine.execSpiWrite addr data s
  | .spiRead addr words => Sys2Proof.Machine.execSpiRead addr words s
  | .spiOtherInstruction instr => Sys2Proof.Machine.execSpiOtherInstruction instr s
  | .registerWrite host off wide val => Sys2Proof.Machine.execRegisterWrite host off wide val s
  | .badAccess host write off => Sys2Proof.Machine.execBadAccess host write off s
  | .badAccessAck host val => Sys2Proof.Machine.execBadAccessAck host val s
  | .rxRingDoorbell host ring val => Sys2Proof.Machine.execRxRingDoorbell host ring val s
  | .txRingDoorbell host ring val => Sys2Proof.Machine.execTxRingDoorbell host ring val s
  | .snap host val => Sys2Proof.Machine.execSnap host val s
  | .claim host t wide => Sys2Proof.Machine.execClaim host t wide s
  | .complete host t val => Sys2Proof.Machine.execComplete host t val s
  | .intPendSet host n val => Sys2Proof.Machine.execIntPendSet host n val s
  | .intPendClr host n val => Sys2Proof.Machine.execIntPendClr host n val s
  | .intMaskSet host n val => Sys2Proof.Machine.execIntMaskSet host n val s
  | .intMaskClr host n val => Sys2Proof.Machine.execIntMaskClr host n val s
  | .srcCfgWrite host src val => Sys2Proof.Machine.execSrcCfgWrite host src val s
  | .thresholdWrite host t val => Sys2Proof.Machine.execThresholdWrite host t val s
  | .intFaultAck host val => Sys2Proof.Machine.execIntFaultAck host val s
  | .msixVectorUnmask hold => Sys2Proof.Machine.execMsixVectorUnmask hold s
  | .flwCursorWrite host val => Sys2Proof.Machine.execFlwCursorWrite host val s
  | .flwData7Read host wide => Sys2Proof.Machine.execFlwData7Read host wide s
  | .pwrHoldWrite host val => Sys2Proof.Machine.execPwrHoldWrite host val s
  | .cycleBoundary => Sys2Proof.Machine.execCycleBoundary s
  | .surveyChamberStart => Sys2Proof.Machine.execSurveyChamberStart s
  | .mgFrameStart port => Sys2Proof.Machine.execMgFrameStart port s
  | .echoReqSend port => Sys2Proof.Machine.execEchoReqSend port s
  | .svHelloSend port => Sys2Proof.Machine.execSvHelloSend port s
  | .echoReqRx rx m t3 => Sys2Proof.Machine.execEchoReqRx rx m t3 s
  | .echoRespRx rx m => Sys2Proof.Machine.execEchoRespRx rx m s
  | .echoBlockEnd => Sys2Proof.Machine.execEchoBlockEnd s
  | .servoUpdate => Sys2Proof.Machine.execServoUpdate s
  | .timeSilenceExit => Sys2Proof.Machine.execTimeSilenceExit s
  | .calApplyRx rx m => Sys2Proof.Machine.execCalApplyRx rx m s
  | .calStart => Sys2Proof.Machine.execCalStart s
  | .calSlewEnd => Sys2Proof.Machine.execCalSlewEnd s
  | .glkPulse out leading frame => Sys2Proof.Machine.execGlkPulse out leading frame s
  | .pllUnlock => Sys2Proof.Machine.execPllUnlock s
  | .timeLockFault => Sys2Proof.Machine.execTimeLockFault s
  | .cabInputChange active level => Sys2Proof.Machine.execCabInputChange active level s
  | .svHelloRx rx m => Sys2Proof.Machine.execSvHelloRx rx m s
  | .settle => Sys2Proof.Machine.execSettle s
  | .svClaimRx rx m => Sys2Proof.Machine.execSvClaimRx rx m s
  | .svCountRx rx m => Sys2Proof.Machine.execSvCountRx rx m s
  | .svRecordRx rx m => Sys2Proof.Machine.execSvRecordRx rx m s
  | .svCommitRx rx m => Sys2Proof.Machine.execSvCommitRx rx m s
  | .numberingCutover => Sys2Proof.Machine.execNumberingCutover s
  | .countedTimeout => Sys2Proof.Machine.execCountedTimeout s
  | .noEnd => Sys2Proof.Machine.execNoEnd s
  | .svRestartRx rx round => Sys2Proof.Machine.execSvRestartRx rx round s
  | .svLinkRx rx m => Sys2Proof.Machine.execSvLinkRx rx m s
  | .memberLinkRegain port => Sys2Proof.Machine.execMemberLinkRegain port s
  | .linkLost port => Sys2Proof.Machine.execLinkLost port s
  | .jnEndTimer => Sys2Proof.Machine.execJnEndTimer s
  | .jnEndRx rx m => Sys2Proof.Machine.execJnEndRx rx m s
  | .jnOfferRx rx m => Sys2Proof.Machine.execJnOfferRx rx m s
  | .jnMergeRx rx m => Sys2Proof.Machine.execJnMergeRx rx m s
  | .shadowPlanDone => Sys2Proof.Machine.execShadowPlanDone s
  | .jnTrackRx rx m => Sys2Proof.Machine.execJnTrackRx rx m s
  | .jnReadyRx rx m => Sys2Proof.Machine.execJnReadyRx rx m s
  | .jnCutoverRx rx m => Sys2Proof.Machine.execJnCutoverRx rx m s
  | .jnBreakRx rx m => Sys2Proof.Machine.execJnBreakRx rx m s
  | .jnAbandonRx rx m => Sys2Proof.Machine.execJnAbandonRx rx m s
  | .cutover => Sys2Proof.Machine.execCutover s
  | .aliasEnd => Sys2Proof.Machine.execAliasEnd s
  | .chamberStart port start => Sys2Proof.Machine.execChamberStart port start s
  | .ttIngressSfd port sfd header => Sys2Proof.Machine.execTtIngressSfd port sfd header s
  | .ttMaxlenReached port bytes => Sys2Proof.Machine.execTtMaxlenReached port bytes s
  | .ttFrameEnd port bytes => Sys2Proof.Machine.execTtFrameEnd port bytes s
  | .sliceDeadline context => Sys2Proof.Machine.execSliceDeadline context s
  | .generalEgressStart port => Sys2Proof.Machine.execGeneralEgressStart port s
  | .ingressReopen port => Sys2Proof.Machine.execIngressReopen port s
  | .swap => Sys2Proof.Machine.execSwap s
  | .retiringRelease => Sys2Proof.Machine.execRetiringRelease s
  | .backboneGeneralRx port sfd bytes => Sys2Proof.Machine.execBackboneGeneralRx port sfd bytes s
  | .plRequestRx rx m => Sys2Proof.Machine.execPlRequestRx rx m s
  | .plResultRx rx m => Sys2Proof.Machine.execPlResultRx rx m s
  | .plChangeRx rx m => Sys2Proof.Machine.execPlChangeRx rx m s
  | .plDigestRx rx m => Sys2Proof.Machine.execPlDigestRx rx m s
  | .plTallyRx rx m => Sys2Proof.Machine.execPlTallyRx rx m s
  | .plContractRx rx m => Sys2Proof.Machine.execPlContractRx rx m s
  | .linkUp port => Sys2Proof.Machine.execLinkUp port s
  | .linkDown port => Sys2Proof.Machine.execLinkDown port s
  | .linkTrainTimeout port => Sys2Proof.Machine.execLinkTrainTimeout port s
  | .linkFailedEnd port => Sys2Proof.Machine.execLinkFailedEnd port s
  | .carRxFrame port sfd bytes => Sys2Proof.Machine.execCarRxFrame port sfd bytes s
  | .carEgressStart port => Sys2Proof.Machine.execCarEgressStart port s
  | .carFrameSent port sfd stall => Sys2Proof.Machine.execCarFrameSent port sfd stall s
  | .lpiExit port => Sys2Proof.Machine.execLpiExit port s
  | .gateEntry port => Sys2Proof.Machine.execGateEntry port s
  | .pauseExpiry port => Sys2Proof.Machine.execPauseExpiry port s
  | .pauseRefresh port => Sys2Proof.Machine.execPauseRefresh port s
  | .lldpSend port => Sys2Proof.Machine.execLldpSend port s
  | .asSyncSend port => Sys2Proof.Machine.execAsSyncSend port s
  | .asAnnounceSend port => Sys2Proof.Machine.execAsAnnounceSend port s
  | .asPdelaySend port => Sys2Proof.Machine.execAsPdelaySend port s
  | .asNoPeer port => Sys2Proof.Machine.execAsNoPeer port s
  | .txFrameRead ring descs => Sys2Proof.Machine.execTxFrameRead ring descs s
  | .ringUnbindDone tx ring => Sys2Proof.Machine.execRingUnbindDone tx ring s
  | .mdRxFrame seg bytes => Sys2Proof.Machine.execMdRxFrame seg bytes s
  | .mdTxStart seg => Sys2Proof.Machine.execMdTxStart seg s
  | .mdCollision seg late => Sys2Proof.Machine.execMdCollision seg late s
  | .mdBackoffEnd seg => Sys2Proof.Machine.execMdBackoffEnd seg s
  | .plcaBeaconSend seg => Sys2Proof.Machine.execPlcaBeaconSend seg s
  | .plcaBeaconRx seg => Sys2Proof.Machine.execPlcaBeaconRx seg s
  | .plcaOpportunity seg => Sys2Proof.Machine.execPlcaOpportunity seg s
  | .plcaBurstTimer seg => Sys2Proof.Machine.execPlcaBurstTimer seg s
  | .plcaFallback seg => Sys2Proof.Machine.execPlcaFallback seg s
  | .mdConfigApply seg => Sys2Proof.Machine.execMdConfigApply seg s
  | .canFrameRx ctl sof frame => Sys2Proof.Machine.execCanFrameRx ctl sof frame s
  | .canTxStart ctl won sof => Sys2Proof.Machine.execCanTxStart ctl won sof s
  | .canTxSuccess ctl => Sys2Proof.Machine.execCanTxSuccess ctl s
  | .canError ctl ack clash txInc rxInc => Sys2Proof.Machine.execCanError ctl ack clash txInc rxInc s
  | .canIntegrated ctl => Sys2Proof.Machine.execCanIntegrated ctl s
  | .canBusoffRecovery ctl => Sys2Proof.Machine.execCanBusoffRecovery ctl s
  | .canProtocolException ctl => Sys2Proof.Machine.execCanProtocolException ctl s
  | .canTxTarget ctl buffer => Sys2Proof.Machine.execCanTxTarget ctl buffer s
  | .canTxLate ctl buffer => Sys2Proof.Machine.execCanTxLate ctl buffer s
  | .canLockStale ctl buffer => Sys2Proof.Machine.execCanLockStale ctl buffer s
  | .canColumnStart ctl => Sys2Proof.Machine.execCanColumnStart ctl s
  | .canWindowEnd ctl => Sys2Proof.Machine.execCanWindowEnd ctl s
  | .canWakeMatch ctl frame => Sys2Proof.Machine.execCanWakeMatch ctl frame s
  | .canWakeErrors ctl => Sys2Proof.Machine.execCanWakeErrors ctl s
  | .heartbeatSend => Sys2Proof.Machine.execHeartbeatSend s
  | .heartbeatRx m => Sys2Proof.Machine.execHeartbeatRx m s
  | .laneFaultTimeout => Sys2Proof.Machine.execLaneFaultTimeout s
  | .cycleMirrorRx m => Sys2Proof.Machine.execCycleMirrorRx m s
  | .settingsRx m => Sys2Proof.Machine.execSettingsRx m s
  | .settingsAckRx tag status => Sys2Proof.Machine.execSettingsAckRx tag status s
  | .settingsTimeout => Sys2Proof.Machine.execSettingsTimeout s
  | .actlHigh => Sys2Proof.Machine.execActlHigh s
  | .actlLow => Sys2Proof.Machine.execActlLow s
  | .actlReadbackFault => Sys2Proof.Machine.execActlReadbackFault s
  | .twinStartWait => Sys2Proof.Machine.execTwinStartWait s
  | .takeoverBoundary => Sys2Proof.Machine.execTakeoverBoundary s
  | .takeoverClear => Sys2Proof.Machine.execTakeoverClear s
  | .handoverBoundary => Sys2Proof.Machine.execHandoverBoundary s
  | .handoverLapse => Sys2Proof.Machine.execHandoverLapse s
  | .revertTimer => Sys2Proof.Machine.execRevertTimer s
  | .fabricEccError fatal => Sys2Proof.Machine.execFabricEccError fatal s
  | .memEccError => Sys2Proof.Machine.execMemEccError s
  | .guardianSelfFail => Sys2Proof.Machine.execGuardianSelfFail s
  | .tempThreshold sensor above => Sys2Proof.Machine.execTempThreshold sensor above s
  | .watchdogFire => Sys2Proof.Machine.execWatchdogFire s
  | .watchdogReset core => Sys2Proof.Machine.execWatchdogReset core s
  | .flowstoneMramWrite ok addr => Sys2Proof.Machine.execFlowstoneMramWrite ok addr s
  | .repeatRewrite ok addr => Sys2Proof.Machine.execRepeatRewrite ok addr s
  | .recordClose => Sys2Proof.Machine.execRecordClose s
  | .stPlanDue entry => Sys2Proof.Machine.execStPlanDue entry s
  | .stSliceStart block => Sys2Proof.Machine.execStSliceStart block s
  | .stSliceEnd block misr lost ref => Sys2Proof.Machine.execStSliceEnd block misr lost ref s
  | .loopbackEnd block returned => Sys2Proof.Machine.execLoopbackEnd block returned s
  | .slProposeRx rx sleepId epoch => Sys2Proof.Machine.execSlProposeRx rx sleepId epoch s
  | .slVoteRx rx m => Sys2Proof.Machine.execSlVoteRx rx m s
  | .slInstantRx rx m => Sys2Proof.Machine.execSlInstantRx rx m s
  | .slVetoRx rx m => Sys2Proof.Machine.execSlVetoRx rx m s
  | .slCancelRx rx sleepId cause => Sys2Proof.Machine.execSlCancelRx rx sleepId cause s
  | .sleepInstant => Sys2Proof.Machine.execSleepInstant s
  | .deepParkEntry => Sys2Proof.Machine.execDeepParkEntry s
  | .domainSwitchDone domain => Sys2Proof.Machine.execDomainSwitchDone domain s
  | .lanternWake => Sys2Proof.Machine.execLanternWake s
  | .wakePulseDetect port => Sys2Proof.Machine.execWakePulseDetect port s
  | .powerOn => Sys2Proof.Machine.execPowerOn s
  | .brownOut rails => Sys2Proof.Machine.execBrownOut rails s
  | .rstnLow width => Sys2Proof.Machine.execRstnLow width s
  | .rstnRise => Sys2Proof.Machine.execRstnRise s
  | .railTimeout rails => Sys2Proof.Machine.execRailTimeout rails s
  | .railRetry => Sys2Proof.Machine.execRailRetry s
  | .resetRelease straps failed => Sys2Proof.Machine.execResetRelease straps failed s
  | .configSealWritten ok addr => Sys2Proof.Machine.execConfigSealWritten ok addr s
  | .powerLoss => Sys2Proof.Machine.execPowerLoss s
  | .pllLockRegained => Sys2Proof.Machine.execPllLockRegained s
  | .heartbeatSendTimeout => Sys2Proof.Machine.execHeartbeatSendTimeout s
  | .lanternChange level => Sys2Proof.Machine.execLanternChange level s
  | .parkEntryComplete => Sys2Proof.Machine.execParkEntryComplete s
  | .bootComplete => Sys2Proof.Machine.execBootComplete s
  | .jtagInstruction instr => Sys2Proof.Machine.execJtagInstruction instr s

end Sys2Proof.Machine
end

