-- ==== Sys2Proof/WellFormed.lean ====
section
/-! DEFINITION. Which commands the hardware can meet: every field fits the width that its message, register or entry gives it. -/

namespace Sys2Proof

/-- A number fits in a field of `b` bits. -/
def fits (b n : Nat) : Bool := decide (n < 2 ^ b)

/-- A signed quantity fits in `b` bits of two's complement. -/
def fitsInt (b : Nat) (x : Int) : Bool := decide (-(2 ^ (b - 1)) ≤ x) && decide (x < 2 ^ (b - 1))

/-- A position of a consist (R34). -/
def isPosition (p : Nat) : Bool := decide (1 ≤ p) && decide (p ≤ 63)

/-- A consist entry (R194). -/
def Entry.wellFormed (e : Entry) : Bool := isPosition e.position && fits 16 e.part && fits 32 e.delayA && fits 32 e.delayB

/-- Entries in position order from 1, at most 63 (R194). -/
def entriesOk (es : List Entry) : Bool :=
  decide (es.length ≤ 63) && es.all Entry.wellFormed && (es.map fun e => e.position) == (List.range es.length).map (· + 1)

/-- A consist record (R194). -/
def Record.wellFormed (r : Record) : Bool := fits 8 r.epoch && fits 3 r.headRule && fits 64 r.cutover && entriesOk r.entries

/-- What is heard of a management frame (R105): its header fields, and at most 1,528 bytes. -/
def MgRx.wellFormed (r : MgRx) : Bool :=
  fits 80 r.sfd && decide (64 ≤ r.length) && decide (r.length ≤ 1528) && fits 3 r.version && fits 2 r.line && fits 8 r.epoch
    && fits 8 r.hops

/-- ECHO_REQ (R136). -/
def EchoReq.wellFormed (m : EchoReq) : Bool := fits 8 m.port && fits 8 m.position

/-- ECHO_RESP (R136). -/
def EchoResp.wellFormed (m : EchoResp) : Bool :=
  fits 8 m.port && fits 8 m.position && fits 16 m.uncert && fits 80 m.t2 && fits 80 m.t3 && fitsInt 32 m.slew

/-- CAL_APPLY (R156). -/
def CalApply.wellFormed (m : CalApply) : Bool :=
  fits 64 m.start && fitsInt 64 m.change && fitsInt 64 m.baseOffset && fits 32 m.changeId

/-- SV_HELLO (R175). -/
def SvHello.wellFormed (m : SvHello) : Bool := fits 16 m.part && fits 8 m.state && fits 8 m.port && fits 8 m.position

/-- SV_CLAIM (R176). -/
def SvClaim.wellFormed (m : SvClaim) : Bool := fits 16 m.part && fits 8 m.units

/-- SV_COUNT (R177). -/
def SvCount.wellFormed (m : SvCount) : Bool := fits 8 m.next && fits 3 m.headRule && entriesOk m.entries

/-- SV_RECORD (R178). -/
def SvRecord.wellFormed (m : SvRecord) : Bool := m.record.wellFormed

/-- SV_COMMIT (R178). -/
def SvCommit.wellFormed (m : SvCommit) : Bool :=
  fits 8 m.epoch && fits 8 m.hyper && fits 64 m.cutover && fits 64 m.cycle && decide (0 < m.cycle) && decide (0 < m.hyper)
    && fits 16 m.squeeze

/-- SV_LINK (R178). -/
def SvLink.wellFormed (m : SvLink) : Bool := fits 8 m.position

/-- The common fields of a re-forming message (R209). -/
def JnHead.wellFormed (h : JnHead) : Bool := fits 8 h.epochOf && fits 8 h.posOf

/-- JN_END (R209). -/
def JnEnd.wellFormed (m : JnEnd) : Bool := m.head.wellFormed && fits 8 m.count

/-- JN_OFFER (R209). -/
def JnOffer.wellFormed (m : JnOffer) : Bool :=
  m.head.wellFormed && fits 8 m.units && fits 32 m.cplDelayA && fits 32 m.cplDelayB && entriesOk m.entries

/-- JN_MERGE (R209). -/
def JnMerge.wellFormed (m : JnMerge) : Bool := m.head.wellFormed && fits 8 m.units && m.record.wellFormed

/-- JN_TRACK and JN_READY (R209). -/
def JnTrack.wellFormed (m : JnTrack) : Bool :=
  m.head.wellFormed && fits 64 m.at_ && fitsInt 80 m.delta && fitsInt 32 m.slope && fits 16 m.ready

/-- JN_CUTOVER (R209). -/
def JnCutover.wellFormed (m : JnCutover) : Bool :=
  m.head.wellFormed && fits 8 m.cause && fits 8 m.epoch && fits 8 m.hyper && decide (0 < m.hyper) && fits 8 m.first && fits 8 m.last
    && fits 16 m.squeeze && fits 64 m.cutover && fits 64 m.cycle && decide (0 < m.cycle) && fits 64 m.leap
    && fitsInt 64 m.calOffset && fitsInt 64 m.calSlew

/-- JN_BREAK (R209). -/
def JnBreak.wellFormed (m : JnBreak) : Bool := m.head.wellFormed && fits 8 m.headPos && fits 8 m.tailPos

/-- JN_ABANDON (R209). -/
def JnAbandon.wellFormed (m : JnAbandon) : Bool := m.head.wellFormed

/-- A stream contract (R260, R262). -/
def Contract.wellFormed (c : Contract) : Bool :=
  fits 8 c.srcPos && fits 8 c.srcPort && fits 8 c.destCount && fits 16 c.maxlen && fits 16 c.fph && fits 32 c.deadline
    && decide (c.dests.length ≤ 8) && c.dests.all fun d => fits 8 d.1 && fits 8 d.2

/-- The canonical form of a stream context (R262). -/
def Canon.wellFormed (c : Canon) : Bool :=
  fits 8 c.context && c.contract.wellFormed && fits 16 c.serial && fits 8 c.cycOffset && fits 8 c.nSrc
    && decide (c.srcIndex.length ≤ 16) && c.srcIndex.all (fits 8)

/-- The operation of a planner message (R292). -/
def PlanOp.wellFormed : PlanOp → Bool
  | .declare c => c.wellFormed
  | .withdraw k => fits 8 k
  | .view _ => true
  | .repack => true
  | .sync => true

/-- PL_REQUEST (R292). -/
def PlRequest.wellFormed (m : PlRequest) : Bool := fits 8 m.reqPos && m.op.wellFormed && fits 16 m.reqId && fits 8 m.epoch

/-- PL_RESULT (R292). -/
def PlResult.wellFormed (m : PlResult) : Bool :=
  fits 8 m.reqPos && fits 8 m.op && fits 16 m.reqId && fits 8 m.outcome && fits 8 m.code && fits 8 m.codePos && fits 8 m.context
    && fits 16 m.serial && fits 64 m.swap

/-- PL_CHANGE (R292). -/
def PlChange.wellFormed (m : PlChange) : Bool :=
  fits 16 m.serial && m.op.wellFormed && fits 8 m.epoch && fits 64 m.swap && fits 8 m.target

/-- PL_DIGEST (R292). -/
def PlDigest.wellFormed (m : PlDigest) : Bool := fits 8 m.position && fits 8 m.epoch && fits 16 m.lastSerial

/-- PL_TALLY (R292). -/
def PlTally.wellFormed (m : PlTally) : Bool := fits 8 m.epoch && fits 8 m.agree && fits 16 m.lastSerial

/-- The item of a PL_CONTRACT (R292). -/
def PlItem.wellFormed : PlItem → Bool
  | .record c => c.wellFormed
  | .selection p _ => fits 8 p
  | .nothing => true

/-- PL_CONTRACT (R292). -/
def PlContract.wellFormed (m : PlContract) : Bool :=
  fits 8 m.epochOf && m.item.wellFormed && fits 16 m.lastSerial && fits 16 m.index && fits 16 m.total

/-- SL_VOTE (R513). -/
def SlVote.wellFormed (m : SlVote) : Bool := fits 8 m.position && fits 8 m.rank

/-- SL_INSTANT (R513). -/
def SlInstant.wellFormed (m : SlInstant) : Bool := fits 8 m.epoch && fits 64 m.instant

/-- SL_VETO (R513). -/
def SlVeto.wellFormed (m : SlVeto) : Bool := fits 8 m.position && fits 8 m.rank

/-- HEARTBEAT (R413). -/
def Heartbeat.wellFormed (m : Heartbeat) : Bool :=
  fits 16 m.part && fits 64 m.cycle && fits 64 m.handover && fits 8 m.epoch && fits 8 m.position

/-- CYCLE_MIRROR (R415): twelve streams, twelve addresses, twelve anchors. -/
def Mirror.wellFormed (m : Mirror) : Bool :=
  fits 64 m.cycle && fits 16 m.lastSerial && fits 8 m.epoch && decide (m.streams.length ≤ 12)
    && (m.streams.all fun x => fits 8 x.context) && decide (m.learned.length ≤ 12) && decide (m.glkAnchor.length ≤ 12)
    && (m.glkAnchor.all (fits 64)) && decide (m.canRow.length ≤ 4)

/-- SETTINGS (R417): the 64 bytes of a command and its input buffer. -/
def Settings.wellFormed (m : Settings) : Bool := m.command.length == 64 && decide (m.buffer.length ≤ 65536)

/-- A CAN frame (R381): data and identifiers as its format has them. -/
def CanFrame.wellFormed (f : CanFrame) : Bool :=
  (f.ide || fits 11 f.ident.toNat) && match f.format with
    | .classical => decide (f.data.length ≤ 8)
    | .fd => decide (f.data.length ≤ 64) && !f.rtr
    | .xl => decide (1 ≤ f.data.length) && decide (f.data.length ≤ 2048) && !f.ide && !f.rtr

/-- A frame as a port receives it whole (R110). -/
def frameOk (bs : List Byte) : Bool := decide (1 ≤ bs.length) && decide (bs.length ≤ 16383)

/-- A quad-SPI access: whole words within the 32-bit address space of R66. -/
def spiOk (addr bytes : Nat) : Bool := fits 32 addr && decide (bytes % 4 = 0) && decide (0 < bytes)

/-- An input buffer that a host supplies (R68). -/
def bufferOk : Option (List Byte) → Bool
  | some b => decide (b.length ≤ 262144)
  | none => true

/-- Every field of a command fits. -/
def Instr.wellFormed : Instr → Bool
  | .commandFetch (some e) => e.length == 64
  | .gateListSet _ b => bufferOk b
  | .canBufferSet _ b => bufferOk b
  | .canScheduleSet _ b => bufferOk b
  | .configCommit _ b => bufferOk b
  | .spiWrite a d => spiOk a d.length
  | .spiRead a n => spiOk a (4 * n)
  | .registerWrite _ off wide v => fits 20 off && decide (off % 4 = 0) && (!wide || decide (off % 8 = 0)) && (wide || fits 32 v.toNat)
  | .badAccess _ _ off => fits 20 off
  | .srcCfgWrite _ src _ => decide (src ≤ 640)
  | .echoReqRx r m t3 => r.wellFormed && m.wellFormed && fits 80 t3
  | .echoRespRx r m => r.wellFormed && m.wellFormed
  | .calApplyRx r m => r.wellFormed && m.wellFormed
  | .svHelloRx r m => r.wellFormed && m.wellFormed
  | .svClaimRx r m => r.wellFormed && m.wellFormed
  | .svCountRx r m => r.wellFormed && m.wellFormed
  | .svRecordRx r m => r.wellFormed && m.wellFormed
  | .svCommitRx r m => r.wellFormed && m.wellFormed
  | .svRestartRx r _ => r.wellFormed
  | .svLinkRx r m => r.wellFormed && m.wellFormed
  | .jnEndRx r m => r.wellFormed && m.wellFormed
  | .jnOfferRx r m => r.wellFormed && m.wellFormed
  | .jnMergeRx r m => r.wellFormed && m.wellFormed
  | .jnTrackRx r m => r.wellFormed && m.wellFormed
  | .jnReadyRx r m => r.wellFormed && m.wellFormed
  | .jnCutoverRx r m => r.wellFormed && m.wellFormed
  | .jnBreakRx r m => r.wellFormed && m.wellFormed
  | .jnAbandonRx r m => r.wellFormed && m.wellFormed
  | .chamberStart _ start => fits 32 start
  | .ttIngressSfd _ sfd h => fits 80 sfd && h.length == 18
  | .ttMaxlenReached _ bs => frameOk bs
  | .ttFrameEnd _ bs => frameOk bs
  | .backboneGeneralRx _ sfd bs => fits 80 sfd && frameOk bs
  | .plRequestRx r m => r.wellFormed && m.wellFormed
  | .plResultRx r m => r.wellFormed && m.wellFormed
  | .plChangeRx r m => r.wellFormed && m.wellFormed
  | .plDigestRx r m => r.wellFormed && m.wellFormed
  | .plTallyRx r m => r.wellFormed && m.wellFormed
  | .plContractRx r m => r.wellFormed && m.wellFormed
  | .carRxFrame _ sfd bs => fits 80 sfd && frameOk bs
  | .carFrameSent _ sfd _ => fits 80 sfd
  | .txFrameRead _ ds => decide (1 ≤ ds.length)
  | .mdRxFrame _ bs => frameOk bs
  | .canFrameRx _ _ f => f.wellFormed
  | .canError _ _ _ tx rx => tx % 8 == 0 && decide (rx % 8 ≤ 1)
  | .canWakeMatch _ f => f.wellFormed
  | .heartbeatRx m => m.wellFormed
  | .cycleMirrorRx m => m.wellFormed
  | .settingsRx m => m.wellFormed
  | .settingsAckRx _ st => fits 8 st
  | .loopbackEnd _ n => decide (n ≤ 64)
  | .slProposeRx r _ e => r.wellFormed && fits 8 e
  | .slVoteRx r m => r.wellFormed && m.wellFormed
  | .slInstantRx r m => r.wellFormed && m.wellFormed
  | .slVetoRx r m => r.wellFormed && m.wellFormed
  | .slCancelRx r _ c => r.wellFormed && fits 8 c
  | .nop _ | .nodeInfo _ | .fwVersion _ | .abort _ | .consistRead _ _ | .consistWait _ | .surveyRestart _ | .aliasStatus _
  | .timeGet _ | .calGet _ | .timeSet _ | .cycleSet _ | .glkConfig _ | .echoRead _ _ | .servoStatus _ | .streamDeclare _
  | .streamWithdraw _ | .streamRead _ _ | .planRepack _ | .planStatus _ | .viewSelect _ | .cameraBind _ | .vsuConfig _ | .vsuStatus _
  | .portConfig _ | .portStatus _ | .ucastFilterSet _ | .wakePatternSet _ | .ringSet _ | .portCounters _ _ | .asConfig _
  | .mdConfig _ | .mdStatus _ | .mdCounters _ _ | .canConfig _ | .canReadLock _ _ | .canReadRelease _ | .canTxAt _
  | .canWakeFilterSet _ | .canStatus _ | .twinStatus _ | .twinYield _ | .logRead _ _ | .logChallenge _ | .logClear _ _ _ | .stRun _
  | .stResult _ _ | .lcChallenge _ | .lcSet _ _ _ | .netSleep _ | .powerModeSet _ | .domainSet _ | .wakeConfig _ | .wakeReason _
  | .configStatus _ | .configRead _ _ | .commandFetch none | .commandTimeout _ | .nonceExpiry _ | .sqTailDb _ _ _ | .cqHeadDb _ _ _
  | .sqEnable _ _ _ | .sqDisable _ _ _ | .sqReset _ _ _ | .sqResetDone _ | .cqEnable _ _ _ | .cqDisable _ _ _ | .pcieReset _
  | .peRstnRise | .spiOtherInstruction _ | .badAccessAck _ _ | .rxRingDoorbell _ _ _ | .txRingDoorbell _ _ _ | .snap _ _
  | .claim _ _ _ | .complete _ _ _ | .intPendSet _ _ _ | .intPendClr _ _ _ | .intMaskSet _ _ _ | .intMaskClr _ _ _
  | .thresholdWrite _ _ _ | .intFaultAck _ _ | .msixVectorUnmask _ | .flwCursorWrite _ _ | .flwData7Read _ _ | .pwrHoldWrite _ _
  | .cycleBoundary | .surveyChamberStart | .mgFrameStart _ | .echoReqSend _ | .svHelloSend _ | .echoBlockEnd | .servoUpdate
  | .timeSilenceExit | .calStart | .calSlewEnd | .glkPulse _ _ _ | .pllUnlock | .timeLockFault | .cabInputChange _ _ | .settle
  | .numberingCutover | .countedTimeout | .noEnd | .memberLinkRegain _ | .linkLost _ | .jnEndTimer | .shadowPlanDone | .cutover
  | .aliasEnd | .sliceDeadline _ | .generalEgressStart _ | .ingressReopen _ | .swap | .retiringRelease | .linkUp _ | .linkDown _
  | .linkTrainTimeout _ | .linkFailedEnd _ | .carEgressStart _ | .lpiExit _ | .gateEntry _ | .pauseExpiry _ | .pauseRefresh _
  | .lldpSend _ | .asSyncSend _ | .asAnnounceSend _ | .asPdelaySend _ | .asNoPeer _ | .ringUnbindDone _ _ | .mdTxStart _
  | .mdCollision _ _ | .mdBackoffEnd _ | .plcaBeaconSend _ | .plcaBeaconRx _ | .plcaOpportunity _ | .plcaBurstTimer _
  | .plcaFallback _ | .mdConfigApply _ | .canTxStart _ _ _ | .canTxSuccess _ | .canIntegrated _
  | .canBusoffRecovery _ | .canProtocolException _ | .canTxTarget _ _ | .canTxLate _ _ | .canLockStale _ _ | .canColumnStart _
  | .canWindowEnd _ | .canWakeErrors _ | .heartbeatSend | .laneFaultTimeout | .settingsTimeout | .actlHigh | .actlLow
  | .actlReadbackFault | .twinStartWait | .takeoverBoundary | .takeoverClear | .handoverBoundary | .handoverLapse | .revertTimer
  | .fabricEccError _ | .memEccError | .guardianSelfFail | .tempThreshold _ _ | .watchdogFire | .watchdogReset _
  | .flowstoneMramWrite _ _ | .repeatRewrite _ _ | .recordClose | .stPlanDue _ | .stSliceStart _ | .stSliceEnd _ _ _ _
  | .sleepInstant | .deepParkEntry | .domainSwitchDone _ | .lanternWake | .wakePulseDetect _ | .powerOn | .brownOut _ | .rstnLow _
  | .rstnRise | .railTimeout _ | .railRetry | .resetRelease _ _ | .configSealWritten _ _ | .powerLoss | .pllLockRegained
  | .heartbeatSendTimeout | .lanternChange _ | .parkEntryComplete | .bootComplete | .jtagInstruction _ => true

end Sys2Proof
end

