-- ==== Sys2Proof/Safety.lean ====
section
/-! DEFINITION. The words in which the statements speak of the block: a command that completes, a command of a queue whose turn it
is, its completion, a frame that arrives whole, and what a step leaves alone. -/

namespace Sys2Proof.Machine

/-! ### Completing -/

/-- The command completes in this state, and the state after it has a property. -/
def Completes (i : Instr) (s : State) (p : State → Prop) : Prop := ∃ t, exec i s = .next t ∧ p t

/-- The command completes, and an effect on the state is all that it does before the router arbitrates (R443). -/
def Does (i : Instr) (s : State) (f : State → State) : Prop := exec i s = .next (after f s)

/-! ### Commands of the queues -/

/-- A command of an opcode is in flight under a tag, on a node that serves its queues, and its turn has come (R71, R74, R75). -/
def Ready (op : Nat) (tag : BitVec 8) (c : Cmd) (s : State) : Prop :=
  serving s = true ∧ cmdOf s tag = some c ∧ c.opcode = op ∧ mayStart s c = true

/-- The epoch check of R80 passes: 0xFF, or the epoch in force. -/
def EpochOk (c : Cmd) (s : State) : Prop := c.epoch = 0xFF ∨ c.epoch = s.survey.epoch

/-- A command without a buffer, with the parameter length of its row (R70, R84). -/
def Plain (op n : Nat) (tag : BitVec 8) (c : Cmd) (s : State) : Prop :=
  Ready op tag c s ∧ c.plen = n ∧ c.buffer = false ∧ EpochOk c s

/-- The buffer descriptor passes (R69, R70): aligned, of a permitted length, at least `least` bytes, inside the area of the SPI
host where it is that host's. -/
def DescOk (c : Cmd) (least : Nat) : Prop :=
  c.bufAddr % 4 = 0 ∧ c.bufLen % 4 = 0 ∧ 4 ≤ c.bufLen ∧ least ≤ c.bufLen ∧
  (c.sq < 6 → c.bufLen ≤ 0x80000) ∧
  (6 ≤ c.sq → 0x02000000 ≤ c.bufAddr ∧ c.bufAddr < 0x02040000 ∧ c.bufLen ≤ 0x40000 ∧ c.bufAddr + c.bufLen ≤ 0x02040000)

/-- A command with a buffer of at least `least` bytes, with the parameter length of its row (R69, R70, R84). -/
def Buffered (op n least : Nat) (tag : BitVec 8) (c : Cmd) (s : State) : Prop :=
  Ready op tag c s ∧ c.plen = n ∧ c.buffer = true ∧ EpochOk c s ∧ DescOk c least

/-- The unit of a block number is neither quarantined nor under test (R484, R489). -/
def BlockFree (s : State) (b : Nat) : Prop :=
  quarantined s b = false ∧ ∀ t ∈ s.test.tests, t.block = b → t.running = false

/-- The port code in parameter byte `n` lies in a range and names an instance that the part has, whose domain is on and whose block is
free (R8, R86, R489, R503). -/
def CodeOk (c : Cmd) (n lo hi : Nat) (s : State) : Prop :=
  lo ≤ pB c n ∧ pB c n < hi ∧ codeAbsent s (pB c n) = false ∧ codeOff s (pB c n) = false ∧
  ∀ b, blockOf (pB c n) = some b → BlockFree s b

/-- The unit is no standby and has heard no partner: its settings take effect at once (R91, R417). -/
def Solo (s : State) : Prop := s.twin.role ≠ .standby ∧ s.twin.partner = none

/-- A setting command starts, its setting is noted as in force, takes effect, and the command completes with OK (R417). -/
def settingTaken (c : Cmd) (buf : List Byte) (effect : State → State) (s : State) : State :=
  finish c 0 0 (effect (noteSetting (settingsOf c buf) (park c 0 0 s)))

/-- A setting command starts, its SETTINGS message leaves on the lane, and the partner's answer is awaited (R417). -/
def passedOn (c : Cmd) (buf : List Byte) (s : State) : State :=
  let x : Settings := { command := c.raw, buffer := buf }
  let s := emit (.lane (.settings x)) (park c 0 0 s)
  { s with twin := { s.twin with awaiting := s.twin.awaiting ++ [(some c.tag, x, s.clk.ps)] } }

/-- Output bytes are at the command's buffer (R69, R90): written to the PCIe host, or stored in the SPI buffer area. -/
def delivered (c : Cmd) (bytes : List Byte) (s : State) : State :=
  if c.sq < 6 then emit (.hostWrite c.bufAddr (bytes.take c.bufLen)) s
  else { s with ram := memWrite s.ram c.bufAddr (bytes.take c.bufLen) }

/-- The host's memory takes the output: it can be written, or the buffer is the SPI host's (R90). -/
def Takes (c : Cmd) (wr : Bool) : Prop := wr = true ∨ 6 ≤ c.sq

/-- The completion queue of a command has a free entry (R53, R79). -/
def Room (c : Cmd) (s : State) : Prop := (cqAt s c.cq).state = .running ∧ cqFull (cqAt s c.cq) = false ∧ lostCmd s c.tag = false

/-! ### Frames that arrive -/

/-- A management frame is received whole: the port works and is up, the length fits R105, FCS, version and HOPS are good, and
it came on its own line (R111). -/
def Whole (rx : MgRx) (s : State) : Prop :=
  running s = true ∧ inService s (8 + rx.port.idx) = true ∧ bbOpen s rx.port = true ∧ 64 ≤ rx.length ∧ rx.length ≤ 1528 ∧
  rx.fcs = .good ∧ rx.version = 1 ∧ rx.line = rx.port.line.code ∧ rx.hops < 127

/-- The state in which the node acts on a frame: its last byte is in, and FRAMES_RX has counted it (R111, R125). -/
def arrived (rx : MgRx) (s : State) : State := countBb rx.port 0x00 (toLt (rxEnd rx) s)

/-- The frame is the node's own to act on (R111 to R114): a neighbour's, or one to every node or to this unit that passes its window. -/
def ForMe (rx : MgRx) (s : State) : Prop :=
  rx.da = linkLocal ∨
  (rx.da = allNodes ∨ (ownPosition s rx.da = true ∧ macRank rx.da = ownRank s)) ∧ (mgWindow rx (arrived rx s)).2 = .accept

/-- The state in which the node acts on such a frame: its window has moved, and a frame to every node goes on away from the port of
its arrival (R111, R114, R117). -/
def handed (rx : MgRx) (m : MgMsg) (s : State) : State :=
  if rx.da = linkLocal then arrived rx s
  else
    let u := (mgWindow rx (arrived rx s)).1
    if rx.da = allNodes then
      queueMg (rx.port.side.other.ports.filter fun p => !numbered u || innerPort u p) (relayed rx m) u
    else u

/-- A re-forming message is the first copy of its serial number in this cycle, at a numbered unit (R172, R207). -/
def FirstCopy (h : JnHead) (m : MgMsg) (s : State) : Prop :=
  numbered s = true ∧ relayOnce { mtype := mgType m, origin := h.origin, round := h.serial } s = true

/-- The state in which the node acts on a re-forming message. -/
def handedJn (rx : MgRx) (h : JnHead) (m : MgMsg) (s : State) : State :=
  markRelayed { mtype := mgType m, origin := h.origin, round := h.serial } (handed rx m s)

/-! ### The event router -/

/-- A routed source may interrupt a target now (R443): it is pending, neither masked nor in service, and its priority is above the
target's threshold and above the priority of the target's stack top. -/
def Candidate (s : State) (t : Nat) (e : Nat × SrcCfg) : Prop :=
  e ∈ s.router.cfg ∧ e.2.target = t ∧ 0 < e.2.prio ∧ isPending s e.1 = true ∧ s.router.mask.getLsbD e.1 = false ∧
  s.router.service.getLsbD e.1 = false ∧ (targetAt s t).threshold < e.2.prio ∧ topPrio (targetAt s t) < e.2.prio

/-- The routing table lists routed sources of R436's numbers, in rising order (R439). -/
def RoutingOk (s : State) : Prop := tabWf {} s.router.cfg = true ∧ ∀ e ∈ s.router.cfg, 1 ≤ e.1 ∧ e.1 ≤ 640

/-- Every target's request says whether it has a candidate; a quarantined CMD block gives none (R443, R483). -/
def RequestsStand (s : State) : Prop :=
  ∀ t x, s.router.targets[t]? = some x → (x.request = true ↔ quarantined s 7 = false ∧ ∃ e, Candidate s t e)

/-! ### Several steps -/

/-- The state after a number of steps, where each of them answers a next state. -/
def steps : Nat → State → Option State
  | 0, s => some s
  | n + 1, s => match step s with
    | .next t => steps n t
    | _ => none

/-! ### Frames of the effects -/

/-- Two states agree in everything but the router's state and what was sent out. -/
def SameBut (s t : State) : Prop := { t with router := s.router, out := s.out } = s

end Sys2Proof.Machine
end

