-- ==== Sys2Proof/Certificates/Slice0/Obligations.lean ====
section
/-! DEFINITION. The statements for the provers: what each command of the block does, when it completes, and what every step keeps. -/

open Sys2Proof Sys2Proof.Machine

/-! ### The step -/

/-- A step with a command at the front of the queue is that command run on the queue's rest. -/
def Obligations.StepRunsTheFrontCommand : Prop :=
  ∀ (c : Instr) (rest : List Instr) (s : State), s.pending = c :: rest → step s = exec c (s.withPending rest)

/-- Every command completes in every state and leaves the queue alone, but for a production instruction of the JTAG port in FACTORY. So
commands run first in, first out: after n steps the first n of the queue are gone and the rest stands as it was. -/
def Obligations.CommandsRunFirstInFirstOut : Prop :=
  (∀ (i : Instr) (s : State), (∀ code, i = .jtagInstruction (.production code) → s.test.lc ≠ 1) →
    Completes i s fun t => t.pending = s.pending) ∧
  ∀ (n : Nat) (s t : State), steps n s = some t → t.pending = s.pending.drop n

/-- Without a command one period of FABCLK passes: a model's choice (log 17). Nothing else of the machine changes. -/
def Obligations.IdleIsOneTick : Prop :=
  ∀ s : State, s.pending = [] → ∃ t, step s = .next t ∧ t.pending = [] ∧ t.clk.ps = s.clk.ps + 1600 ∧
    (s.clk.running = false → t.clk.lt = s.clk.lt) ∧ s.clk.lt ≤ t.clk.lt ∧
    { t with clk := s.clk, router := s.router, out := s.out, pending := s.pending } = s

/-! ### Queries of group 0x01 to 0x0C without parameters -/

/-- The commands without parameters that only report: each completes with OK and the result of its row of R85 (R547). -/
def Obligations.QueriesReport : Prop :=
  ∀ (tag : BitVec 8) (c : Cmd) (s : State),
    (Plain 0x0101 0 tag c s → Does (.nop tag) s (finish c 0 0)) ∧
    (Plain 0x0102 0 tag c s → Does (.nodeInfo tag) s (finish c 0 (s.part.code + s.survey.position % 256 * 2 ^ 16
      + s.survey.epoch % 256 * 2 ^ 24 + (if s.twin.role = .standby then 1 else 0) * 2 ^ 32 + s.test.lc % 256 * 2 ^ 40))) ∧
    (Plain 0x0103 0 tag c s → Does (.fwVersion tag) s (finish c 0
      (Config.firmwareVersion.toNat + s.store.generation % 2 ^ 32 * 2 ^ 32))) ∧
    (Plain 0x0204 0 tag c s → Does (.aliasStatus tag) s (finish c 0 s.survey.aliasLeft)) ∧
    (Plain 0x0301 0 tag c s → Does (.timeGet tag) s (finish c 0 (s.clk.lt / 2 ^ 16))) ∧
    (Plain 0x0302 0 tag c s → Does (.calGet tag) s (finish c 0
      ((((s.clk.lt / 2 ^ 16 : Nat) : Int) + calOffsetNow s) % 2 ^ 64).toNat)) ∧
    (Plain 0x0307 0 tag c s → Does (.servoStatus tag) s (finish c 0 ((thetaNs s % 2 ^ 32).toNat + uncertNs s * 2 ^ 32
      + (if s.time.locked ∨ s.survey.position = 1 then 2 ^ 48 else 0) + (if s.time.silenced then 2 ^ 49 else 0)))) ∧
    (Plain 0x0405 0 tag c s → Does (.planStatus tag) s (finish c 0 (s.planner.digest.toNat + s.survey.epoch % 256 * 2 ^ 32
      + s.planner.agree % 256 * 2 ^ 40 + (if s.planner.silenced ∨ s.planner.silencedTwin then 2 ^ 48 else 0)))) ∧
    (Plain 0x0B05 0 tag c s → Does (.wakeReason tag) s (finish c 0 s.power.wakeLatch.toNat)) ∧
    (Plain 0x0C02 0 tag c s → BlockFree s 32 → Does (.configStatus tag) s (finish c 0
      ((if slotValid s 0 then 1 else 0) + (if slotValid s 1 then 2 else 0) + (if slotValid s 2 then 4 else 0)
        + s.store.slot.getD 0xF * 2 ^ 4 + (if s.store.splitSeen then 2 ^ 8 else 0) + s.store.cause % 16 * 2 ^ 12
        + s.store.generation * 2 ^ 32)))

/-- Each query that names an object completes with OK and its report: the twin, a segment, a port, a controller, a context. -/
def Obligations.ObjectQueriesReport : Prop :=
  ∀ (tag : BitVec 8) (c : Cmd) (s : State),
    (Plain 0x0801 0 tag c s → hasTwin s.part = true → powered s 12 = true →
      Does (.twinStatus tag) s (finish c 0 ((healthWord s).toNat + (partnerWord s).toNat * 2 ^ 32))) ∧
    (Plain 0x0602 1 tag c s → 0x20 ≤ pB c 0 → pB c 0 < 0x22 → BlockFree s (24 + (pB c 0 - 0x20)) →
      Does (.mdStatus tag) s (finish c 0
        (mdCode s (pB c 0 - 0x20) + tabGet 0 (mdAt s (pB c 0 - 0x20)).counters 6 % 2 ^ 16 * 2 ^ 16))) ∧
    (∀ n : Fin 12, Plain 0x0502 1 tag c s → pB c 0 = n.val → CodeOk c 0 0 0x0C s → Does (.portStatus tag) s (finish c 0
      (linkCode (carAt s n).link + (carAt s n).mode * 2 ^ 8 + min (recentViolations s (.car n)).length 65535 * 2 ^ 16))) ∧
    (∀ p : BPort, Plain 0x0502 1 tag c s → pB c 0 = p.code → BlockFree s (8 + p.idx) → Does (.portStatus tag) s (finish c 0
      ((if (bbAt s p).up then 2 else 1) + 1 * 2 ^ 8 + min (recentViolations s (.bb p)).length 65535 * 2 ^ 16))) ∧
    (Plain 0x0708 1 tag c s → CodeOk c 0 0x30 0x34 s → Does (.canStatus tag) s (finish c 0
      (min 255 (canAt s (pB c 0 - 0x30)).tec + min 255 (canAt s (pB c 0 - 0x30)).recv * 2 ^ 8
        + canCode (canAt s (pB c 0 - 0x30)).state * 2 ^ 16))) ∧
    (Plain 0x0411 1 tag c s → hasVsu s.part = true → powered s 11 = true → BlockFree s 30 →
      Does (.vsuStatus tag) s (finish c 0 (if (vsuAt s (pB c 0)).configured ∧ vsuRole s (pB c 0) then
        (vsuAt s (pB c 0)).age % 2 ^ 32 + (vsuAt s (pB c 0)).holds.toNat * 2 ^ 32 + (vsuAt s (pB c 0)).disorder.toNat * 2 ^ 48 else 0)))

/-- The reading commands write their output and complete with OK and the result of their row. -/
def Obligations.ReadingCommandsDeliver : Prop :=
  ∀ (tag : BitVec 8) (wr : Bool) (c : Cmd) (s : State), Takes c wr →
    (Buffered 0x0201 0 1024 tag c s →
      Does (.consistRead tag wr) s fun s => finish c 0 (s.survey.epoch + consistCount s * 2 ^ 8) (delivered c (consistBuffer s) s)) ∧
    (Buffered 0x0306 0 256 tag c s →
      Does (.echoRead tag wr) s fun s => finish c 0 (BPort.all.filter fun p => (bbAt s p).up).length
        (delivered c (padTo 256 0 ((BPort.all.filter fun p => (bbAt s p).up).flatMap (echoEntry s))) s)) ∧
    (Buffered 0x0403 1 64 tag c s →
      Does (.streamRead tag wr) s fun s => finish c 0 0 (delivered c (contextRecord s (pB c 0)) s)) ∧
    (∀ n : Fin 12, Buffered 0x0507 1 256 tag c s → pB c 0 = n.val → CodeOk c 0 0 0x0C s →
      Does (.portCounters tag wr) s fun s => finish c 0 0 (delivered c (counterBytes (carAt s n).counters 32) s)) ∧
    (∀ p : BPort, Buffered 0x0507 1 256 tag c s → pB c 0 = p.code → BlockFree s (8 + p.idx) →
      Does (.portCounters tag wr) s fun s => finish c 0 0 (delivered c (counterBytes (bbAt s p).counters 32) s)) ∧
    (Buffered 0x0603 1 128 tag c s → CodeOk c 0 0x20 0x22 s →
      Does (.mdCounters tag wr) s fun s => finish c 0 0 (delivered c (counterBytes (mdAt s (pB c 0 - 0x20)).counters 16) s)) ∧
    (Buffered 0x0A02 1 64 tag c s → pB c 0 ≤ 33 → (∀ t ∈ s.test.tests, t.block = pB c 0 → t.running = false) →
      Does (.stResult tag wr) s fun s => finish c 0 0
        (delivered c (resultBytes s.part.code (pB c 0) ((tabFind s.test.results (pB c 0)).getD {})) s)) ∧
    (Buffered 0x0901 8 4 tag c s → c.bufLen % 32 = 0 → (∀ t ∈ s.test.tests, t.block = 32 → t.running = false) →
      Does (.logRead tag wr) s fun s => finish c (if readLost s (BitVec.ofNat 32 (pF c 0 4)) then 1 else 0)
        (readResult s (readRecs s (BitVec.ofNat 32 (pF c 0 4)) (pF c 4 4) (c.bufLen / 32)))
        (delivered c ((readRecs s (BitVec.ofNat 32 (pF c 0 4)) (pF c 4 4) (c.bufLen / 32)).flatMap recBytes) s)) ∧
    (Buffered 0x0C03 1 4 tag c s → pB c 0 ≤ 2 → slotValid s (pB c 0) = true → BlockFree s 32 →
      Does (.configRead tag wr) s fun s => finish c (if c.bufLen < (readImage s (pB c 0)).length then 1 else 0)
        (min c.bufLen (readImage s (pB c 0)).length) (delivered c (readImage s (pB c 0)) s))

/-- Life-cycle words without effect on the train: a challenge issues a fresh nonce and keeps it with the time of issue. -/
def Obligations.ChallengesIssueANonce : Prop :=
  ∀ (tag : BitVec 8) (c : Cmd) (s : State),
    (Plain 0x0902 0 tag c s → Does (.logChallenge tag) s fun s => finish c 0 (drawn s).toNat
      (draw { s with cmdq := { s.cmdq with logNonce := some { value := drawn s, atPs := s.clk.ps } } })) ∧
    (Plain 0x0A03 0 tag c s → Does (.lcChallenge tag) s fun s => finish c 0 (drawn s).toNat
      (draw { s with cmdq := { s.cmdq with lcNonce := some { value := drawn s, atPs := s.clk.ps } } }))

/-! ### Settings -/

/-- A car port's settings, on a unit with no partner (R417): each takes effect, stays in force and completes with OK; a gate list waits
for its boundary, but where a later list for the port was accepted before it started it ends with ABORTED, cause 5 (R343; a command is
accepted when it is fetched: log 13). -/
def Obligations.CarPortSettingsTakeEffect : Prop :=
  ∀ (tag : BitVec 8) (c : Cmd) (n : Fin 12) (s : State), Solo s → pB c 0 = n.val → CodeOk c 0 0 0x0C s →
    (Plain 0x0503 10 tag c s → pB c 1 ≤ 31 → (bitOf (pB c 2) 0 = true → isGroup (macOf (slice c.inl 4 6)) = false) →
      Does (.ucastFilterSet tag) s (settingTaken c [] (setCar n fun p => { p with
        filters := tabSet {} p.filters (pB c 1) { enable := bitOf (pB c 2) 0, addr := macOf (slice c.inl 4 6) } }))) ∧
    (Plain 0x0504 20 tag c s → pB c 1 ≤ 15 →
      Does (.wakePatternSet tag) s (settingTaken c [] (setCar n fun p => { p with
        patterns := tabSet {} p.patterns (pB c 1) { check := BitVec.ofNat 16 (pF c 2 2), mask := BitVec.ofNat 128 (pF c 4 16) } }))) ∧
    (Plain 0x0508 2 tag c s →
      Does (.asConfig tag) s (settingTaken c [] fun s => setCar n (fun p => { p with
        asOn := bitOf (pB c 1) 0, asPeerPs := if p.asOn then p.asPeerPs else s.clk.ps,
        asNoPeer := p.asNoPeer && bitOf (pB c 1) 0 }) s)) ∧
    (∀ buf l, Buffered 0x0505 4 4 tag c s → inBuffer c buf s = some l → 1 ≤ pF c 2 2 → pF c 2 2 ≤ 1024 → 8 * pF c 2 2 ≤ l.length →
      (∀ g ∈ gateEntries l (pF c 2 2), g.interval ≠ 0) →
      let noted (s : State) : State := noteSetting (settingsOf c l) (park c 0 0 s)
      ((∀ e ∈ s.cmdq.inflight, e.opcode = 0x0505 → pB e 0 = pB c 0 → e.acc ≤ c.acc) → Does (.gateListSet tag buf) s fun s =>
        setCar n (fun p => { p with gateDue := some (some tag, gateCycle (noted s) c.atLt, gateEntries l (pF c 2 2)) }) (noted s)) ∧
      (∀ e ∈ s.cmdq.inflight, e.opcode = 0x0505 → pB e 0 = pB c 0 → c.acc < e.acc →
        Does (.gateListSet tag buf) s fun s => finish c 0x80 5 (noted s)))

/-- PORT_CONFIG on a unit with no partner: mode, flags and role are set; a change of mode or role drops what the port holds and trains the
link anew, or leaves it DISABLED in mode 0; LPI ends where EEE is off; without pause every pause ends; the port enters LPI where R347 lets
it; the ingress reopens with reason 3. -/
def Obligations.PortConfigSetsThePort : Prop :=
  ∀ (tag : BitVec 8) (c : Cmd) (n : Fin 12) (s : State), Solo s → pB c 0 = n.val → CodeOk c 0 0 0x0C s →
    Plain 0x0501 4 tag c s → pB c 1 ≤ 5 → (bitOf (pB c 2) 1 = true → pB c 1 ≠ 5) → pB c 3 ≤ 2 →
      Does (.portConfig tag) s (settingTaken c [] fun s =>
        let set := setCar n (fun p => { p with mode := pB c 1, flags := BitVec.ofNat 3 (pB c 2), role := pB c 3 }) s
        let linked :=
          if (carAt s n).mode ≠ pB c 1 ∨ (carAt s n).role ≠ pB c 3 then
            if pB c 1 = 0 then setLink n .disabled (clearPort n set) else trainLink n (clearPort n set)
          else if (carAt s n).link = .upLpi ∧ bitOf (pB c 2) 1 = false then setLink n .up set
          else set
        reopen (.car n) 3 (lpiCheck n (if bitOf (pB c 2) 2 then linked
          else setCar n (fun p => { p with pausedUntil := List.replicate 8 0, pausing := false }) linked)))

/-- The settings of the genlock outputs, the slice unit and the segments, on a unit with no partner. A change of a segment's parameters
waits for the end of a frame in progress, and a coordinator's for its next BEACON. -/
def Obligations.GenlockSliceAndSegmentSettings : Prop :=
  ∀ (tag : BitVec 8) (c : Cmd) (s : State), Solo s →
    (Plain 0x0305 16 tag c s → glkAbsent c s = false → (∀ e ∈ glkChecks c s, e = none) →
      Does (.glkConfig tag) s (settingTaken c [] (glkApply c))) ∧
    (Plain 0x0407 2 tag c s → 0x40 ≤ pB c 1 → pB c 1 < 0x40 + glkOuts s.part.code → pB c 1 < 0x4C → sourcedHere s (pB c 0) = true →
      Does (.cameraBind tag) s (settingTaken c [] (bindGlk (pB c 1 - 0x40) (pB c 0)))) ∧
    (Plain 0x0410 3 tag c s → hasVsu s.part = true → powered s 11 = true → BlockFree s 30 → (ctxAt s (pB c 0)).isSome = true →
      pB c 1 ≤ 2 → pB c 2 ≤ 1 →
      Does (.vsuConfig tag) s (settingTaken c [] (setVsu (pB c 0) fun v => { v with due := some (pB c 1, pB c 2), holds := 0, disorder := 0 }))) ∧
    (∀ g : Fin 2, Plain 0x0601 5 tag c s → pB c 0 = 0x20 + g.val → CodeOk c 0 0x20 0x22 s → pB c 1 ≤ 1 →
      (pB c 1 = 1 → pB c 2 ≤ 31 ∧ pB c 2 < pB c 3 ∧ pB c 3 ≤ 32) → (mdAt s g).due = none →
      ((mdAt s g).onPair = true → g.val < s.md.length →
        Does (.mdConfig tag) s fun s => setMd g (fun m => { m with due := some (some tag, pB c 1, pB c 2, pB c 3, pB c 4) })
          (noteSetting (settingsOf c []) (park c 0 0 s))) ∧
      ((mdAt s g).onPair = false → mdCoordinates (mdAt s g) = false → g.val < s.md.length →
        Does (.mdConfig tag) s fun s => mdTake g (pB c 1) (pB c 2) (pB c 3) (pB c 4) (finish c 0 0
          (setMd g (fun m => { m with due := some (some tag, pB c 1, pB c 2, pB c 3, pB c 4) })
            (noteSetting (settingsOf c []) (park c 0 0 s))))))

/-- The settings of a CAN controller, on a unit with no partner. Bit timing takes effect between frames, by way of OFF (R379, R384); a
matrix waits for its boundary (R399). That a frame is being received is a free value (log 76). -/
def Obligations.CanSettingsTakeEffect : Prop :=
  ∀ (tag : BitVec 8) (c : Cmd) (k : Fin 4) (s : State), Solo s → pB c 0 = 0x30 + k.val → CodeOk c 0 0x30 0x34 s →
    (Plain 0x0701 16 tag c s → txAtInFlight s k = false → bits (pB c 1) 6 2 = 0 →
      timingBad (pB c 1 % 4) (slice c.inl 4 12) = none → k.val < s.can.length →
      (canInFrame s k = false → Does (.canConfig tag) s (settingTaken c [] fun s => canRestart k (setCan k (fun x => { x with
        mode := pB c 1 % 4, listenOnly := bitOf (pB c 1) 7, timing := slice c.inl 4 12 })
          (setCanState k .off (setCan k (fun x => { x with due := none }) (draw s)))))) ∧
      (canInFrame s k = true → Does (.canConfig tag) s fun s =>
        setCan k (fun x => { x with due := some (some tag, BitVec.ofNat 8 (pB c 1), slice c.inl 4 12) })
          (draw (noteSetting (settingsOf c []) (park c 0 0 s))))) ∧
    (∀ buf d, Buffered 0x0702 2 4 tag c s → inBuffer c buf s = some d → pB c 1 ≤ 127 → 32 ≤ d.length →
      bufferBad (canAt s k).mode d = none → d.length = bufferLen d → (fld d 0 1 = 2 ∨ matrixNames (canAt s k) (pB c 1) = false) →
      (bufAt (canAt s k) (pB c 1)).txTag = none →
      Does (.canBufferSet tag buf) s (settingTaken c d (setBuf k (pB c 1) fun b => bufferOf b d))) ∧
    (∀ buf d, Buffered 0x0706 1 4 tag c s → inBuffer c buf s = some d → d.length = 8192 → matrixBad (canAt s k) s.time.l d = none →
      Does (.canScheduleSet tag buf) s fun s =>
        setCan k (fun x => { x with matrixDue := some (some tag,
            s.time.cycles + (max (if boundary s (cycleOf s c.atLt) = c.atLt then cycleOf s c.atLt + 2 else cycleOf s c.atLt + 3)
              (cycleNow s + 1) - cycleNow s),
            if matrixCells d = [] then none else some { bc := fld d 6 2, cells := matrixCells d }) })
          (noteSetting (settingsOf c d) (park c 0 0 s))) ∧
    (Plain 0x0707 20 tag c s → k.val < 2 → pB c 1 ≤ 7 → pB c 2 ≤ 8 → pB c 3 < 8 → pF c 4 4 < 2 ^ 29 →
      Does (.canWakeFilterSet tag) s (settingTaken c [] (setCan k fun x => { x with wake := tabSet {} x.wake (pB c 1) {
        dlc := pB c 2, flags := BitVec.ofNat 8 (pB c 3), ident := w32 (pF c 4 4), mask := w32 (pF c 8 4),
        dataMask := BitVec.ofNat 64 (pF c 12 8) } })))

/-- R417: an active unit that hears its partner passes a setting across the lane before it takes effect; it waits for the answer. -/
def Obligations.SettingsPassTheLaneFirst : Prop :=
  ∀ (tag : BitVec 8) (c : Cmd) (s : State) (buf : Option (List Byte)) (l : List Byte), isActive s = true → laneUp s = true →
    inBuffer c buf s = some l →
    (Ready 0x0305 tag c s → firstFail (glkConfigChecks false c none s) = none → Does (.glkConfig tag) s (passedOn c [])) ∧
    (Ready 0x0407 tag c s → firstFail (cameraBindChecks false c none s) = none → Does (.cameraBind tag) s (passedOn c [])) ∧
    (Ready 0x0410 tag c s → firstFail (vsuConfigChecks false c none s) = none → Does (.vsuConfig tag) s (passedOn c [])) ∧
    (Ready 0x0501 tag c s → firstFail (portConfigChecks false c none s) = none → Does (.portConfig tag) s (passedOn c [])) ∧
    (Ready 0x0503 tag c s → firstFail (ucastFilterChecks false c none s) = none → Does (.ucastFilterSet tag) s (passedOn c [])) ∧
    (Ready 0x0504 tag c s → firstFail (wakePatternChecks false c none s) = none → Does (.wakePatternSet tag) s (passedOn c [])) ∧
    (Ready 0x0505 tag c s → firstFail (gateListChecks false c (some l) s) = none → Does (.gateListSet tag buf) s (passedOn c l)) ∧
    (Ready 0x0508 tag c s → firstFail (asConfigChecks false c none s) = none → Does (.asConfig tag) s (passedOn c [])) ∧
    (Ready 0x0601 tag c s → firstFail (mdConfigChecks false c none s) = none → Does (.mdConfig tag) s (passedOn c [])) ∧
    (Ready 0x0701 tag c s → firstFail (canConfigChecks false c none s) = none → Does (.canConfig tag) s (passedOn c [])) ∧
    (Ready 0x0702 tag c s → firstFail (canBufferChecks false c (some l) s) = none → Does (.canBufferSet tag buf) s (passedOn c l)) ∧
    (Ready 0x0706 tag c s → firstFail (canScheduleChecks false c (some l) s) = none → Does (.canScheduleSet tag buf) s (passedOn c l)) ∧
    (Ready 0x0707 tag c s → firstFail (canWakeChecks false c none s) = none → Does (.canWakeFilterSet tag) s (passedOn c []))

/-! ### Commands of CAN, rings, planner, time, power, store and test -/

/-- The receive records and timed frames of a CAN controller: a read delivers the record and locks the buffer, a release unlocks it or
takes the oldest frame of a FIFO, and CAN_TX_AT waits for its target, or ends where its limit is already past (R390 to R395). -/
def Obligations.CanRecordsAndTimedFrames : Prop :=
  ∀ (tag : BitVec 8) (c : Cmd) (k : Fin 4) (s : State), s.twin.role ≠ .standby → pB c 0 = 0x30 + k.val → CodeOk c 0 0x30 0x34 s →
    (∀ wr, Buffered 0x0703 2 80 tag c s → Takes c wr → readable (canAt s k) (pB c 1) = true →
      Does (.canReadLock tag wr) s fun s => finish c 0 (readOf (canAt s k) (pB c 1)).2
        (afterRead k (pB c 1) (delivered c (fitRecord c.bufLen (readOf (canAt s k) (pB c 1)).1) s))) ∧
    (Plain 0x0704 2 tag c s → pB c 1 ≤ 127 → (bufAt (canAt s k) (pB c 1)).kind = 1 →
      Does (.canReadRelease tag) s fun s => finish c 0 0 (setBuf k (pB c 1) unlockBuf s)) ∧
    (Plain 0x0704 2 tag c s → 0x80 ≤ pB c 1 → pB c 1 ≤ 0x83 →
      Does (.canReadRelease tag) s fun s => finish c 0 0
        (setCan k (fun x => { x with fifos := x.fifos.modify (pB c 1 - 0x80) (List.drop 1) }) s)) ∧
    (Plain 0x0705 20 tag c s → pB c 1 ≤ 127 → (canAt s k).state ≠ .listenOnly → (canAt s k).listenOnly = false →
      matrixNames (canAt s k) (pB c 1) = false → (bufAt (canAt s k) (pB c 1)).kind = 2 →
      (bufAt (canAt s k) (pB c 1)).suspended = false → (bufAt (canAt s k) (pB c 1)).pending = false →
      (bufAt (canAt s k) (pB c 1)).txTag = none → pF c 16 4 ≤ 1000000000 → txTarget c ≤ c.atLt / 65536 + 60000000000 →
      (c.atLt / 65536 ≤ txTarget c + pF c 16 4 →
        Does (.canTxAt tag) s fun s => setBuf k (pB c 1) (fun b => { b with
          txTag := some tag, target := txTarget c, late := pF c 16 4, pending := decide (txTarget c ≤ s.clk.lt / 65536),
          attempted := false, kept := none }) (park c k (pB c 1) s)) ∧
      (txTarget c + pF c 16 4 < c.atLt / 65536 →
        Does (.canTxAt tag) s fun s => finish c 0x70 ((s.clk.ps - c.atPs) / 10 ^ 9) s))

/-- RING_SET binds a free ring to a port or the host station at once, answers at once for a ring that is not bound, and else waits until
the ring is quiet (R350). -/
def Obligations.RingSetBindsAndUnbinds : Prop :=
  ∀ (tag : BitVec 8) (c : Cmd) (s : State), s.twin.role ≠ .standby → Plain 0x0506 16 tag c s → pB c 0 ≤ 63 → pB c 1 ≤ 1 →
    (pB c 2 = 0x80 ∨ CodeOk c 2 0 0x0C s) →
    let g := if pB c 1 = 0 then rxRing s (pB c 0) else txRing s (pB c 0)
    (∀ n, 4 ≤ n → n ≤ 12 → pF c 4 2 = 2 ^ n → ringBaseOk c n = true → g.port = none → boundAt s (pB c 1) (pB c 2) = none →
      Does (.ringSet tag) s fun s => finish c 0 0 (setBound (pB c 1) (pB c 2) (some (pB c 0)) (setRing (pB c 1) (pB c 0) (fun _ => {
        port := some (pB c 2), host := sqHost c.sq, log2 := n, base := pF c 8 8, head := 0, tail := 0, unbinding := none }) s))) ∧
    (pF c 4 2 = 0 → g.port = none → Does (.ringSet tag) s (finish c 0 0)) ∧
    (pF c 4 2 = 0 → g.port ≠ none → g.host = sqHost c.sq →
      Does (.ringSet tag) s fun s => park c (pB c 0) (pB c 1)
        (setRing (pB c 1) (pB c 0) (fun g => { g with unbinding := some c.tag }) s))

/-- The planner's commands at a numbered unit that is no standby: each starts, and its request goes to position 1 under the next request
number (R264). -/
def Obligations.PlannerCommandsAskPositionOne : Prop :=
  ∀ (tag : BitVec 8) (c : Cmd) (s : State), s.twin.role ≠ .standby → s.survey.position ≠ 0 →
    (Plain 0x0401 32 tag c s → factorySafe s = false → contractBad c.inl = none →
      Does (.streamDeclare tag) s fun s => sendRequest (some tag) (.declare (contractOf c.inl)) c.epoch (park c 0 0 s)) ∧
    (Plain 0x0402 1 tag c s →
      Does (.streamWithdraw tag) s fun s => sendRequest (some tag) (.withdraw (pB c 0)) c.epoch (park c 0 0 s)) ∧
    (Plain 0x0404 0 tag c s → (∀ e ∈ s.cmdq.inflight, e.opcode = 0x0404 → e.tag ≠ tag → c.acc ≤ e.acc ∧ e.phase = .fetched) →
      Does (.planRepack tag) s fun s => sendRequest (some tag) .repack c.epoch (park c 0 0 s)) ∧
    (Plain 0x0406 32 tag c s → factorySafe s = false →
      Does (.viewSelect tag) s fun s => sendRequest (some tag) (.view (BitVec.ofNat 256 (pF c 0 32))) c.epoch (park c 0 0 s))

/-- The commands of time, consist and handover: CYCLE_SET stores its values for the next cut-over, CONSIST_WAIT answers once the epoch
differs and waits before, SURVEY_RESTART floods a round one higher and gives up the position, TIME_SET floods its CAL_APPLY and holds it,
TWIN_YIELD announces a handover. -/
def Obligations.TimeConsistAndHandoverCommands : Prop :=
  ∀ (tag : BitVec 8) (c : Cmd) (s : State),
    (Plain 0x0304 12 tag c s → s.survey.position = 1 → (s.test.lc = 2 ∨ s.test.lc = 4) →
      0x186A00000 ≤ pF c 0 8 → pF c 0 8 ≤ 0xF42400000 → 1 ≤ pB c 8 → pB c 8 ≤ 128 → 40 ≤ pF c 10 2 → pF c 10 2 ≤ 400 →
      Does (.cycleSet tag) s fun s => finish c 0 0 { s with time := { s.time with pendingCycle := some (pF c 0 8, pB c 8, pF c 10 2) } }) ∧
    (Plain 0x0202 1 tag c s → s.survey.epoch ≠ pB c 0 → Does (.consistWait tag) s (finish c 0 s.survey.epoch)) ∧
    (Plain 0x0202 1 tag c s → s.survey.epoch = pB c 0 → Does (.consistWait tag) s (park c (pB c 0) 0)) ∧
    (Plain 0x0203 0 tag c s → s.twin.role ≠ .standby → s.survey.position ≠ 0 → (s.test.lc = 2 ∨ s.test.lc = 4) →
      Does (.surveyRestart tag) s fun s => giveUp (s.survey.round + 1) (floodMg (.svRestart (s.survey.round + 1)) (finish c 0 0 s))) ∧
    (Plain 0x0203 0 tag c s → s.twin.role ≠ .standby → s.survey.position = 0 → surveying s = true → (s.test.lc = 2 ∨ s.test.lc = 4) →
      Does (.surveyRestart tag) s fun s => enterRound (s.survey.round + 1) (finish c 0 0 s)) ∧
    (Plain 0x0303 16 tag c s → s.survey.position = 1 → pB c 0 ≤ 1 → (∃ p : BPort, mgReaches s p = true) →
      Does (.timeSet tag) s fun s =>
        setCmd tag (fun x => { x with phase := .committed, ref := (timeSetApply c s).changeId, ref2 := (timeSetApply c s).start })
          (floodMg (.calApply (timeSetApply c s)) { s with time := { s.time with
            changeId := (timeSetApply c s).changeId, calPending := s.time.calPending ++ [timeSetApply c s] } })) ∧
    (Plain 0x0802 0 tag c s → hasTwin s.part = true → powered s 12 = true → s.twin.role = .active → mayHandOver s = true →
      Does (.twinYield tag) s fun s => let s := park c 0 0 s
        { s with twin := { s.twin with
          handover := true, handoverCycle := handoverAt s, handoverAck := false, yieldTag := some tag, reverting := false } })

/-- The power commands: NET_SLEEP proposes at position 1, POWER_MODE_SET runs, dozes or parks the node, DOMAIN_SET starts a switch that
DOMAIN_SWITCH_DONE commits, WAKE_CONFIG sets WAKE_EN (R503 to R512). -/
def Obligations.PowerCommands : Prop :=
  ∀ (tag : BitVec 8) (c : Cmd) (s : State),
    (Plain 0x0B01 0 tag c s → s.survey.position = 1 → s.twin.role = .active → s.reform.phase = 0 →
      (∀ e ∈ s.cmdq.inflight, e.opcode = 0x0B01 → e.tag ≠ tag → c.acc ≤ e.acc ∧ e.phase = .fetched) →
      Does (.netSleep tag) s fun s => let s := park c 0 0 s
        { s with power := { s.power with
          sleepId := s.power.sleepId + 1, sleepTag := some tag, proposeDue := true, vetoDue := false, vetoPos := 0, votes := [], voted := none } }) ∧
    (Plain 0x0B02 1 tag c s → pB c 0 = 0 → Does (.powerModeSet tag) s fun s => finish c 0 0 (dozeExit [] s)) ∧
    (Plain 0x0B02 1 tag c s → pB c 0 = 1 → modeRefused 1 s = false → Does (.powerModeSet tag) s fun s => finish c 0 0 (enterDoze s)) ∧
    (Plain 0x0B02 1 tag c s → pB c 0 = 2 ∨ pB c 0 = 3 → modeRefused (pB c 0) s = false →
      Does (.powerModeSet tag) s fun s => parkEntry (pB c 0) 2 (finish c 0 0 s)) ∧
    (Plain 0x0B03 2 tag c s → 7 ≤ pB c 0 → pB c 0 ≤ 12 → (populated s.part).getLsbD (pB c 0) = true → pB c 1 ≤ 1 →
      domainRefused (pB c 0) (pB c 1 == 1) s = false →
      Does (.domainSet tag) s fun s => let s := { s with power := { s.power with switching := some (pB c 0, pB c 1 == 1, some tag) } }
        park c (pB c 0) (if pB c 1 = 1 then 1 else 0) s) ∧
    (∀ (d : Fin 14) (on : Bool), serving s = true → s.power.switching = some (d.val, on, none) →
      Does (.domainSwitchDone d) s fun s => switchDomain d on { s with power := { s.power with switching := none } }) ∧
    (Plain 0x0B04 4 tag c s → pF c 0 4 % 2 = 1 → pF c 0 4 ≤ 2047 →
      Does (.wakeConfig tag) s fun s => finish c 0 0 (readyTrack { s with power := { s.power with wakeEn := BitVec.ofNat 32 (pF c 0 4) } }))

/-- The commands of log, store, test and life-cycle, once authorised and checked: LOG_CLEAR leaves the one record of the clearing, ST_RUN
starts its test, LC_SET changes the life-cycle state, CONFIG_COMMIT unseals its slot and CONFIG_SEAL_WRITTEN seals it. -/
def Obligations.LogStoreAndTestCommands : Prop :=
  ∀ (tag : BitVec 8) (c : Cmd) (s : State),
    (∀ addr, Ready 0x0903 tag c s → c.plen = 16 → c.buffer = false → EpochOk c s → s.test.lc ≠ 5 → BlockFree s 32 →
      authFail s s.cmdq.logNonce 0x09 0x03 [] (slice c.inl 0 16) = none → s.flow.degraded = false →
      Does (.logClear tag true addr) s fun s => clearLog true addr c { s with cmdq := { s.cmdq with logNonce := none } }) ∧
    (∀ k, Plain 0x0A01 2 tag c s → pB c 0 < 34 → blockPresent s.part (pB c 0) = true → s.test.lc ≠ 3 → s.test.lc ≠ 5 →
      blockOff s (pB c 0) = false → (∀ t ∈ s.test.tests, t.block = pB c 0 → t.running = false) → kindOf (pB c 1) = some k →
      admits (pB c 0) k = true → (∀ e ∈ s.cmdq.inflight, e.opcode = 0x0A01 → e.tag ≠ tag → c.acc ≤ e.acc ∧ e.phase = .fetched) →
      Does (.stRun tag) s fun s => let s := park c 0 0 s
        { s with test := { s.test with tests := s.test.tests ++ [newTest (pB c 0) k 0 (some tag) s] } }) ∧
    (∀ addr stored, Plain 0x0A04 32 tag c s → transition s.test.lc (pB c 0) = some (false, stored) →
      (s.test.lc = 2 → pB c 0 = 3 → s.store.slot.isSome = true ∧ s.store.imageKeys.isSome = true) → slice c.inl 16 16 = zeros 16 →
      Does (.lcSet tag true addr) s fun s => finish c 0 (pB c 0) (lcEffect (pB c 0) stored s)) ∧
    (∀ addr stored, Plain 0x0A04 32 tag c s → transition s.test.lc (pB c 0) = some (true, stored) →
      authFail s s.cmdq.lcNonce 0x0A 0x04 ([BitVec.ofNat 8 (pB c 0)] ++ zeros 3) (slice c.inl 16 16) = none →
      Does (.lcSet tag true addr) s fun s => finish c 0 (pB c 0)
        (lcEffect (pB c 0) stored { s with cmdq := { s.cmdq with lcNonce := none } })) ∧
    (∀ buf bs, Buffered 0x0C01 0 4 tag c s → inBuffer c buf s = some bs → s.test.lc ≠ 5 → BlockFree s 32 →
      (∀ e ∈ commitChecks s bs, e = none) → (∀ e ∈ s.cmdq.inflight, e.opcode = 0x0C01 → e.tag ≠ tag → c.acc ≤ e.acc ∧ e.phase = .fetched) →
      Does (.configCommit tag buf) s fun s => park c (targetSlot s) 0 { s with store := { s.store with
        slots := s.store.slots.modify (targetSlot s) fun y => { y with sealRec := none }
        commit := some (tag, targetSlot s, bs.take (imageLen bs)) } }) ∧
    (∀ (addr : Word) (i : Nat) (bs : List Byte), serving s = true → s.store.commit = some (tag, i, bs) → cmdOf s tag = some c →
      c.phase = .started → EpochOk c s →
      Does (.configSealWritten true addr) s fun s => finish c 0 (imageGen bs + i * 2 ^ 32)
        (logEvent 0xF4 srcNode (byte1 i ++ le 4 (imageGen bs)) { s with store := { s.store with
          commit := none, slots := s.store.slots.modify i fun _ => { image := bs, sealRec := some (sealFor bs), readable := true } } }))

/-! ### Queues, doorbells and completions -/

/-- R60 and R64, on a node in service: bits [10:0] of a doorbell are the new index; one in range moves the tail, or frees entries; one of
2^n or more, a tail that moves past entries not yet fetched, or a head past the tail is ignored and stops the submission queue with ERR 2,
or leaves the completion queue running with ERR 2; a doorbell of a queue that is disabled or being reset does nothing. -/
def Obligations.DoorbellsMoveTheQueue : Prop :=
  ∀ (h : HostId) (val : Word) (s : State), s.store.service = true →
    (∀ q : Fin 8, sqHost q = h → (sqAt s q).state ≠ .disabled → (sqAt s q).state ≠ .resetting →
      let x := sqAt s q
      let i := bits val.toNat 10 0
      let n := 2 ^ x.log2
      (i < n → (x.tail + n - x.head) % n ≤ (i + n - x.head) % n → Does (.sqTailDb h q val) s (setSq q fun x => { x with tail := i })) ∧
      ((n ≤ i ∨ (i + n - x.head) % n < (x.tail + n - x.head) % n) →
        Does (.sqTailDb h q val) s (setSq q fun x => { x with state := .stopped, err := 2 }))) ∧
    (∀ q : Fin 8, (sqAt s q).state = .disabled ∨ (sqAt s q).state = .resetting → Does (.sqTailDb h q val) s id) ∧
    (∀ m : Fin 4, (cqAt s m).state = .disabled → Does (.cqHeadDb h m val) s id) ∧
    (∀ m : Fin 4, cqHost m = h → (cqAt s m).state ≠ .disabled →
      let x := cqAt s m
      let i := bits val.toNat 10 0
      let n := 2 ^ x.log2
      (i < n → (i + n - x.head) % n ≤ (x.tail + n - x.head) % n → x.held = [] → m.val < s.cmdq.cqs.length →
        Does (.cqHeadDb h m val) s (setCq m fun x => { x with
          head := i, held := [], state := if (x.tail + 1) % n = i then .held else .running })) ∧
      ((n ≤ i ∨ (x.tail + n - x.head) % n < (i + n - x.head) % n) → Does (.cqHeadDb h m val) s (setCq m fun x => { x with err := 2 })))

/-- Enabling and disabling queues: ENABLE is taken only where the queue may run as it is configured, and zeroes head and tail; a
completion queue is not disabled while a completion is owed to it (R56 to R63). -/
def Obligations.QueuesAreEnabledAndDisabled : Prop :=
  ∀ (h : HostId) (val : Word) (s : State), s.store.service = true →
    (∀ q : Fin 8, sqHost q = h → (sqAt s q).state ≠ .resetting →
      ((sqAt s q).enable = false → sqEnableOk q (setSq q (sqFields val) s) = true →
        Does (.sqEnable h q val) s fun s => setSq q (fun x => { x with enable := true, state := .running, head := 0, tail := 0 })
          (setSq q (sqFields val) s)) ∧
      ((sqAt s q).enable = false → sqEnableOk q (setSq q (sqFields val) s) = false →
        Does (.sqEnable h q val) s fun s => setSq q (fun x => { x with err := 1 }) (setSq q (sqFields val) s)) ∧
      ((sqAt s q).enable = true → Does (.sqDisable h q val) s (setSq q fun x => { x with enable := false, state := .disabled })) ∧
      ((sqAt s q).enable = false → Does (.sqDisable h q val) s (setSq q (sqFields val))) ∧
      (q.val < s.cmdq.sqs.length → Does (.sqReset h q val) s fun s =>
        let s := setSq q (fun x => { x with state := .resetting, enable := false, resetCause := 2 }) s
        (s.cmdq.inflight.filter fun c => c.sq == q.val && beforeCommit c).foldl (stopCmd 2) s)) ∧
    (∀ q : Fin 8, (sqAt s q).state = .resetting → (∀ c ∈ s.cmdq.inflight, c.sq ≠ q.val) →
      Does (.sqResetDone q) s (setSq q fun x => { x with state := .disabled, head := 0, tail := 0, err := 0 })) ∧
    (∀ m : Fin 4, cqHost m = h → (cqAt s m).enable = false → 4 ≤ val.toNat % 16 → val.toNat % 16 ≤ 10 → quarantined s 7 = false →
      m.val < s.cmdq.cqs.length →
      Does (.cqEnable h m val) s fun s =>
        let s := setCq m (fun x => { x with log2 := val.toNat % 16, enable := true, state := .running, head := 0, tail := 0, phase := true }) s
        if m = 3 then { s with ram := memZero s.ram 0x01020000 0x4000 } else s) ∧
    (∀ m : Fin 4, cqHost m = h → (cqAt s m).enable = true →
      (owes s m = false → Does (.cqDisable h m val) s (setCq m fun x => { x with enable := false, state := .disabled })) ∧
      (owes s m = true → Does (.cqDisable h m val) s (setCq m fun x => { x with err := 1 })))

/-- A fetch takes the entry of the queue whose turn it is: into flight where its tag is free and in its host's range, else the queue stops
with ERR 3 for a tag in flight, 4 for a tag out of range and 5 for an entry that cannot be read (R71 to R73, R90). A GATE_LIST_SET taken
for a port whose list still waits for its boundary ends the command that loaded that list (R343; accepted when fetched: log 13). -/
def Obligations.FetchingTakesOneEntry : Prop :=
  ∀ (entry : Option (List Byte)) (q : Nat) (s : State), serving s = true → nextQueue s = some q →
    (∀ c ∈ s.cmdq.inflight, c.opcode ∈ opcodes) →
    (∀ e, ringEntry q entry s = some e → cmdOf s (BitVec.ofNat 8 (fld e 2 1)) = none → goodTag q (fld e 2 2) = true → fld e 0 2 ∈ opcodes →
      let c := { parseCmd s.cmdq.accepted q s.clk.ps s.clk.lt e with cq := (sqAt s q).cq }
      let taken (s : State) : State :=
        let moved := setSq q (fun x => { x with head := (x.head + 1) % 2 ^ x.log2 }) s
        { moved with cmdq := { moved.cmdq with
          turn := (q + 1) % 8, accepted := s.cmdq.accepted + 1, inflight := s.cmdq.inflight ++ [c] } }
      (fld e 0 2 ≠ 0x0505 ∨ (carAt s (pB c 0)).gateDue = none → Does (.commandFetch entry) s taken) ∧
      (∀ old l, fld e 0 2 = 0x0505 → (carAt s (pB c 0)).gateDue = some (some old, l) →
        Does (.commandFetch entry) s fun s =>
          finishTag old 0x80 5 (setCar (pB c 0) (fun p => { p with gateDue := none }) (taken s)))) ∧
    (∀ e, ringEntry q entry s = some e → (cmdOf s (BitVec.ofNat 8 (fld e 2 1))).isSome = true →
      Does (.commandFetch entry) s fun s => setSq q (fun x => { x with state := .stopped, err := 3 })
        { s with cmdq := { s.cmdq with turn := (q + 1) % 8 } }) ∧
    (∀ e, ringEntry q entry s = some e → cmdOf s (BitVec.ofNat 8 (fld e 2 1)) = none → goodTag q (fld e 2 2) = false →
      Does (.commandFetch entry) s fun s => setSq q (fun x => { x with state := .stopped, err := 4 })
        { s with cmdq := { s.cmdq with turn := (q + 1) % 8 } }) ∧
    (ringEntry q entry s = none →
      Does (.commandFetch entry) s fun s => setSq q (fun x => { x with state := .stopped, err := 5 })
        { s with cmdq := { s.cmdq with turn := (q + 1) % 8 } })

/-- A completion of the PCIe host, on a queue with a free entry: 16 bytes reach the ring at the tail, the tail moves on and the phase
turns at the ring's end, and the command is no longer in flight. The layout of the entry is R77's; NOP stands for every command. What a
completion leaves alone: every state but the queues', what is sent and the memory, and of the memory all but the 16 bytes of an entry of
the SPI host. -/
def Obligations.ACompletionIsWrittenAndCounted : Prop :=
  (∀ (tag : BitVec 8) (c : Cmd) (s : State), Plain 0x0101 0 tag c s → c.cq < 3 → Room c s → c.cq < s.cmdq.cqs.length →
    let q := cqAt s c.cq
    let next := (q.tail + 1) % 2 ^ q.log2
    Completes (.nop tag) s fun t =>
      (∃ bytes, Out.hostWrite (q.base.toNat + 16 * q.tail) bytes ∈ t.out ∧ bytes.length = 16 ∧
        bytes.getD 0 0 = tag ∧ bytes.getD 1 0 = 0 ∧ fld bytes 2 2 = 0 ∧ fld bytes 4 8 = 0 ∧ fld bytes 12 2 = (sqAt s c.sq).head % 2048 ∧
        fld bytes 14 1 = c.sq % 8 ∧ (fld bytes 15 1 = if q.phase then 1 else 0)) ∧
      (cqAt t c.cq).tail = next ∧ (cqAt t c.cq).phase = (if next = 0 then !q.phase else q.phase) ∧
      (∀ x ∈ t.cmdq.inflight, x.tag ≠ tag) ∧ (∀ x ∈ s.cmdq.inflight, x.tag ≠ tag → x ∈ t.cmdq.inflight)) ∧
  ∀ (c : Cmd) (status result : Nat) (s : State), s.ram.wf = true →
    let t := finish c status result s
    { t with cmdq := s.cmdq, ram := s.ram, out := s.out } = s ∧ t.ram.wf = true ∧ (c.cq < 3 → t.ram = s.ram) ∧
    ∀ a, (a < 0x01020000 + 16 * (cqAt s c.cq).tail ∨ 0x01020000 + 16 * (cqAt s c.cq).tail + 16 ≤ a) → memByte t.ram a = memByte s.ram a

/-- A command that fails a check completes with the first failure in the order of R9 and does nothing else: a wrong length before a stale
epoch, a stale epoch before a refusal. CYCLE_SET stands for every command. -/
def Obligations.TheFirstFailedCheckDecides : Prop :=
  ∀ (tag : BitVec 8) (c : Cmd) (s : State), Ready 0x0304 tag c s →
    ((c.plen ≠ 12 ∨ c.buffer = true) → Does (.cycleSet tag) s (finish c 0x12 12)) ∧
    (c.plen = 12 → c.buffer = false → c.epoch ≠ 0xFF → c.epoch ≠ s.survey.epoch →
      Does (.cycleSet tag) s (finish c 0x50 s.survey.epoch)) ∧
    (c.plen = 12 → c.buffer = false → EpochOk c s → s.survey.position ≠ 1 → Does (.cycleSet tag) s (finish c 0x20 (refusedResult s))) ∧
    (c.plen = 12 → c.buffer = false → EpochOk c s → s.survey.position = 1 → s.test.lc ≠ 2 → s.test.lc ≠ 4 →
      Does (.cycleSet tag) s (finish c 0x20 (refusedResult s))) ∧
    (c.plen = 12 → c.buffer = false → EpochOk c s → s.survey.position = 1 → (s.test.lc = 2 ∨ s.test.lc = 4) →
      (pF c 0 8 < 0x186A00000 ∨ 0xF42400000 < pF c 0 8) → Does (.cycleSet tag) s (finish c 0x11 16))

/-- A command that an earlier one on its object, or a FENCE, holds back does nothing yet (R74, R75); nor does one of another opcode, or of
a tag not in flight. CONSIST_WAIT stands for every command. -/
def Obligations.ACommandWaitsItsTurn : Prop :=
  ∀ (tag : BitVec 8) (s : State), (∀ c, cmdOf s tag = some c → c.opcode ≠ 0x0202 ∨ mayStart s c = false) →
    Does (.consistWait tag) s id

/-! ### Stopping -/

/-- ABORT stops a command before its commit point, of either host, and reports 1; a command past it, or none, is left alone and 0 reported
(R85, R87). -/
def Obligations.AbortStopsOneCommand : Prop :=
  ∀ (tag : BitVec 8) (c : Cmd) (s : State), Plain 0x0104 1 tag c s →
    (∀ x, cmdOf s (BitVec.ofNat 8 (pB c 0)) = some x → x.tag ≠ tag → (x.phase = .fetched ∨ x.phase = .started) →
      Does (.abort tag) s fun s => finish c 0 1 (stopCmd 1 s x)) ∧
    (∀ x, cmdOf s (BitVec.ofNat 8 (pB c 0)) = some x → x.phase ≠ .fetched → x.phase ≠ .started → Does (.abort tag) s (finish c 0 0)) ∧
    (cmdOf s (BitVec.ofNat 8 (pB c 0)) = none → Does (.abort tag) s (finish c 0 0))

/-- The expiries: a waiting command, CONSIST_WAIT here, ends with TIMEOUT and the ms it has waited; a nonce lapses 10,000 ms after its
issue (R82, R85). -/
def Obligations.WaitsAndNoncesExpire : Prop :=
  ∀ (tag : BitVec 8) (s : State),
    (∀ c ms, serving s = true → cmdOf s tag = some c → c.opcode = 0x0202 → c.timeout = ms → ms ≠ 0 → c.phase = .started →
      s.power.sleepTag ≠ some tag → s.twin.yieldTag ≠ some tag →
      Does (.commandTimeout tag) s fun s =>
        finish c 0x70 (((toPs (c.atPs + ms * 10 ^ 9) s).clk.ps - c.atPs) / 10 ^ 9)
          (dropNode tag 1 (dropUnits tag (toPs (c.atPs + ms * 10 ^ 9) s)))) ∧
    (∀ n, s.cmdq.lcNonce = some n → Does (.nonceExpiry true) s fun s =>
      { toPs (n.atPs + 10000 * 10 ^ 9) s with cmdq := { s.cmdq with lcNonce := none } }) ∧
    (∀ n, s.cmdq.logNonce = some n → Does (.nonceExpiry false) s fun s =>
      { toPs (n.atPs + 10000 * 10 ^ 9) s with cmdq := { s.cmdq with logNonce := none } })

/-- A PCIe reset on a running node stops the commands of SQ0 to SQ5; with none of them in flight it clears SCRATCH_PCIE, leaves
SCRATCH_SPI, disables CQ0 to CQ2 (what else they then read is the model's choice, log 71) and empties T4 to T13, their thresholds and
their routing. Before reset release only the level counts; PE_RSTn rising lets the endpoint train once it is released (R89, R449, R558,
R588). -/
def Obligations.PcieResetClearsTheHostsPart : Prop :=
  ∀ (kind : PcieReset) (s : State),
    (s.clk.running = true → Does (.pcieReset kind) s fun s =>
      let s := { s with regs := { s.regs with perstLow := s.regs.perstLow || kind == .perst } }
      let s := [0, 1, 2, 3, 4, 5].foldl (fun s q => resetSq q 4 s) (resetTargets (dropCqs s))
      { s with regs := { s.regs with scratchPcie := 0, pcieUp := s.regs.pcieUp && kind != .perst } }) ∧
    (s.clk.running = true → (∀ c ∈ s.cmdq.inflight, 6 ≤ c.sq) → Completes (.pcieReset kind) s fun t =>
      t.regs.scratchPcie = 0 ∧ t.regs.scratchSpi = s.regs.scratchSpi ∧
      (∀ m, m < 3 → m < s.cmdq.cqs.length → (cqAt t m).enable = false ∧ (cqAt t m).state = .disabled) ∧
      (∀ i (x : Target), 4 ≤ i → i < 14 → t.router.targets[i]? = some x → x.stack = [] ∧ x.threshold = 0) ∧
      (∀ e ∈ t.router.cfg, e.2.target < 4 ∨ 14 ≤ e.2.target)) ∧
    (s.clk.running = false → Does (.pcieReset kind) s fun s =>
      { s with regs := { s.regs with perstLow := s.regs.perstLow || kind == .perst } }) ∧
    Does .peRstnRise s fun s => { s with regs := { s.regs with
      perstLow := false, pcieUp := s.regs.pcieUp || (s.regs.perstLow && s.store.released && s.clk.running) } }

/-! ### The event router -/

/-- Writes at the pending and mask words change exactly the bits that are written 1 of the sources that the writing host may change: the
pending bits of edge sources only (R438, R440). Every other bit of both, and service and routing, stay. -/
def Obligations.PendingAndMaskWords : Prop :=
  ∀ (h : HostId) (n : Fin 21) (val : Word) (s : State), s.store.service = true →
    let mine (id : Nat) : Bool := decide (id / 32 = n) && val.getLsbD (id % 32) && bitsOf h s id
    let edge (id : Nat) : Bool := mine id && isEdge s.part id
    (Completes (.intPendSet h n val) s fun t =>
      (∀ id, id ≤ 640 → t.router.pend.getLsbD id = (s.router.pend.getLsbD id || edge id)) ∧
      t.router.mask = s.router.mask ∧ t.router.service = s.router.service ∧ t.router.cfg = s.router.cfg) ∧
    (Completes (.intPendClr h n val) s fun t =>
      (∀ id, id ≤ 640 → t.router.pend.getLsbD id = (s.router.pend.getLsbD id && !edge id)) ∧
      t.router.mask = s.router.mask ∧ t.router.service = s.router.service ∧ t.router.cfg = s.router.cfg) ∧
    (Completes (.intMaskSet h n val) s fun t =>
      (∀ id, id ≤ 640 → t.router.mask.getLsbD id = (s.router.mask.getLsbD id || mine id)) ∧
      t.router.pend = s.router.pend ∧ t.router.service = s.router.service ∧ t.router.cfg = s.router.cfg) ∧
    (Completes (.intMaskClr h n val) s fun t =>
      (∀ id, id ≤ 640 → t.router.mask.getLsbD id = (s.router.mask.getLsbD id && !mine id)) ∧
      t.router.pend = s.router.pend ∧ t.router.service = s.router.service ∧ t.router.cfg = s.router.cfg)

/-- A host routes a source only where R440 accepts the write: the source is unrouted, the firmware's or its own, and the new target its
own or the priority 0. An accepted write with priority 0 unroutes; any other changes nothing. The table stays in order. -/
def Obligations.RoutingObeysOwnership : Prop :=
  ∀ (h : HostId) (id : Nat) (val : Word) (s : State), s.store.service = true → RoutingOk s → 1 ≤ id → id ≤ 640 →
    let prio := bits val.toNat 3 0
    let target := bits val.toNat 11 8
    let mayTake := unrouted s id = true ∨ targetHost (srcCfg s id).target = none ∨ targetHost (srcCfg s id).target = some h
    (mayTake → prio ≠ 0 → targetHost target = some h → Completes (.srcCfgWrite h id val) s fun t =>
      srcCfg t id = { prio := prio, target := target } ∧ (∀ j, j ≠ id → srcCfg t j = srcCfg s j) ∧ RoutingOk t) ∧
    (mayTake → prio = 0 → Completes (.srcCfgWrite h id val) s fun t =>
      unrouted t id = true ∧ (∀ j, j ≠ id → srcCfg t j = srcCfg s j) ∧ RoutingOk t) ∧
    (¬ mayTake ∨ (prio ≠ 0 ∧ targetHost target ≠ some h) → Does (.srcCfgWrite h id val) s fun u => u)

/-- THRESHOLD acts on the writing host's own targets only (R440); INT_FAULT_ACK clears VALID and OVERRUN (R451); a masked MSI-X vector of
the PCIe host is unmasked, and the message it held back goes out if the request still stands (R447). -/
def Obligations.ThresholdAckAndUnmask : Prop :=
  ∀ (h : HostId) (t : Fin 16) (val : Word) (s : State), s.store.service = true →
    (targetHost t = some h → Does (.thresholdWrite h t val) s (setTarget t fun x => { x with threshold := bits val.toNat 3 0 })) ∧
    (targetHost t ≠ some h → Does (.thresholdWrite h t val) s id) ∧
    (val.getLsbD 0 = true → Does (.intFaultAck h val) s fun s =>
      { s with router := { s.router with faultValid := false, faultOverrun := false } }) ∧
    (val.getLsbD 0 = false → Does (.intFaultAck h val) s id) ∧
    (∀ v : Fin 10, v.val < s.router.msix.length → s.router.functionMask = false → s.router.d0 = true → s.router.busMaster = true →
      s.router.pba.getLsbD v = true → request s (v + 4) = true →
      Completes (.msixVectorUnmask (.vector v)) s fun t =>
        Out.msix v ∈ t.out ∧ t.router.pba.getLsbD v = false ∧ (t.router.msix.getD v {}).masked = false)

/-- R444. CLAIM by a 32-bit read of the target's own host returns the best candidate: none has a higher priority, and none of the same
priority a lower ID (R443). The winner goes on the stack and into service, and an edge source loses its pending bit. Without a candidate,
from another's target or inside a wider access CLAIM reads 0 and nothing changes. COMPLETE with the ID at the top of the stack pops it and
ends its service; any other ID, or an empty stack, leaves the stack, asserts INT_ORDER_FAULT, source 1, and is counted, and recorded where
no fault stands, else marked as an overrun. The last two clauses say once more where the two commands complete: with a candidate that no
other precedes, and with the ID of the stack's top. -/
def Obligations.ClaimAndComplete : Prop :=
  ∀ (h : HostId) (t : Fin 16) (val : Word) (s : State), t.val < s.router.targets.length →
    (quarantined s 7 = false →
      ((∃ e, Candidate s t e) → targetHost t = some h → RoutingOk s →
        ∃ e, Candidate s t e ∧ (∀ e', Candidate s t e' → e'.2.prio ≤ e.2.prio) ∧
          (∀ e', Candidate s t e' → e'.2.prio = e.2.prio → e.1 ≤ e'.1) ∧
          Completes (.claim h t false) s fun u =>
            Out.readData [BitVec.ofNat 32 e.1] ∈ u.out ∧ (targetAt u t).stack = (e.1, e.2.prio) :: (targetAt s t).stack ∧
            u.router.service.getLsbD e.1 = true ∧ (isEdge s.part e.1 = true → u.router.pend.getLsbD e.1 = false) ∧
            (∀ j, j ≠ e.1 → u.router.pend.getLsbD j = s.router.pend.getLsbD j ∧ u.router.service.getLsbD j = s.router.service.getLsbD j)) ∧
      ((∀ e, ¬ Candidate s t e) → Does (.claim h t false) s (emit (.readData [0]))) ∧
      (targetHost t ≠ some h → Does (.claim h t false) s (emit (.readData [0]))) ∧
      Does (.claim h t true) s (emit (.readData [w32 (targetAt s t).threshold, 0]))) ∧
    (s.store.service = true → targetHost t = some h →
      let given := bits val.toNat 9 0
      (∀ p rest, (targetAt s t).stack = (given, p) :: rest → Completes (.complete h t val) s fun u =>
        (targetAt u t).stack = rest ∧ u.router.service.getLsbD given = false ∧
        (∀ j, j ≠ given → u.router.service.getLsbD j = s.router.service.getLsbD j) ∧ u.router.faultCount = s.router.faultCount) ∧
      (∀ expected, topId (targetAt s t) = expected → ((targetAt s t).stack = [] ∨ expected ≠ given) →
        Completes (.complete h t val) s fun u =>
          (targetAt u t).stack = (targetAt s t).stack ∧ u.router.service = s.router.service ∧ u.router.pend.getLsbD 1 = true ∧
          u.router.faultCount = min (s.router.faultCount + 1) (2 ^ 32 - 1) ∧
          (s.router.faultValid = false → u.router.faultValid = true ∧ u.router.faultTarget = t ∧ u.router.faultExpected = expected ∧
            u.router.faultGiven = given) ∧
          (s.router.faultValid = true → u.router.faultOverrun = true ∧ u.router.faultGiven = s.router.faultGiven))) ∧
    (targetHost t = some h →
      (∀ e : Nat × SrcCfg, RoutingOk s → quarantined s 7 = false → Candidate s t e →
        (∀ e', Candidate s t e' → e'.2.prio < e.2.prio ∨ (e'.2.prio = e.2.prio ∧ e.1 ≤ e'.1)) →
        Completes (.claim h t false) s fun u =>
          Out.readData [w32 e.1] ∈ u.out ∧ (targetAt u t).stack = (e.1, e.2.prio) :: (targetAt s t).stack ∧
          u.router.service.getLsbD e.1 = true) ∧
      (∀ (p : Nat) (rest : List (Nat × Nat)), s.store.service = true →
        (targetAt s t).stack = (bits val.toNat 9 0, p) :: rest →
        Completes (.complete h t val) s fun u =>
          (targetAt u t).stack = rest ∧ u.router.service = s.router.service &&& ~~~(BitVec.twoPow 641 (bits val.toNat 9 0))))

/-- R443 at every step: after any step that answers a next state, each target's request is true exactly while it has a candidate. A target
that the state does not list has none. -/
def Obligations.EveryStepKeepsTheRequests : Prop := ∀ s t : State, step s = .next t → RequestsStand t

/-! ### The register window and the SPI port -/

/-- R558: each host writes its own scratch register and no other, both read back, power-on and RSTn clear both, at once or at the wake of
a parked unit, and a PCIe reset clears that of the PCIe host alone. More accesses where the window answers: one of another size or
alignment changes nothing but BAD_ACCESS_INFO, which keeps the first and marks a further one, and a refused read answers 0; the
acknowledgement clears it; the time snapshot is taken. -/
def Obligations.WindowAccessesAct : Prop :=
  ∀ (h : HostId) (val : BitVec 64) (off : Nat) (s : State),
    (windowUp s = true →
      Does (.registerWrite .pcie 0x10 false val) s (updRegs fun r => { r with scratchPcie := val.setWidth 32 }) ∧
      Does (.registerWrite .spi 0x14 false val) s (updRegs fun r => { r with scratchSpi := val.setWidth 32 }) ∧
      Does (.registerWrite .spi 0x10 false val) s id ∧ Does (.registerWrite .pcie 0x14 false val) s id ∧
      (off % 4 ≠ 0 → off < 0x400000 → s.regs.badValid = false → Completes (.registerWrite h off false val) s fun t =>
        t.regs = { s.regs with badValid := true, badWrite := true, badSpi := h == .spi, badOff := off } ∧ t.router.pend.getLsbD 9 = true ∧
        t.ram = s.ram ∧ t.cmdq = s.cmdq) ∧
      (s.regs.badValid = true → ∀ write, Completes (.badAccess h write off) s fun t =>
        t.regs = { s.regs with badOverrun := true } ∧ t.router.pend.getLsbD 9 = true ∧ (write = false → Out.readData [0] ∈ t.out)) ∧
      (Does (.badAccessAck h 1) s (updRegs fun r => { r with badValid := false, badOverrun := false })) ∧
      (s.store.service = true → Does (.snap h 1) s fun s => { s with time := { s.time with
        snapValid := true, snapCalValid := s.time.calValid, snapCount := s.time.snapCount + 1, snapLt := s.clk.lt,
        snapCal := BitVec.ofNat 64 (calNs s), snapPhase := phaseOf s s.clk.lt / 65536 } })) ∧
    readReg s 0x10 = s.regs.scratchPcie ∧ readReg s 0x14 = s.regs.scratchSpi ∧
    (s.power.mode = .unpowered → Completes .powerOn s fun t => t.regs.scratchPcie = 0 ∧ t.regs.scratchSpi = 0) ∧
    (∀ width, 1000 ≤ width → s.store.rstLow = false → s.power.mode = .run ∨ s.power.mode = .doze ∨ s.power.mode = .parking →
      Completes (.rstnLow width) s fun t => t.regs.scratchPcie = 0 ∧ t.regs.scratchSpi = 0) ∧
    (s.store.rstLow = true → s.power.mode = .park ∨ s.power.mode = .deepPark →
      Completes .rstnRise s fun t => t.regs.scratchPcie = 0 ∧ t.regs.scratchSpi = 0) ∧
    (s.clk.running = true → ∀ kind, Completes (.pcieReset kind) s fun t =>
      t.regs.scratchPcie = 0 ∧ t.regs.scratchSpi = s.regs.scratchSpi)

/-- The Flowstone window (R472): writing 0xFFFFFFFF to FLW_CURSOR loads the newest record, a SEQ that is held that record, one after the
newest the newest and one before the oldest the oldest, both marked as moved; reading FLW_DATA7 answers its word and loads the record
after it where there is one. -/
def Obligations.FlowstoneWindowLoadsRecords : Prop :=
  ∀ (h : HostId) (val : Word) (r o n : LogRec) (s : State), windowUp s = true → windowOpen s = true →
    oldest s.flow = some o → newest s.flow = some n →
    Does (.flwCursorWrite h 0xFFFFFFFF) s (updFlow (loadRec n false)) ∧
    (val ≠ 0xFFFFFFFF → r.seq = val → s.flow.log.find? (fun x => x.seq == val) = some r →
      Does (.flwCursorWrite h val) s (updFlow (loadRec r false))) ∧
    (val ≠ 0xFFFFFFFF → (∀ x ∈ s.flow.log, x.seq ≠ val) → (val - n.seq).toNat < 2 ^ 31 →
      Does (.flwCursorWrite h val) s (updFlow (loadRec n true))) ∧
    (val ≠ 0xFFFFFFFF → (∀ x ∈ s.flow.log, x.seq ≠ val) → 2 ^ 31 ≤ (val - n.seq).toNat → (o.seq - val).toNat < 2 ^ 31 →
      Does (.flwCursorWrite h val) s (updFlow (loadRec o true))) ∧
    (s.flow.loaded = some r → s.flow.log.find? (fun x => decide (0 < (x.seq - r.seq).toNat) && decide ((x.seq - r.seq).toNat < 2 ^ 31)) = some n →
      Does (.flwData7Read h false) s fun s => updFlow (loadRec n false) (emit (.readData [w32 (fld (recBytes r) 28 4)]) s)) ∧
    (s.flow.loaded = some r → s.flow.log.find? (fun x => decide (0 < (x.seq - r.seq).toNat) && decide ((x.seq - r.seq).toNat < 2 ^ 31)) = none →
      Does (.flwData7Read h true) s (emit (.readData [w32 (fld (recBytes r) 24 4), w32 (fld (recBytes r) 28 4)])))

/-- A ring's doorbell from the host it is bound for moves its tail (R351); from the other host it is ignored. PWR_HOLD sets its bit, and
at most a veto of a sleep falls due with it (R525, R516). -/
def Obligations.RingDoorbellsAndPowerHold : Prop :=
  ∀ (h : HostId) (r : Fin 64) (val : Word) (s : State), s.store.service = true →
    let i := bits val.toNat 11 0
    (∀ g, rxRing s r = g → g.port ≠ none → g.host = h → i < 2 ^ g.log2 →
      (g.tail + 2 ^ g.log2 - g.head) % 2 ^ g.log2 ≤ (i + 2 ^ g.log2 - g.head) % 2 ^ g.log2 →
      Does (.rxRingDoorbell h r val) s (setRx r fun g => { g with tail := i })) ∧
    (∀ g, txRing s r = g → g.port ≠ none → g.host = h → i < 2 ^ g.log2 →
      (g.tail + 2 ^ g.log2 - g.head) % 2 ^ g.log2 ≤ (i + 2 ^ g.log2 - g.head) % 2 ^ g.log2 →
      Does (.txRingDoorbell h r val) s (setTx r fun g => { g with tail := i })) ∧
    ((rxRing s r).port = none ∨ (rxRing s r).host ≠ h → Does (.rxRingDoorbell h r val) s id) ∧
    ((txRing s r).port = none ∨ (txRing s r).host ≠ h → Does (.txRingDoorbell h r val) s id) ∧
    (Completes (.pwrHoldWrite h val) s fun t => t.power.hold = val.getLsbD 0 ∧
      t.power = { s.power with hold := val.getLsbD 0, vetoDue := t.power.vetoDue })

/-- An SPI write into the buffer area stores its whole words, byte for byte, and leaves every other byte of memory alone; a partial word
at its end is discarded (R66, R67). Memory keeps its canonical form. -/
def Obligations.SpiWritesStoreWholeWords : Prop :=
  ∀ (addr : Nat) (data : List Byte) (s : State), windowUp s = true → s.ram.wf = true → addr % 4 = 0 → 0x02000000 ≤ addr →
    addr + data.length ≤ 0x02040000 → Completes (.spiWrite addr data) s fun t =>
      t.ram.wf = true ∧
      ∀ x, memByte t.ram x = if addr ≤ x ∧ x < addr + data.length / 4 * 4 then data.getD (x - addr) 0 else memByte s.ram x

/-- An SPI read of the buffer area answers the bytes held, as little-endian words, and changes nothing; another instruction is ignored
with all that follows it (R66, R67). The JTAG port takes BYPASS and boundary scan, and a production instruction as BYPASS outside FACTORY;
in FACTORY the spec says nothing of its effect, and the model stops (R590). -/
def Obligations.SpiReadsAndJtagInstructions : Prop :=
  ∀ (addr : Nat) (op : Byte) (s : State),
    (windowUp s = true → addr % 4 = 0 → 0x02000000 ≤ addr → addr < 0x02040000 →
      Does (.spiRead addr 1) s (emit (.readData [BitVec.ofNat 32 ((memByte s.ram addr).toNat + (memByte s.ram (addr + 1)).toNat * 2 ^ 8
        + (memByte s.ram (addr + 2)).toNat * 2 ^ 16 + (memByte s.ram (addr + 3)).toNat * 2 ^ 24)]))) ∧
    Does (.spiOtherInstruction op) s id ∧
    Does (.jtagInstruction .bypass) s (updRegs fun r => { r with jtag := .bypass }) ∧
    Does (.jtagInstruction .boundaryScan) s (updRegs fun r => { r with jtag := .boundaryScan }) ∧
    (∀ code, s.test.lc ≠ 1 → Does (.jtagInstruction (.production code)) s (updRegs fun r => { r with jtag := .bypass })) ∧
    (∀ code, s.test.lc = 1 → exec (.jtagInstruction (.production code)) s = .fault .productionInstruction)

/-! ### Car ports, rings and frames -/

/-- Links of a working car port (R325 to R327): TRAINING ends UP within 1,000 ms of its start, or FAILED at 1,000 ms, which trains anew
100 ms later; a link that is up and goes down drops what the port holds and trains again. A port that comes up enters low-power idle where
R347 lets it. A backbone link that comes up reopens its ingress (R252) and changes the neighbour table (R182). -/
def Obligations.LinksComeAndGo : Prop :=
  ∀ (n : Fin 12) (p : BPort) (s : State),
    (carWorks s n = true → (carAt s n).link = .training → s.clk.ps ≤ (carAt s n).linkPs + 1000 * 10 ^ 9 →
      Does (.linkUp (.car n)) s fun s => lpiCheck n (setLink n .up s)) ∧
    (carWorks s n = true → (carAt s n).link = .training →
      Does (.linkTrainTimeout n) s fun s => setLink n .failed (toPs ((carAt s n).linkPs + 1000 * 10 ^ 9) s)) ∧
    (carWorks s n = true → (carAt s n).link = .failed →
      Does (.linkFailedEnd n) s fun s => setLink n .training (toPs ((carAt s n).linkPs + 100 * 10 ^ 9) s)) ∧
    (running s = true → carUp (carAt s n) = true → Does (.linkDown (.car n)) s fun s => setLink n .training (clearPort n s)) ∧
    (running s = true → quarantined s (8 + p.idx) = false → underTest s (8 + p.idx) = false → (bbAt s p).up = false →
      Does (.linkUp (.bb p)) s fun s =>
        neighbourChange (reopen (.bb p) 2 (assertPort (.bb p) 0 (setBb p (fun b => { b with up := true }) s)))) ∧
    (running s = true → s.power.cancelled = none → (bbAt s p).up = true → Does (.linkDown (.bb p)) s (bbDown p))

/-- A frame on a car port of a running node whose link is up (R329): one of a wrong length counts in LENGTH_ERR, one with a bad FCS in
FCS_ERR, and both are dropped where RX_KEEP_BAD is clear; a good one counts in FRAMES_RX, its sender is learned, and it goes its way by
its class. A standby's port only answers 802.1AS (R328). -/
def Obligations.CarPortsReceive : Prop :=
  ∀ (n : Fin 12) (sfd : Nat) (bytes : List Byte) (s : State), carWorks s n = true → carUp (carAt s n) = true →
    (lengthOk bytes = false → (carAt s n).flags.getLsbD 0 = false →
      Does (.carRxFrame n sfd bytes) s fun s => countCar n 0x18 (toLt (sfd + carWire (carAt s n) bytes.length) s)) ∧
    (lengthOk bytes = true → fcsOf bytes ≠ .good → (carAt s n).flags.getLsbD 0 = false →
      Does (.carRxFrame n sfd bytes) s fun s => countCar n 0x10 (toLt (sfd + carWire (carAt s n) bytes.length) s)) ∧
    (lengthOk bytes = true → fcsOf bytes = .good → isActive s = true → isLinkLocalDa (frDa (stripFcs bytes)) = false →
      Does (.carRxFrame n sfd bytes) s fun s =>
        let s := countCar n 0x00 (toLt (sfd + carWire (carAt s n) bytes.length) s)
        classCar n sfd (stripFcs bytes) (wakeStep n sfd bytes (learnSa n (frSa (stripFcs bytes)) s))) ∧
    (lengthOk bytes = true → fcsOf bytes = .good → isActive s = false → isLinkLocalDa (frDa (stripFcs bytes)) = false →
      Does (.carRxFrame n sfd bytes) s fun s => countCar n 0x00 (toLt (sfd + carWire (carAt s n) bytes.length) s))

/-- Transmission selection of a car port (R340): of what may start, a TT frame goes first, then the queues in the order 5, 4, 7, 6, 3, 2,
1, 0; the frame leaves its queue and is on the wire. A frame sent is counted; a gate list goes to its next entry, at a FABCLK tick (R126;
the tick's phase is a free value, log 59). Low-power idle ends Tw after the first frame joined a queue, or Tw + 2,000 ns before the next
due delivery, and that port sends nothing before the wake is over (R347). -/
def Obligations.CarPortsTransmit : Prop :=
  ∀ (n : Fin 12) (s : State),
    (∀ q x, carWorks s n = true → (carAt s n).link = .up → (carAt s n).sending = none → isActive s = true →
      let u := dropOversize n (toLt (carAt s n).freeAt (begin_ s))
      nextCar u (carAt u n) = some (q, x) →
      Does (.carEgressStart n) s fun s => startCar n q x (dropOversize n (toLt (carAt s n).freeAt s))) ∧
    (∀ sfd stall x, running s = true → (carAt s n).sending = some x → x.slice = none → x.tx = none → (carAt s n).sendingQ < 8 →
      Does (.carFrameSent n sfd stall) s fun s => lpiCheck n (countCar n 0x08
        (toLt (sfd + carWire (carAt s n) (wireLen x.bytes)) (setCar n (fun c => { c with sending := none }) s)))) ∧
    (∀ g, running s = true → (carAt s n).gates[(carAt s n).gateIdx + 1]? = some g →
      (carAt s n).gateNext < boundary s ((cycleOf s (carAt s n).gateNext / s.time.hyper + 1) * s.time.hyper) →
      Does (.gateEntry n) s fun s => setCar n (fun c => { c with gateIdx := c.gateIdx + 1, gateNext := c.gateNext + g.interval * 65536 })
        (toTick (toLt (carAt s n).gateNext s))) ∧
    (∀ t, running s = true → (carAt s n).link = .upLpi → (carAt s n).queues.flatten = [] → nextDue s n = some t →
      let tw := (carAt s n).partnerTw.getD 0
      Does (.lpiExit n) s fun s => setLink n .up (setCar n (fun c => { c with freeAt := max c.freeAt (t - lpiLead tw + tw * 65536) })
        (toLt (t - lpiLead tw) s))) ∧
    (∀ x l, running s = true → (carAt s n).link = .upLpi → (carAt s n).queues.flatten = x :: l → (∀ y ∈ l, x.joined ≤ y.joined) →
      let tw := (carAt s n).partnerTw.getD 0
      (∀ t, nextDue s n = some t → x.joined + tw * 65536 ≤ t - lpiLead tw) →
      Does (.lpiExit n) s fun s => setLink n .up (setCar n (fun c => { c with freeAt := max c.freeAt (x.joined + tw * 65536) })
        (toLt (x.joined + tw * 65536) s)))

/-- Pause, LLDP and 802.1AS on a port that may send by its own action: each message leaves and counts in FRAMES_TX (R345, R346, R348), a
Sync with its Follow_Up as two; an AS peer that is silent for 3,000 ms is gone (R359). The wake time that LLDP advertises is free (log
77). -/
def Obligations.CarPortsOriginate : Prop :=
  ∀ (n : Fin 12) (s : State),
    (mayOriginate s n = true → (carAt s n).flags.getLsbD 1 = true → Does (.lldpSend n) s fun s =>
      countCar n 0x08 (emit (.lldp n (trainMac s.survey.position 0) (Config.minWake (carAt s n).mode) (Config.minWake (carAt s n).mode)
        ((carAt s n).partnerTw.getD 0)) s)) ∧
    (mayOriginate s n = true → (carAt s n).asOn = true →
      Does (.asSyncSend n) s (fun s =>
        countCar n 0x08 (countCar n 0x08 (emit (.asSync n (asTime s.clk.lt).1 (asTime s.clk.lt).2.1 (asTime s.clk.lt).2.2) s))) ∧
      Does (.asAnnounceSend n) s (fun s => countCar n 0x08 (emit (.asAnnounce n 1) s)) ∧
      Does (.asPdelaySend n) s (fun s =>
        countCar n 0x08 (emit (.asPdelayReq n (asTime s.clk.lt).1 (asTime s.clk.lt).2.1 (asTime s.clk.lt).2.2) s))) ∧
    (running s = true → (carAt s n).asOn = true → (carAt s n).asNoPeer = false → Does (.asNoPeer n) s fun s =>
      setCar n (fun c => { c with asNoPeer := true }) (toPs ((carAt s n).asPeerPs + 3000 * 10 ^ 9) s)) ∧
    (mayOriginate s n = true → (carAt s n).flags.getLsbD 2 = true → (carAt s n).pausing = true → 49152 < heldBytes s n →
      Does (.pauseRefresh n) s fun s => sendPause n 0xFFFF (toPs ((carAt s n).pausePs + quantaPs (carAt s n) 32768) s)) ∧
    (∀ t, running s = true → ((carAt s n).pausedUntil.filter fun x => decide (s.clk.ps < x)) = [t] → Does (.pauseExpiry n) s (toPs t))

/-- The rings: a frame read whole from a bound transmit ring that is not being unbound uses up its descriptors and goes to its port or to
the host station's way; one too long is written back as dropped (R354). A ring being unbound is free once it is quiet (R350). -/
def Obligations.TransmitRingsAreRead : Prop :=
  ∀ (r : Fin 64) (descs : List TxDesc) (port : Nat) (s : State), serving s = true →
    let g := txRing s r
    let t : TxTag := { ring := r, desc := g.head, count := descs.length, stamp := port != 0x80 && descs.any fun d => d.first && d.stamp }
    (g.port = some port → g.unbinding = none → wholeFrame descs = true → descs.length ≤ posted g → txTooLong (txData descs) = false →
      Does (.txFrameRead r descs) s fun s =>
        let s := setTx r (fun g => { g with head := (g.head + descs.length) % 2 ^ g.log2 }) s
        let s := { s with rings := { s.rings with owed := s.rings.owed ++ [t] } }
        sweepTx (if port = 0x80 then hostFrame t (txData descs) s else carRingFrame port t (txData descs) s)) ∧
    (g.port = some port → port < 12 → g.unbinding = none → wholeFrame descs = true → descs.length ≤ posted g → txTooLong (txData descs) = true →
      Does (.txFrameRead r descs) s fun s => txWriteBack { tag := t, flags := txFlags false true, at_ := none }
        (countCar port 0xB0 (setTx r (fun g => { g with head := (g.head + descs.length) % 2 ^ g.log2 }) s))) ∧
    (g.port = some port → 12 ≤ port → g.unbinding = none → wholeFrame descs = true → descs.length ≤ posted g → txTooLong (txData descs) = true →
      Does (.txFrameRead r descs) s fun s => txWriteBack { tag := t, flags := txFlags false true, at_ := none }
        (setTx r (fun g => { g with head := (g.head + descs.length) % 2 ^ g.log2 }) s)) ∧
    (∀ tag, running s = true → (rxRing s r).unbinding = some tag → (rxRing s r).port = some port →
      Does (.ringUnbindDone false r) s (atCommit (some tag) 0 fun s => setBound 0 port none (setRing 0 r (fun _ => {}) s))) ∧
    (∀ tag, running s = true → g.unbinding = some tag → g.port = some port → 12 ≤ port → (∀ o ∈ s.rings.owed, o.ring ≠ r) →
      Does (.ringUnbindDone true r) s (atCommit (some tag) 0 fun s => setBound 1 port none (setRing 1 r (fun _ => {}) s)))

/-! ### Multidrop segments and CAN -/

/-- A segment (R361 to R374): frames of a wrong length or FCS count and are dropped, and so are those of a group sender; the next frame in
the order of R367 starts where access lets it, under CSMA/CD once carrier and the interframe gap are over (carrier of another station is
seen at its frame's end: log 50); a late collision drops the frame; a backoff ends; BEACONs are sent, counted and end fallback; an
opportunity opens for 1 + burst frames; a follower without a BEACON falls back; a configuration that waited for the frame in progress is
taken when it has ended. A good frame goes its way (R363 to R366, R374): its sender is known, or is learned into the lowest empty entry,
or without one the frame is dropped; on the standby it goes no further; on the active unit it is resolved with its station's train address
as SA, one of PCP 6 as BE and an RC frame past its policer. -/
def Obligations.SegmentsFollowCsmaAndPlca : Prop :=
  ∀ (g : Fin 2) (bytes : List Byte) (s : State), mdWorks s g = true →
    (lengthOk bytes = false → Does (.mdRxFrame g bytes) s fun s => countMd g 0x18 (mdCarrier g 0 s)) ∧
    (lengthOk bytes = true → fcsOf bytes ≠ .good → Does (.mdRxFrame g bytes) s fun s => countMd g 0x10 (mdCarrier g 0 s)) ∧
    (lengthOk bytes = true → fcsOf bytes = .good → isLinkLocalDa (frDa (stripFcs bytes)) = false → isGroup (frSa (stripFcs bytes)) = true →
      Does (.mdRxFrame g bytes) s fun s => assertMd g 4 (countMd g 0x38 (countMd g 0x00 (mdCarrier g 0 s)))) ∧
    (∀ q f, isActive s = true → (mdAt s g).onPair = false → (mdAt s g).due = none → mdNext (mdAt s g) = some (q, f) →
      (mdCsma (mdAt s g) = true → (mdAt s g).backoffPs = none) → (mdCsma (mdAt s g) = false → 0 < (mdAt s g).credit) →
      Does (.mdTxStart g) s fun s => mdStart g q f (if mdCsma (mdAt s g) then toPs (mdAt s g).freePs s else s)) ∧
    (isActive s = true → (mdAt s g).onPair = true →
      Does (.mdCollision g true) s fun s => mdDrop g (assertMd g 3 (countMd g 0x28 (emit (.mdJam g) (countMd g 0x20
        (setMd g (fun m => { m with freePs := s.clk.ps + 3200000 + 9600000 }) s)))))) ∧
    (∀ t, (mdAt s g).backoffPs = some t → Does (.mdBackoffEnd g) s fun s => setMd g (fun m => { m with backoffPs := none }) (toPs t s)) ∧
    (isActive s = true → (mdAt s g).onPair = false → (mdAt s g).due = none → (mdAt s g).mode = 1 → (mdAt s g).nodeId = 0 →
      Does (.plcaBeaconSend g) s fun s =>
        countMd g 0x60 (emit (.mdBeacon g) (setMd g (fun m => { m with beaconPs := s.clk.ps, credit := 0 }) s))) ∧
    (isActive s = true → (mdAt s g).onPair = false → (mdAt s g).mode = 1 → (mdAt s g).fallback = false → Does (.plcaOpportunity g) s
      (setMd g fun m => { m with credit := if m.credit = 1 + m.burst then 0 else 1 + m.burst })) ∧
    (isActive s = true → Does (.plcaBurstTimer g) s fun s => setMd g (fun m => { m with credit := 0 }) (mdSent g s)) ∧
    ((mdAt s g).mode = 1 → (mdAt s g).nodeId ≠ 0 → (mdAt s g).fallback = false → Does (.plcaFallback g) s fun s =>
      let u := countMd g 0x78 (toPs ((mdAt s g).beaconPs + 400000000) s)
      mdNotice u (setMd g (fun m => { m with fallback := true, credit := 0 }) u)) ∧
    (g.val < s.md.length →
      ((mdAt s g).mode = 0 → Does (.plcaBeaconRx g) s (countMd g 0x68)) ∧
      ((mdAt s g).mode = 1 → (mdAt s g).nodeId ≠ 0 → Completes (.plcaBeaconRx g) s fun t =>
        (mdAt t g).fallback = false ∧ (mdAt t g).credit = 0 ∧ (mdAt t g).backoffPs = none ∧ (mdAt t g).beaconPs = s.clk.ps) ∧
      ((mdAt s g).due = none → Does (.mdConfigApply g) s (mdSent g)) ∧
      (∀ mode id count burst, (mdAt s g).due = some (none, mode, id, count, burst) → (mdAt s g).onPair = false → mdCoordinates (mdAt s g) = false →
        Does (.mdConfigApply g) s (mdTake g mode id count burst))) ∧
    (∀ i, lengthOk bytes = true → fcsOf bytes = .good →
      let f := stripFcs bytes
      let heard (s : State) : State := countMd g 0x00 (mdCarrier g 0 s)
      let learned (s : State) : State := assertMd g 5 (logEvent 0x70 (srcPort (0x20 + g)) (byte1 i ++ zeros 1 ++ macBytes (frSa f))
        (setMd g (fun m => { m with stations := tabSet {} m.stations i { addr := some (frSa f), pinned := false } }) (heard s)))
      let sent (f : List Byte) (s : State) : State :=
        resolveMd g (mdSfd s bytes.length) (resolveIn (frSa f) (stationMac s g i) (withSa f (stationMac s g i))) s
      (isLinkLocalDa (frDa f) = true → Does (.mdRxFrame g bytes) s heard) ∧
      (isLinkLocalDa (frDa f) = false → isGroup (frSa f) = false →
        (∀ taken : State → State,
          (stationOf s g (frSa f) = some i ∧ taken = heard) ∨
            (stationOf s g (frSa f) = none ∧ (mdAt s g).learn = true ∧ emptyStation s g = some i ∧ taken = learned) →
          (isActive s = false → Does (.mdRxFrame g bytes) s taken) ∧
          (isActive s = true → isRc f = false → (isTagged f && frPcp f == 6) = false →
            Does (.mdRxFrame g bytes) s fun s => sent f (taken s)) ∧
          (isActive s = true → isRc f = false → (isTagged f && frPcp f == 6) = true →
            Does (.mdRxFrame g bytes) s fun s => sent (demote f) (countMd g 0x40 (taken s))) ∧
          (isActive s = true → isRc f = true → ∀ b ok, police s.clk.ps (f.length + 4) (mdAt (taken (begin_ s)) g).bucket = (b, ok) →
            (ok = true → Does (.mdRxFrame g bytes) s fun s => sent f (setMd g (fun m => { m with bucket := b }) (taken s))) ∧
            (ok = false → Does (.mdRxFrame g bytes) s fun s => countMd g 0x48 (setMd g (fun m => { m with bucket := b }) (taken s))))) ∧
        (stationOf s g (frSa f) = none → (mdAt s g).learn = false ∨ emptyStation s g = none →
          Does (.mdRxFrame g bytes) s fun s => assertMd g 4 (countMd g 0x38 (heard s)))))

/-- Reception, states and stamps of a CAN controller (R381, R384, R389, R391): a frame of an accepted format at a listening controller
changes no count and is matched; 11 recessive bits end integration, that after a protocol exception too; recovery from BUS_OFF clears the
counters; a protocol exception asserts its event and the controller waits for the idle bus, but not where PXD disables it, which mode 1
ignores (R380; the state then reported: log 51); a lock held for 1,000 ms is let go. Each end of a frame is the end of a frame in progress
(R379, R508). -/
def Obligations.CanControllersReceive : Prop :=
  ∀ (k : Fin 4) (sof : Word) (f : CanFrame) (b : Fin 128) (s : State), canWorks s k = true →
    (canAccepts (canAt s k).mode f.format = true → canHears (canAt s k) = true → (canAt s k).state = .listenOnly →
      Does (.canFrameRx k sof f) s fun s => canFrameEnd k (takeFrame k sof f s)) ∧
    (canAccepts (canAt s k).mode f.format = true → canHears (canAt s k) = true → (canAt s k).state = .errorActive → (canAt s k).recv ≤ 127 →
      Does (.canFrameRx k sof f) s fun s =>
        canFrameEnd k (takeFrame k sof f (canJudge k (canCompany k (setCan k (fun c => { c with recv := c.recv - 1 }) s))))) ∧
    ((canAt s k).state ≠ .integrating → Does (.canIntegrated k) s (setCan k fun c => { c with awaitsIdle := false })) ∧
    ((canAt s k).state = .integrating → (canAt s k).listenOnly = false → Does (.canIntegrated k) s (setCanState k .errorActive)) ∧
    ((canAt s k).state = .integrating → (canAt s k).listenOnly = true → Does (.canIntegrated k) s (setCanState k .listenOnly)) ∧
    ((canAt s k).state = .busOff → Does (.canBusoffRecovery k) s fun s =>
      setCanState k .errorActive (setCan k (fun c => { c with tec := 0, recv := 0, ackErrors := 0 }) s)) ∧
    (canHears (canAt s k) = true → ((canAt s k).mode = 1 ∨ bitOf (fld (canAt s k).timing 9 1) 2 = false) → Does (.canProtocolException k) s fun s =>
      canFrameEnd k (assertCan k 14 (setCan k (fun c => { c with awaitsIdle := true }) s))) ∧
    (canHears (canAt s k) = true → (canAt s k).mode ≠ 1 → bitOf (fld (canAt s k).timing 9 1) 2 = true →
      Does (.canProtocolException k) s id) ∧
    (∀ t, (bufAt (canAt s k) b).locked = some t →
      Does (.canLockStale k b) s fun s => assertCan k 13 (setBuf k b unlockBuf (toPs (t + 10 ^ 12) s)))

/-- Transmission of a CAN controller (R384, R393 to R395, R401): at bus idle the best pending buffer is offered and, where it wins, is on
the bus; success counts down TEC and completes its command; an error outside a transmission adds to REC, and an acknowledgement error of a
transmitter adds 8 to TEC until TEC has reached 128; the target makes a buffer pending, its limit ends the command with TIMEOUT; a window
closes at its end and the next column makes its buffer pending. -/
def Obligations.CanControllersTransmit : Prop :=
  ∀ (k : Fin 4) (b : Fin 128) (sof : Word) (s : State), canWorks s k = true →
    (∀ i f, canMaySend (canAt s k) = true → txBest (txCandidates s k) = some (i, f) →
      Does (.canTxStart k true sof) s fun s =>
        let u := setCan k (fun c => { c with aloneTry := false }) (setBuf k i (fun b => { b with attempted := true }) s)
        let f := { f with esi := (canAt u k).state == .errorPassive && f.format == .fd }
        emit (.can k f) (setCan k (fun c => { c with sending := some (i, sof, f) }) u)) ∧
    (∀ i f, (canAt s k).sending = some (i, sof, f) → (bufAt (canAt s k) i).ctrl.getLsbD 0 = false → Does (.canTxSuccess k) s fun s =>
      let u := canJudge k (canCompany k (setCan k (fun c => { c with sending := none, tec := c.tec - 1, ackErrors := 0 }) s))
      canFrameEnd k (atCommit (bufAt (canAt s k) i).txTag sof.toNat id (setBuf k i (fun b => { notPending b with clashes := 0 }) u))) ∧
    (∀ ack ti ri, canHears (canAt s k) = true → (canAt s k).state = .errorActive → (canAt s k).sending = none →
      Does (.canError k ack false ti ri) s fun s =>
        canFrameEnd k (canJudge k (attemptFails k false (setCan k (fun c => { c with recv := c.recv + ri }) s)))) ∧
    (∀ x ti ri, canHears (canAt s k) = true → (canAt s k).state = .errorActive → (canAt s k).sending = some x →
      Does (.canError k true false ti ri) s fun s => canFrameEnd k (canJudge k (attemptFails k false (setCan k (fun c => { c with
        tec := if c.tec < 128 then c.tec + 8 else c.tec, ackErrors := c.ackErrors + 1 }) s)))) ∧
    (∀ t, (bufAt (canAt s k) b).txTag = some t → (bufAt (canAt s k) b).pending = false → Does (.canTxTarget k b) s fun s =>
      setBuf k b (fun x => { x with pending := true }) (toLt ((bufAt (canAt s k) b).target * 65536) s)) ∧
    (∀ t c, (bufAt (canAt s k) b).txTag = some t → cmdOf s t = some c → (canAt s k).sending = none → Does (.canTxLate k b) s fun s =>
      let x := bufAt (canAt s k) b
      let s := assertCan k 10 (setBuf k b notPending (toLt ((x.target + x.late) * 65536) s))
      finishTag t 0x70 ((s.clk.ps - c.atPs) / 10 ^ 9) s) ∧
    (∀ m j, (canAt s k).matrix = some m → (canAt s k).column = some j → Does (.canWindowEnd k) s fun s =>
      closeWindow k (toLt (windowEnd s (canAt s k) m j) s)) ∧
    (∀ m j t, (canAt s k).matrix = some m → matrixRuns s k = true → (canAt s k).column = none →
      (usedColumns s.time.l m).find? (fun x => decide (s.clk.lt ≤ rowStart s (canAt s k) + x.2 * 65536)) = some (j, t) →
      k.val < s.can.length →
      Completes (.canColumnStart k) s fun u => (canAt u k).column = some j ∧ (canAt u k).row = (canAt s k).row)

/-! ### The Survey -/

/-- The Survey's messages at a unit of the same round that runs in the Survey (R172, R182, R186, R190 to R197), and those that a numbered
unit takes (R175, R198, R200). A frame that arrives whole and is the unit's to act on has its effect once. -/
def Obligations.SurveyMessagesHaveTheirEffect : Prop :=
  ∀ (rx : MgRx) (s : State), Whole rx s → ForMe rx s →
    (∀ m, surveying s = true → m.round = s.survey.round → Does (.svClaimRx rx m) s fun s =>
      decideClaim (relayClaim rx m (storeClaim rx.port.side m (handed rx (.svClaim m) s)))) ∧
    (∀ m, (s.survey.state = .listen ∨ s.survey.state = .settled ∨ s.survey.state = .claim) → m.round = s.survey.round → Does (.svCountRx rx m) s fun s =>
      countOn rx.port.side m.inVehicle m (updSurvey (fun v => { v with
        headSide := some rx.port.side, pendingPos := some (if m.inVehicle then m.entries.length + 1 else m.next), state := .counted,
        countedCycles := 0 }) (handed rx (.svCount m) s))) ∧
    (∀ m, s.survey.state = .counted → m.round = s.survey.round → s.survey.stored = none →
      let x : Relayed := { mtype := 0x0104, origin := m.headOrigin, round := m.round }
      let stored (s : State) : State := updSurvey (fun v => { v with stored := some m.record, commitDue := v.isHead }) (handed rx (.svRecord m) s)
      (s.survey.isHead = true → Does (.svRecordRx rx m) s stored) ∧
      (s.survey.isHead = false → relayOnce x s = true → Does (.svRecordRx rx m) s fun s =>
        sendSurvey rx.port.side.other (.svRecord m) (markRelayed x (stored s)))) ∧
    (∀ m, s.survey.state = .counted → m.round = s.survey.round → s.survey.commit = none →
      let x : Relayed := { mtype := 0x0105, origin := m.headOrigin, round := m.round }
      let sent (s : State) : State := if relayOnce x s then sendSurvey rx.port.side.other (.svCommit m) (markRelayed x s) else s
      (commitMatches m s = true → Does (.svCommitRx rx m) s fun s => updSurvey (fun v => { v with commit := some m }) (sent (handed rx (.svCommit m) s))) ∧
      (commitMatches m s = false → Does (.svCommitRx rx m) s fun s =>
        enterRound (s.survey.round + 1) (logEvent 0x39 srcNode (le 4 m.crc.toNat) (sent (handed rx (.svCommit m) s))))) ∧
    (∀ m, numbered s = true → rx.epoch = s.survey.epoch → Does (.svHelloRx rx m) s fun s =>
      splitCheck rx.port.side (setNeigh rx.port (fun n => { n with hello := some m, epoch := rx.epoch }) (handed rx (.svHello m) s))) ∧
    (∀ round, numbered s = true → Does (.svRestartRx rx round) s fun s => giveUp round (handed rx (.svRestart round) s)) ∧
    (∀ m, numbered s = true → Does (.svLinkRx rx m) s fun s => applyLink m.position m.links (handed rx (.svLink m) s))

/-- The Survey by itself (R174, R183, R188, R197, R198, R205, R235, R236): hellos leave at 3,200 ns of the chamber, an unnumbered unit's
queued frame starts at once, 16 steady cycles settle a unit or make it claim, a claim unheard for 400 ms is NO_END, 64 cycles without a
commit start the next round, a link is regained after 16 cycles and lost after 4 without a sample; the boundary counts a cycle, and an
unnumbered unit first steps forward by what its samples of the cycle show (R147; its instant: log 64). -/
def Obligations.SurveyStepsInTime : Prop :=
  ∀ (p : BPort) (s : State), running s = true →
    (bbOpen s p = true → s.survey.state ≠ .boot → phaseOf s s.clk.lt ≤ 3200 * 65536 → (neighAt s p).helloLt = none →
      Does (.svHelloSend p) s fun s =>
        let u := toPhase (3200 * 65536) s
        let u := setNeigh p (fun n => { n with helloLt := some u.clk.lt }) u
        emitMg p (.svHello (helloOf u p)) u) ∧
    (∀ f rest, (bbAt s p).mg = f :: rest → bbOpen s p = true → numbered s = false → f.epoch = 0xFF → Does (.mgFrameStart p) s fun s =>
      let t := max s.clk.lt (bbAt s p).freeAt
      sweepTimeSets (countBb p 0x08 (emit (.mg p f) (setBb p (fun b => { b with mg := rest, freeAt := t + mgWire f.msg }) (toLt t s))))) ∧
    (s.survey.state = .listen → 16 ≤ s.survey.settleCycles → isEnd s = false → Does .settle s fun s =>
      updSurvey (fun v => { v with state := .settled, quietPs := s.clk.ps, noEndPs := none }) s) ∧
    (s.survey.state = .listen → 16 ≤ s.survey.settleCycles → isEnd s = true → s.survey.cabActiveKnown = true → s.survey.cabPresentKnown = true →
      Does .settle s fun s => decideClaim (makeClaims
        (updSurvey (fun v => { v with state := .claim, claimSent := false, quietPs := s.clk.ps, noEndPs := none }) s))) ∧
    (s.survey.state = .settled → s.survey.noEndPs = none → Does .noEnd s fun s =>
      let u := toPs (s.survey.quietPs + 400 * 10 ^ 9) s
      logEvent 0x36 srcNode [] (updSurvey (fun v => { v with noEndPs := some u.clk.ps }) u)) ∧
    (s.survey.state = .counted → s.survey.commit = none → 64 ≤ s.survey.countedCycles → Does .countedTimeout s (enterRound (s.survey.round + 1))) ∧
    (innerPort s p = true → (neighAt s p).member = false → bbOpen s p = true → (echoAt s p).dValid = true → 16 ≤ (neighAt s p).regain →
      Does (.memberLinkRegain p) s (memberChange p true)) ∧
    (4 ≤ (echoAt s p).dry → Does (.linkLost p) s fun s => breakCheck (setNeigh p (fun n => { n with lost := true }) s)) ∧
    (s.survey.state ≠ .boot → Does .surveyChamberStart s fun s => sleepChamber (reformChamber (plannerChamber (surveyChamber (toChamber s))))) ∧
    (Does .cycleBoundary s fun s => let u := coldStep s; boundaryDuties u.time.boundaryDue (reachBoundary u)) ∧
    (∀ c r pos head, s.survey.commit = some c → s.survey.stored = some r → s.survey.pendingPos = some pos → s.survey.headSide = some head →
      s.survey.state = .counted → r.crc = c.crc → Completes .numberingCutover s fun t =>
        t.survey.position = pos ∧ t.survey.epoch = c.epoch ∧ t.survey.lastEpoch = some c.epoch ∧ t.survey.state = .numbered ∧
        t.time.l = c.cycle ∧ t.time.hyper = c.hyper ∧ t.time.squeeze = c.squeeze ∧ t.time.base = c.cutover * 65536)

/-! ### Re-forming -/

/-- The first copy of a re-forming message at a numbered unit (R207, R210 to R212, R215, R218 to R220, R227, R231): an end of the consist
in force is stored; an offer is decided on at an idle unit, but not where this pair of counts was refused; a merge becomes pending; a
joining unit adds its own offset to a track; a readiness waits for the shadow plan; an announcement is held; a break is relayed, and
announced by the old reference; an abandon of the pending record drops it. -/
def Obligations.ReformMessagesHaveTheirEffect : Prop :=
  ∀ (rx : MgRx) (s : State), Whole rx s → ForMe rx s →
    (∀ m, FirstCopy m.head (.jnEnd m) s → m.head.epochOf = s.survey.epoch → Does (.jnEndRx rx m) s fun s =>
      leadCheck (conflictCheck (storeEnd rx.port.side m (jnRelay rx (.jnEnd m) (handedJn rx m.head (.jnEnd m) s))))) ∧
    (∀ m, FirstCopy m.head (.jnOffer m) s → s.reform.refused = some (rx.port.side, consistCount s, m.entries.length) →
      Does (.jnOfferRx rx m) s (handedJn rx m.head (.jnOffer m))) ∧
    (∀ m, FirstCopy m.head (.jnOffer m) s → hasSide s rx.port.side = false → idleReform s = true → s.reform.refused = none →
      Does (.jnOfferRx rx m) s fun s =>
      decideMerge (updReform (fun r => { r with gotOffer := some (rx.port.side, m), phase := if r.phase = 0 ∨ r.phase = 4 then 1 else r.phase })
        (handedJn rx m.head (.jnOffer m) s))) ∧
    (∀ m, FirstCopy m.head (.jnMerge m) s → m.head.epochOf = s.survey.epoch → Does (.jnMergeRx rx m) s fun s =>
      takeMerge { record := m.record, keeping := m.keeping, reverse := m.reverse, units := m.units, cause := 1, subject := m.head.origin,
                  couplerPos := m.head.posOf } (jnRelay rx (.jnMerge m) (handedJn rx m.head (.jnMerge m) s))) ∧
    (∀ m, FirstCopy m.head (.jnTrack m) s → isJoining s = true → Does (.jnTrackRx rx m) s fun s =>
      let own := m.delta - (echoAt s rx.port).offset
      jnRelay rx (.jnTrack { m with delta := own }) (updReform (fun r => { r with delta := some (own, m.slope, m.at_) })
        (handedJn rx m.head (.jnTrack m) s))) ∧
    (∀ m, FirstCopy m.head (.jnReady m) s →
      (s.reform.shadowDone = true → Does (.jnReadyRx rx m) s fun s => passReady rx.port m (handedJn rx m.head (.jnReady m) s)) ∧
      (s.reform.shadowDone = false → Does (.jnReadyRx rx m) s fun s =>
        updReform (fun r => { r with ready := some (rx.port, m) }) (handedJn rx m.head (.jnReady m) s))) ∧
    (∀ m, FirstCopy m.head (.jnCutover m) s → Does (.jnCutoverRx rx m) s fun s =>
      holdCutover m (jnRelay rx (.jnCutover m) (handedJn rx m.head (.jnCutover m) s))) ∧
    (∀ m, FirstCopy m.head (.jnBreak m) s → m.head.epochOf = s.survey.epoch →
      (isReference s = true → isActive s = true → Does (.jnBreakRx rx m) s fun s =>
        announceSplit 1 m.headPos (handedJn rx m.head (.jnBreak m) s)) ∧
      (isReference s = false → Does (.jnBreakRx rx m) s fun s => jnRelay rx (.jnBreak m) (handedJn rx m.head (.jnBreak m) s))) ∧
    (∀ m p, FirstCopy m.head (.jnAbandon m) s → s.reform.pending = some p → p.subject = m.subject → p.cause ≠ 2 →
      Does (.jnAbandonRx rx m) s fun s => dropReform m.subject (jnRelay rx (.jnAbandon m) (handedJn rx m.head (.jnAbandon m) s)))

/-- Re-forming by itself (R200, R217, R221 to R224, R257): an end sends JN_END again after 10,000 ms; a pending record whose contracts are
held gets its shadow plan, and before it the first staged plan that swaps before the cut-over, once RETIRING is released; at the cut-over
a unit with the announced record changes over to it, and a unit with another record gives up its position; at the end of that period the
previous epoch is gone. -/
def Obligations.ReformStepsInTime : Prop :=
  ∀ s : State, running s = true → numbered s = true →
    (endSides s ≠ [] → Does .jnEndTimer s fun s => sendEnds (toPs (s.reform.endPs + 10 ^ 13) s)) ∧
    (∀ p, s.reform.pending = some p → s.planner.staged = [] → s.gallery.retiringHeld = false → s.reform.shadowDone = false →
      (p.cause = 1 → s.reform.contractsHeld = true) → Does .shadowPlanDone s (reformShadow p)) ∧
    (∀ g rest, s.planner.staged = g :: rest → beforeCut s g = true → s.gallery.retiringHeld = false → s.gallery.shadowComplete = false →
      Does .shadowPlanDone s (completeShadow g)) ∧
    (∀ m p, s.reform.cutover = some m → s.reform.pending = some p → p.record.crc = m.crc → p.cause = m.cause →
      Does .cutover s fun s => sleepCutover (changeOver p m (toLt (ownCut s m) s))) ∧
    (∀ m p, s.reform.cutover = some m → s.reform.pending = some p → ¬(p.record.crc = m.crc ∧ p.cause = m.cause) →
      Does .cutover s fun s => sleepCutover (giveUp (s.survey.round + 1) (logEvent 0x39 srcNode (le 4 m.crc.toNat) (toLt (ownCut s m) s)))) ∧
    (s.survey.prevEpoch ≠ 0xFF → s.survey.aliasLeft ≤ 1 → Completes .aliasEnd s fun t =>
      t.survey.aliasLeft = 0 ∧ t.survey.prevRecord = none ∧ t.survey.prevEpoch = 0xFF ∧ t.survey.aliasMap = [] ∧
      t.survey.position = s.survey.position ∧ t.survey.epoch = s.survey.epoch)

/-! ### The planner -/

/-- The planner's messages and swaps (R254, R255, R264 to R266, R287, R289, R290): position 1 takes a request; the requester takes its
result; a numbered unit applies the next serial, ignores one already taken, and is silenced by a gap; the reference keeps a digest; any
other unit takes a tally; a record of a cold start is kept until its set is whole; a complete SHADOW comes into force at its swap, and
without one the unit waits; RETIRING is emptied two cycles later. -/
def Obligations.PlannerMessagesAndSwaps : Prop :=
  ∀ (rx : MgRx) (s : State),
    (Whole rx s → ForMe rx s → numbered s = true →
      (∀ m, isReference s = true → isActive s = true → m.op ≠ .sync → Does (.plRequestRx rx m) s fun s =>
        submit { msg := m, tag := none, answered := false } (handed rx (.plRequest m) s)) ∧
      (∀ m, isActive s = true → m.op = .sync → Does (.plRequestRx rx m) s fun s => answerSync m (handed rx (.plRequest m) s)) ∧
      (∀ m, m.reqPos = s.survey.position → Does (.plResultRx rx m) s fun s => takeResult m (handed rx (.plResult m) s)) ∧
      (∀ m env, m.epoch = s.survey.epoch → isReference s = false → (m.serial + 65536 - s.planner.lastSerial) % 65536 = 1 →
        (let u := handed rx (.plChange m) (begin_ s)
         u.clk.lt < boundary u (cycleAt u m.swap) ∧ planEnv u = some env) →
        Does (.plChangeRx rx m) s fun s => applyChange env m (handed rx (.plChange m) s)) ∧
      (∀ m, m.epoch = s.survey.epoch → isReference s = false → 2 ≤ (m.serial + 65536 - s.planner.lastSerial) % 65536 →
        (m.serial + 65536 - s.planner.lastSerial) % 65536 ≤ 32767 →
        Does (.plChangeRx rx m) s fun s => losePlan 0 (handed rx (.plChange m) s)) ∧
      (∀ m, ((m.serial + 65536 - s.planner.lastSerial) % 65536 = 0 ∨ 32767 < (m.serial + 65536 - s.planner.lastSerial) % 65536) →
        Does (.plChangeRx rx m) s (handed rx (.plChange m))) ∧
      (∀ m, isReference s = true → isActive s = true → m.epoch = s.survey.epoch → Does (.plDigestRx rx m) s fun s =>
        updPlanner (fun p => { p with reports := m :: p.reports.filter fun x => x.position != m.position }) (handed rx (.plDigest m) s)) ∧
      (∀ m, isReference s = false → Does (.plTallyRx rx m) s fun s => takeTally m (handed rx (.plTally m) s)) ∧
      (∀ m, rx.da = allNodes → isReference s = false → m.epochOf = s.survey.epoch → s.planner.coldDone = false → 0 < m.total →
        (addTaken m s.planner.taken).length < m.total → Does (.plContractRx rx m) s fun s =>
          updPlanner (fun p => { p with taken := addTaken m p.taken }) (handed rx (.plContract m) s))) ∧
    (∀ g rest, running s = true → numbered s = true → s.planner.staged = g :: rest → s.gallery.waiting = false →
      (s.gallery.shadowComplete = true → s.reform.shadowDone = false → Does .swap s fun s => swapIn g (toLt (boundary s g.swap) s)) ∧
      (s.gallery.shadowComplete = false ∨ s.reform.shadowDone = true → Does .swap s fun s =>
        logEvent 0x50 srcNode (le 4 g.swap) (updGallery (fun y => { y with waiting := true }) (toLt (boundary s g.swap) s)))) ∧
    (∀ c, running s = true → s.gallery.lastSwap = some c → s.gallery.retiringHeld = true → Completes .retiringRelease s fun t =>
      t.gallery.retiringHeld = false ∧ (∀ b ∈ t.gallery.banks, b.retiring = []) ∧ t.gallery.lastSwap = some c ∧ t.planner = s.planner)

/-! ### The Gallery -/

/-- The guardian (R47, R111, R248 to R252): a TT header that is none is a header error; away from a window it is violation 1, in a window
already taken 2, with another context 3; with another epoch it counts there. Each is noted and takes effect at the frame's end, where one
short of 64 bytes counts in LENGTH_ERR alone. Any other frame is accepted into the window's chamber; at a closed ingress it counts as a
drop there. A frame past MAXLEN is cut, a whole one is judged by its FCS, and one short of 64 bytes counts in LENGTH_ERR. A closed ingress
reopens after 256 clean cycles. That a check at the SFD takes effect at the frame's end is the model's choice (log 59). -/
def Obligations.GuardianJudgesTtFrames : Prop :=
  ∀ (p : BPort) (sfd : Nat) (h bytes : List Byte) (s : State), bbTakes s p = true → bbOpen s p = true →
    let u := toLt sfd (begin_ s)
    let k := cycleOf u sfd
    let tt := fld h 2 1 ≠ 0xFF ∧ nfld h 12 2 = 0x88B5 ∧ nfld h 0 2 = 0x0B5A
    let closed := (ingressAt s (.bb p)).closed
    let fails (counter : Nat) (kind : Option Nat) : Prop := Does (.ttIngressSfd p sfd h) s fun s => updGallery (fun g => { g with
      rejects := { port := p, counter := counter, kind := kind } :: g.rejects.filter fun x => x.port != p }) (toLt sfd s)
    (¬tt → fails 0x30 none) ∧
    (tt → (neighAt s p).member = false → fails 0x80 none) ∧
    (tt → (neighAt s p).member = true →
      (windowAt u p k (phaseOf u sfd) = none → fails 0x80 (some 1)) ∧
      (∀ e start fwd, windowAt u p k (phaseOf u sfd) = some (e, start, fwd) →
        ((p.idx, start, cycleTag u k) ∈ s.gallery.accepted → fails 0x80 (some 2)) ∧
        ((p.idx, start, cycleTag u k) ∉ s.gallery.accepted → fld h 3 1 ≠ e.context → fails 0x80 (some 3)) ∧
        ((p.idx, start, cycleTag u k) ∉ s.gallery.accepted → fld h 3 1 = e.context → fld h 2 1 ≠ e.epoch →
          fails (if closed then 0x80 else 0x50) none) ∧
        ((p.idx, start, cycleTag u k) ∉ s.gallery.accepted → fld h 3 1 = e.context → fld h 2 1 = e.epoch →
          Does (.ttIngressSfd p sfd h) s fun s => updGallery (fun g => { g with
            accepted := (p.idx, start, cycleTag u k) :: g.accepted,
            flights := g.flights ++ [{
              port := p, context := e.context, seq := BitVec.ofNat 16 (nfld h 4 2), epoch := e.epoch, sourceCycle := sourceCycle u k e,
              first := chamberIndex u (if fwd then p.opposite else p) k e == 0, start := start, cycle := cycleTag u k, forward := fwd,
              deliver := e.deliver, maxlen := e.maxlen, sfd := sfd, arriving := true, sent := false, cut := false, dropped := closed,
              tied := false, body := none }] }) (toLt sfd s)))) ∧
    (∀ x, arrivingAt s p = none → rejectedAt s p = some x →
      let gone (s : State) : State := updGallery (fun g => { g with rejects := g.rejects.filter fun y => y.port != p }) s
      (bytes.length < 64 → Does (.ttFrameEnd p bytes) s fun s => countBb p 0x28 (gone s)) ∧
      (64 ≤ bytes.length → fcsOf bytes = .good → x.kind = none →
        Does (.ttFrameEnd p bytes) s fun s => countBb p x.counter (countBb p 0x00 (gone s))) ∧
      (∀ v, 64 ≤ bytes.length → fcsOf bytes = .good → x.kind = some v →
        Does (.ttFrameEnd p bytes) s fun s => violation (.bb p) v (countBb p x.counter (countBb p 0x00 (gone s))))) ∧
    (∀ f, arrivingAt s p = some f → f.cut = false →
      (f.dropped = false → Does (.ttMaxlenReached p bytes) s (fun s => truncate f bytes (toLt (f.sfd + wire10g f.maxlen) s))) ∧
      (f.dropped = false → 64 ≤ bytes.length → bytes.length ≤ f.maxlen →
        Does (.ttFrameEnd p bytes) s fun s => settleTies f (endTt f bytes (toLt (f.sfd + wire10g bytes.length) s))) ∧
      (bytes.length < 64 →
        Does (.ttFrameEnd p bytes) s fun s => settleTies f (setFlight f none (countBb p 0x28 (toLt (f.sfd + wire10g bytes.length) s)))) ∧
      (f.dropped = true → 64 ≤ bytes.length → bytes.length ≤ f.maxlen → fcsOf bytes = .good → Does (.ttFrameEnd p bytes) s fun s =>
        settleTies f (endArrival f (countBb p 0x80 (countBb p 0x00 (toLt (f.sfd + wire10g bytes.length) s)))))) ∧
    (256 ≤ (ingressAt s (.bb p)).clean → closed = true → Does (.ingressReopen (.bb p)) s fun s =>
      logEvent 0x52 (srcPort p.code) (byte1 1)
        (setIngress (.bb p) (fun i => { i with closed := false, clean := 0, violations := [] }) s))

/-- Chambers and general frames (R106, R111, R114, R241, R245 to R247, R307): a chamber of the cycle releases at its source and forwards
elsewhere; a general frame of a wrong length, FCS or line counts there, and a good one of the epoch in force is routed; the next general
frame leaves where it ends before the next footprint; the next delivery deadline of a stream passes. -/
def Obligations.ChambersAndGeneralFrames : Prop :=
  ∀ (p : BPort) (s : State), running s = true →
    (∀ start e, numbered s = true →
      (let u := toPhase start (begin_ s)
       (entriesIn u p (cycleNow u)).find? (fun e => e.start == start && e.kind != .terminal) = some e) →
      Does (.chamberStart p start) s fun s =>
        let u := toPhase start s
        if releasesAt u e then sourceChamber p e (cycleNow u) u else forwardChamber p e (cycleNow u) u) ∧
    (∀ sfd bytes, inService s (8 + p.idx) = true → bbOpen s p = true →
      (bytes.length < 64 ∨ 1528 < bytes.length →
        Does (.backboneGeneralRx p sfd bytes) s fun s => countBb p 0x28 (toLt (sfd + wire10g bytes.length) s)) ∧
      (64 ≤ bytes.length → bytes.length ≤ 1528 → fcsOf bytes = .bad → nfld (stripFcs bytes) 12 2 = 0x88B6 →
        Does (.backboneGeneralRx p sfd bytes) s fun s => countBb p 0x10 (toLt (sfd + wire10g bytes.length) s)) ∧
      (64 ≤ bytes.length → bytes.length ≤ 1528 → fcsOf bytes = .marked → nfld (stripFcs bytes) 12 2 = 0x88B6 →
        Does (.backboneGeneralRx p sfd bytes) s fun s => countBb p 0x18 (toLt (sfd + wire10g bytes.length) s)) ∧
      (64 ≤ bytes.length → bytes.length ≤ 1528 → fcsOf bytes = .good →
        let g := stripFcs bytes
        nfld g 12 2 = 0x88B6 → fld g 14 1 / 16 = 1 → (fld g 14 1 / 4 % 4 = 1 ∨ fld g 14 1 / 4 % 4 = 2) →
        (fld g 14 1 % 4 ≠ p.line.code → Does (.backboneGeneralRx p sfd bytes) s fun s =>
          countBb p 0x38 (countBb p 0x00 (toLt (sfd + wire10g bytes.length) s))) ∧
        (fld g 14 1 % 4 = p.line.code → (neighAt s p).member = true → fld g 16 1 < 127 → fld g 15 1 = s.survey.epoch →
          Does (.backboneGeneralRx p sfd bytes) s fun s =>
            let r := windowAtNode s.survey.epoch (macPos (frSa g)) g (frDa g) (countBb p 0x00 (toLt (sfd + wire10g bytes.length) s))
            routeGeneral p sfd r.2 g r.1))) ∧
    (∀ x, numbered s = true → (neighAt s p).member = true → bbOpen s p = true → nextGeneral (bbAt s p) = some x →
      let b := withFcs (overwrite x.bytes 14 (byte1 (fld x.bytes 14 1 / 4 * 4 + p.line.code)))
      let u := toLt (bbAt s p).freeAt (begin_ s)
      insideFootprint u p = false → phaseOf u u.clk.lt + wire10g (b.length + 20) ≤ nextBusy u p →
      Does (.generalEgressStart p) s fun s =>
        let s := toLt (bbAt s p).freeAt s
        let s := setBb p (fun q => { q with general := q.general.erase x, freeAt := s.clk.lt + wire10g (b.length + 20) }) s
        sweepTx (frameStarts x.src (countBb p 0x08 (emit (.backbone p s.clk.lt b .good) s)))) ∧
    (∀ (k : Fin 256) sc d rest, numbered s = true → vsuCab s k.val = true → (vsuAt s k.val).dues = (sc, d) :: rest →
      Does (.sliceDeadline k) s fun s => passDeadline k.val sc (vsuMask s k.val) (toLt d s))

/-! ### Time -/

/-- The time unit (R132, R135 to R140, R144, R147, R157, R158, R162, R581): each port that is up asks at 200 ns of the Survey chamber and
answers a neighbour's question with both stamps; a valid sample is taken, and an unnumbered unit steps forward to a neighbour more than 40
ns ahead, once in a cycle, with its last sample (log 64); a block ends on all ports; after the Survey chamber position 1 holds U at 0 and
any other node runs the servo's law or, without a sample, holds over; silence ends after 16 quiet cycles; a change of calendar time is
held until its START, where it begins, and late ones begin at once; a slew ends with its whole change; a genlock pulse ends after its
width; without PLL lock the node is silenced. -/
def Obligations.TimeUnitKeepsTime : Prop :=
  ∀ (s : State), running s = true →
    (∀ p : BPort, (bbAt s p).up = true → echoDue s p = true → Does (.echoReqSend p) s fun s =>
      let s := toPhase (200 * unitsPerNs) s
      let id := (echoAt s p).probeId + 1
      let s := setEcho p (fun e => { e with probeId := id, t1 := some s.clk.lt, sample := none, sent := sat 64 (e.sent + 1) }) s
      emitMg p (.echoReq { probeId := id, port := p.code, sync := syncState s, position := s.survey.position }) s) ∧
    (∀ (rx : MgRx), inService s (8 + rx.port.idx) = true → (bbAt s rx.port).up = true → 64 ≤ rx.length → rx.length ≤ 1528 →
      rx.fcs = .good → rx.version = 1 → rx.line = rx.port.line.code → rx.hops < 127 →
      let heard (m : Nat) (sync : BitVec 8) (s : State) : State :=
        setEcho rx.port (fun e => { e with neighPos := m, neighSync := sync }) (arrived rx s)
      (∀ (m : EchoReq) t3, Does (.echoReqRx rx m t3) s fun s =>
        let t3 := answerAt (arrived rx s) rx t3
        let u := toLt t3 (heard m.position m.sync s)
        emitMg rx.port (.echoResp {
          probeId := m.probeId, port := rx.port.code, sync := syncState u, position := u.survey.position, uncert := uncertNs u,
          t2 := rx.sfd, t3 := t3, slew := u.clk.s }) u) ∧
      (∀ (m : EchoResp) t1, (echoAt s rx.port).t1 = some t1 → rx.port.idx < s.echo.length →
        let noted (s : State) : State := noteExchange rx.port m t1 rx.sfd (heard m.position m.sync s)
        let v := heard m.position m.sync (begin_ s)
        (sampleValid v (echoAt v rx.port) m t1 rx.sfd = true →
          (samplesIn (takeSample rx.port m t1 rx.sfd (noted (begin_ s))) = false →
            Does (.echoRespRx rx m) s fun s => takeSample rx.port m t1 rx.sfd (noted s)) ∧
          (samplesIn (takeSample rx.port m t1 rx.sfd (noted (begin_ s))) = true →
            Does (.echoRespRx rx m) s fun s => coldStep (takeSample rx.port m t1 rx.sfd (noted s)))) ∧
        (sampleValid v (echoAt v rx.port) m t1 rx.sfd = false → Does (.echoRespRx rx m) s noted))) ∧
    Does .echoBlockEnd s (fun s => BPort.all.foldl (fun s p => portBlockEnd p s) s) ∧
    (numbered s = true →
      let u := toPhase (8000 * unitsPerNs) (begin_ s)
      let used (s : State) : State :=
        { s with echo := s.echo.mapIdx fun i e => { e with used := !isReference s && (servoPorts s).any fun p => p.idx == i } }
      (isReference s = true → Does .servoUpdate s fun s =>
        let s := used (toPhase (8000 * unitsPerNs) s)
        silenceCheck { s with clk := { s.clk with s := 0 }, time := { s.time with uncert := some 0, holdover := false } }) ∧
      (isReference s = false → servoPorts u ≠ [] → Does .servoUpdate s fun s =>
        silenceCheck (servoRun (servoPorts (toPhase (8000 * unitsPerNs) s)) (used (toPhase (8000 * unitsPerNs) s)))) ∧
      (isReference s = false → servoPorts u = [] → Does .servoUpdate s fun s =>
        silenceCheck (servoHold (used (toPhase (8000 * unitsPerNs) s))))) ∧
    (s.time.silenced = true → 16 ≤ s.time.quiet → s.time.timeLock = false → Completes .timeSilenceExit s fun t =>
      t.time = { s.time with silenced := false }) ∧
    (∀ (rx : MgRx) m, Whole rx s → ForMe rx s →
      (ltNs (handed rx (.calApply m) (begin_ s)) ≤ m.start → Does (.calApplyRx rx m) s fun s =>
        updTime (fun t => { t with calPending := t.calPending ++ [m] }) (handed rx (.calApply m) s)) ∧
      (m.start < ltNs (handed rx (.calApply m) (begin_ s)) → Does (.calApplyRx rx m) s fun s =>
        let s := handed rx (.calApply m) s
        applyCal m (logEvent 0x25 srcNode (le 4 m.changeId ++ le 4 (min ((ltNs s - m.start) / 1000) (2 ^ 32 - 1))) s))) ∧
    (∀ m, firstCal s.time.calPending = some m → Does .calStart s fun s =>
      applyCal m (updTime (fun t => { t with calPending := t.calPending.erase m }) (toLt (m.start * unitsPerNs) s))) ∧
    (∀ w, s.time.slew = some w → Does .calSlewEnd s fun s =>
      assertEdge 68 (updTime (fun t => { t with calOffset := w.base + w.change, slew := none })
        (toLt ((w.startLt + w.change.natAbs * 5000) * unitsPerNs) s))) ∧
    (∀ (n : Fin 12) (frame : Bool), (glkAt s n).mode ≠ 0 → (glkAt s n).driven = true → n.val < glkOuts s.part.code →
      (isActive s = true → (glkAt s n).anchorDue = false →
        Does (.glkPulse n true frame) s (if frame then glkFrameRise n else glkLineRise n)) ∧
      ((glkAt s n).level = true → Does (.glkPulse n false frame) s (glkFall n)) ∧
      ((glkAt s n).level = false → Does (.glkPulse n false frame) s id)) ∧
    Does .pllUnlock s (fun s => timeSilence (updTime (fun t => { t with pllLocked := false, timeLock := true, lockCycles := 0 }) s)) ∧
    Completes .pllLockRegained s (fun t => t.time.pllLocked = true ∧ t.time.timeLock = false ∧ (s.time.silenced = false → t.time.silenced = false)) ∧
    (∀ level, s.survey.cabActive ≠ level → (level = true → reasonOn s 7 = false) → Does (.cabInputChange true level) s fun s =>
      cabChanged (updSurvey (fun v => { v with cabActive := level, cabActiveKnown := true }) s)) ∧
    (∀ level, s.survey.cabPresent ≠ level → Does (.cabInputChange false level) s fun s =>
      cabChanged (updSurvey (fun v => { v with cabPresent := level, cabPresentKnown := true }) s))

/-! ### The twin -/

/-- The Creleber lane (R412 to R418): heartbeats leave and are taken, the first of a partner with the checks of R20 and R40; 150,000 ns
without one is a lane fault, and 150,000 ns without sending one releases ACTL; a mirror is adopted by a standby; a standby applies a
setting and answers; the answer, or 200,000 ns without it, settles the setting. -/
def Obligations.TheLaneCarriesTheTwin : Prop :=
  ∀ (s : State),
    (laneOn s = true →
      Does .heartbeatSend s sendBeat ∧
      (∀ m : Heartbeat, s.twin.laneFault = false →
        let taken (s : State) : State := updTwin (fun t => { t with
          partner := some m, heardPs := s.clk.ps, imageDiff := m.gen != BitVec.ofNat 8 s.store.generation }) s
        let acts (s : State) : State := revertTrack (match s.twin.role with
          | .active => beatActive m s
          | .standby => beatStandby m s
          | .starting => s)
        ((s.twin.partner.map fun h => h.origin) = some m.origin → Does (.heartbeatRx m) s fun s => acts (decideClaim (taken s))) ∧
        (s.twin.partner = none →
          Does (.heartbeatRx m) s fun s => acts (decideClaim (checkPartner m (taken s))))) ∧
      (∀ m : Mirror, s.twin.numbering = none →
        (isStandby s = true → Does (.cycleMirrorRx m) s fun s =>
          compareDigest m (adoptMirror m (updTwin (fun t => { t with mirror := some m, mirrorAge := 0 }) s))) ∧
        (isStandby s = false → Completes (.cycleMirrorRx m) s fun t => t.twin = { s.twin with mirror := some m, mirrorAge := 0 })) ∧
      (∀ m : Settings, isStandby s = true → Does (.settingsRx m) s fun s =>
        let r := applySetting (settingsCmd m) m.buffer s
        emit (.lane (.settingsAck (settingsCmd m).tag r.2)) r.1) ∧
      (∀ (tag : BitVec 8) (status : Nat) a, isActive s = true → (s.twin.awaiting.find? fun a => (settingsCmd a.2.1).tag == tag) = some a →
        Does (.settingsAckRx tag status) s fun s =>
          staleEnds a.1.isNone (settleSetting a.1 a.2.1 (updTwin (fun t => { t with awaiting := t.awaiting.erase a }) s)))) ∧
    (∀ a rest, running s = true → isActive s = true → s.twin.awaiting = a :: rest → Does .settingsTimeout s fun s =>
      settleSetting a.1 a.2.1 (updTwin (fun t => { t with awaiting := rest, settingsStale := true }) (toPs (a.2.2 + 200000000) s))) ∧
    (roleOn s = true → s.twin.partner.isSome = true → s.twin.laneFault = false → isStandby s = false → Does .laneFaultTimeout s fun s =>
      revertTrack (updTwin (fun t => { t with laneFault := true, goodBeats := 0 }) (toPs (s.twin.heardPs + 150000000) s))) ∧
    (running s = true → hasTwin s.part = true → s.twin.drivesActl = true → Completes .heartbeatSendTimeout s fun t =>
      t.twin = { s.twin with drivesActl := false })

/-- Roles and the unit's own faults (R414, R419, R420, R422 to R425, R428 to R430, R436, R437): a starting unit that reads ACTL low is
standby and one that waited its time active unless it is barred; a standby that took ACTL is active, unless barred (R20), from the
takeover boundary, and 64 cycles later TAKEOVER ends; an acknowledged handover passes the role at its boundary and lapses without one;
each fault of the unit sets its flag, and an active unit yields; sources 2 and 7 assert, and each junction sensor's level is kept. -/
def Obligations.RolesAndNodeFaults : Prop :=
  ∀ (s : State),
    (roleOn s = true → s.twin.role = .starting →
      (Does .actlLow s fun s => becomeStandby (updTwin (fun t => { t with actlHigh := false }) s)) ∧
      (s.twin.actlHigh = true → barred s = false → Does .twinStartWait s fun s => becomeActive (toPs (s.twin.waitPs + startWait s * 1000) s))) ∧
    (roleOn s = true → isStandby s = true →
      (∀ u, u = cutForTakeover (updTwin (fun t => { t with actlHigh := true }) (begin_ s)) → eligible u = true → Does .actlHigh s fun s =>
        takeoverCheck (cutForTakeover (updTwin (fun t => { t with actlHigh := true }) s))) ∧
      (∀ a, s.twin.takeoverAt = some a → barred s = false → Does .takeoverBoundary s fun s =>
        takeRole (takeoverCycle s a) (toLt (boundary s (takeoverCycle s a)) s)) ∧
      (s.twin.handoverCycle ≠ 0 → s.twin.handoverAck = true →
        Does .handoverBoundary s fun s => takeHandover (toLt (boundary s s.twin.handoverCycle) s))) ∧
    (roleOn s = true → isActive s = true → s.twin.handover = true →
      (s.twin.handoverCycle ≠ 0 → s.twin.handoverAck = true →
        Does .handoverBoundary s fun s => handOver (toLt (boundary s s.twin.handoverCycle) s)) ∧
      (s.twin.handoverAck = false → Does .handoverLapse s fun s => dropHandover (toLt (boundary s (s.twin.handoverCycle - 1)) s))) ∧
    (isActive s = true → s.twin.takeover = true → 64 ≤ s.twin.takeoverCycles → Completes .takeoverClear s fun t =>
      t.twin = { s.twin with takeover := false }) ∧
    (∀ p, mayRevert s = true → s.twin.revertPs = some p → Completes .revertTimer s fun t => t.twin = { s.twin with revertReq := true }) ∧
    (running s = true →
      (hasTwin s.part = true → isActive s = true → s.twin.drivesActl = true → Does .actlReadbackFault s fun s =>
        yieldRole 11 (updTwin (fun t => { t with actlFault := true }) s)) ∧
      (Does (.fabricEccError true) s fun s => yieldRole 0 (updTwin (fun t => { t with fabricEcc := true }) s)) ∧
      Does (.fabricEccError false) s (assertEdge 2) ∧
      (Does .guardianSelfFail s fun s => yieldRole 1 (updTwin (fun t => { t with guardianSelf := true }) s)) ∧
      (Does .watchdogFire s fun s => yieldRole 3 (updTwin (fun t =>
        { t with watchdog := true, firedPs := if t.watchdog then t.firedPs else s.clk.ps }) s)) ∧
      (Does .timeLockFault s fun s => yieldRole 2 (updTwin (fun t => { t with timeLock := true })
        (timeSilence (updTime (fun t => { t with timeLock := true, lockCycles := 0 }) s)))) ∧
      (Completes .memEccError s fun t =>
        t.router.pend.getLsbD 7 = true ∧ ∀ j, j ≠ 7 → t.router.pend.getLsbD j = s.router.pend.getLsbD j)) ∧
    (∀ (k : Fin 2) (above : Bool), Completes (.tempThreshold k above) s fun t =>
      t.router.tempHigh.getLsbD k = above ∧ (∀ j, j ≠ k.val → t.router.tempHigh.getLsbD j = s.router.tempHigh.getLsbD j) ∧
      t.router.pend = s.router.pend)

/-! ### Flowstone's media and self-test -/

/-- Flowstone and the tests (R460, R462, R473, R484, R485, R491, R495): the oldest record of the front buffer is written, and a write that
fails verification is a media failure; the repeat fields of the newest record are rewritten; a record without a repeat for 1 s closes. A
slice of a waiting test starts 60 µs after the last one, for 40 µs, and a loopback run takes its link down; at the end of a slice a test
short of its patterns goes on, one at its last pattern is judged by its signature, and one cut short ends so; a loopback run counts the
frames that come back and goes on to its next port; a due plan entry on an eligible block starts its test. -/
def Obligations.LogWritesAndSelfTest : Prop :=
  ∀ (addr : Word) (b : Fin 34) (s : State),
    (flowWrites s = true → 0 < s.flow.front →
      Does (.flowstoneMramWrite true addr) s frontWritten ∧
      Does (.flowstoneMramWrite false addr) s (fun s => mediaFailure (s.flow.log[s.flow.log.length - s.flow.front]?) addr s)) ∧
    (flowWrites s = true → s.flow.front = 0 → s.flow.dirty = true → s.flow.open_ = none →
      (Completes (.repeatRewrite true addr) s fun t => t.flow.dirty = false ∧ t.flow.log = s.flow.log ∧ t.flow.rewritePs = some s.clk.ps) ∧
      Does (.repeatRewrite false addr) s (fun s => mediaFailure (newest s.flow) addr s)) ∧
    (∀ o, s.flow.open_ = some o → s.clk.running = true → Completes .recordClose s fun t => t.flow = { s.flow with open_ := none }) ∧
    (∀ t, s.test.tests = [t] → t.block = b.val → t.running = false → t.origin ≠ 2 → blockBusy s b.val = false → running s = true →
      (t.kind ≠ .loopback → Does (.stSliceStart b) s fun s =>
        let s := toPs (s.test.sliceEndPs + 60000000) s
        updTest (fun x => { x with statBlock := t.block, statSlices := t.slices })
          (putTest t { t with running := true, startPs := s.clk.ps, endPs := s.clk.ps + 40000 * 1000, loops := [] } s)) ∧
      (t.kind = .loopback → Does (.stSliceStart b) s fun s =>
        updTest (fun x => { x with statBlock := t.block, statSlices := t.slices })
          (putTest t { t with running := true, startPs := s.clk.ps, endPs := s.clk.ps + loopBound s t.block * 1000, loops := loopsOf s t.block }
            (loopDown t.block s)))) ∧
    (∀ (misr : BitVec 64) (lost : Nat) (ref : RefMeasure) t, runningTest s b.val = some t → t.kind = .logic → running s = true →
      let patterns := min (target t.block) (t.patterns + 16)
      let u : Test := { t with patterns := patterns, misr := misr, lost := t.lost + lost, slices := t.slices + 1, running := false }
      let ended (s : State) : State :=
        let s := toPs t.endPs s
        updTest (fun x => { x with sliceEndPs := s.clk.ps, sliceCount := sat 32 (x.sliceCount + 1), statSlices := u.slices }) (putTest t u s)
      (t.cut = none → patterns < target t.block → Does (.stSliceEnd b misr lost ref) s fun s => cutIneligible (ended s)) ∧
      (∀ cause, t.cut = some cause → Does (.stSliceEnd b misr lost ref) s fun s => cutTest cause u (ended s)) ∧
      (t.cut = none → patterns = target t.block → Does (.stSliceEnd b misr lost ref) s fun s =>
        let folded := Config.misrClock (misr ^^^ BitVec.ofNat 64 patterns)
        endTest { u with misr := folded } (folded == Config.signature s.part.code t.block) folded 0 0 0 (ended s))) ∧
    (∀ (returned i j : Nat) rest t, runningTest s b.val = some t → t.kind = .loopback → running s = true → t.loops = i :: j :: rest →
      Does (.loopbackEnd b returned) s (putTest t { t with
        loops := j :: rest, returned := t.returned + returned
        failed := if returned = 64 then t.failed else t.failed ||| BitVec.twoPow 16 i })) ∧
    (∀ (n : Fin 32) (e : PlanEntry) k, s.test.plan[n.val]? = some e → running s = true → s.store.service = true → e.block < 34 →
      blockPresent s.part e.block = true → kindOf e.kind = some k → s.test.tests = [] →
      (let u := nextDueAt n (toPs e.duePs (begin_ s))
       planRuns u = true ∧ entryRole u e = true ∧ eligibleTest u (!isStandby u) e.block k = true) →
      Does (.stPlanDue n) s fun s =>
        let s := nextDueAt n (toPs e.duePs s)
        updTest (fun x => { x with tests := x.tests ++ [newTest e.block k 2 none s] }) s)

/-! ### Network sleep, Park and wakes -/

/-- Sleep and wakes (R405, R406, R501, R506, R508 to R519, R520): each message of a network sleep has its effect at the units it concerns;
at the instant NET_SLEEP completes and the unit enters Park with the reasons that came too late; Park entry ends in Park or Deep Park with
the line clock stopped; an enabled reason wakes a parked unit, which resets with its reason latched, and one that is not enabled does
nothing. -/
def Obligations.SleepAndWakes : Prop :=
  ∀ (s : State),
    (∀ (rx : MgRx), Whole rx s → ForMe rx s →
      (∀ (id : BitVec 16) epoch, numbered s = true → epoch = s.survey.epoch → s.power.sleepTag = none →
        Does (.slProposeRx rx id epoch) s fun s => assertEdge 609 (logEvent 0xE0 srcNode (le 2 id.toNat)
          (updPower (fun p => { p with sleepPhase := 1, sleepId := id, voted := none, vetoDue := false, vetoPos := 0 })
            (handed rx (.slPropose id epoch) s)))) ∧
      (∀ m, isReference s = true → isActive s = true → s.power.sleepTag.isSome = true → m.sleepId = s.power.sleepId →
        Does (.slVoteRx rx m) s fun s => putVote m.position m.rank m.ready (handed rx (.slVote m) s)) ∧
      (∀ m, numbered s = true → m.epoch = s.survey.epoch → s.power.sleepTag = none → (s.power.sleepPhase = 0 → m.sleepId ≠ s.power.sleepId) →
        Does (.slInstantRx rx m) s fun s => assertEdge 610 (updPower (fun p => { p with
          sleepPhase := 2, sleepId := m.sleepId, instant := m.instant }) (handed rx (.slInstant m) s))) ∧
      (∀ m, numbered s = true → m.sleepId = s.power.sleepId → s.power.sleepPhase ≠ 0 → Does (.slVetoRx rx m) s fun s =>
        endNetSleep 0x80 (3 + m.position % 256 * 2 ^ 8) (endSleep (updPower (fun p => { p with vetoPos := m.position })
          (logEvent 0xE1 (srcPos m.position) (le 2 m.sleepId.toNat ++ le 2 (m.reasons.toNat % 65536)) (handed rx (.slVeto m) s))))) ∧
      (∀ (id : BitVec 16) cause, numbered s = true → id = s.power.sleepId → s.power.sleepPhase ≠ 0 → Does (.slCancelRx rx id cause) s fun s =>
        endSleep (logEvent 0xE2 srcNode (le 2 id.toNat ++ byte1 cause) (handed rx (.slCancel id cause) s)))) ∧
    (running s = true → s.power.sleepPhase = 2 → Does .sleepInstant s fun s =>
      let s := endNetSleep 0 s.power.instant (toLt (s.power.instant * unitsPerNs) s)
      updPower (fun p => { p with wakeLatch := p.wakeLatch ||| lateReasons s }) (parkEntry 2 1 s)) ∧
    (s.power.mode = .parking → s.power.wakeLatch.getLsbD 15 = false →
      Completes .parkEntryComplete s fun t => t.clk.running = false ∧ t.power.wakeLatch = s.power.wakeLatch ∧
        (s.power.parkTarget = 3 → t.power.mode = .deepPark ∧ t.power.domains = 1 ∧ t.power.islands = false) ∧
        (s.power.parkTarget ≠ 3 → t.power.mode = .park ∧ t.power.domains = 3 ∧ t.power.islands = true ∧ t.power.bypA = s.power.bypA)) ∧
    (s.power.mode = .park → s.power.parkLimit ≠ 0 → Completes .deepParkEntry s fun t =>
      t.power = { s.power with mode := .deepPark, domains := 1, islands := false, bypA := false, bypB := false }) ∧
    (s.power.mode = .park → s.store.rstLow = false →
      let woken (bit : Nat) (t : State) : Prop :=
        t.power.mode = .run ∧ t.power.wakeLatch = s.power.wakeLatch ||| BitVec.twoPow 32 bit ∧ t.power.waking = true ∧ t.power.wakeEn = s.power.wakeEn ∧
        t.store.cause = 5 ∧ t.store.released = false ∧ ∀ p : BPort, Out.wakePulse p ∈ t.out
      (reasonOn s 0 = true → Completes .lanternWake s (woken 0)) ∧
      (∀ p : BPort, s.power.islands = true → reasonOn s (if p.line = .a then 1 else 2) = true →
        Completes (.wakePulseDetect p) s (woken (if p.line = .a then 1 else 2))) ∧
      (∀ (k : Fin 4) f e, (canAt s k).decoder = true → e ∈ (canAt s k).wakeArmed → wakeMatches f e.2 = true → reasonOn s (3 + k.val) = true →
        Completes (.canWakeMatch k f) s (woken (3 + k.val))) ∧
      (∀ k : Fin 4, (canAt s k).decoder = true → reasonOn s (5 + k.val) = true → Completes (.canWakeErrors k) s (woken (5 + k.val)))) ∧
    (∀ level, Does (.lanternChange level) s fun s => readyTrack (updPower (fun p => { p with lantern := level }) s)) ∧
    (∀ k : Fin 4, (canAt s k).decoder = true → reasonOn s (5 + k.val) = false → Does (.canWakeErrors k) s id)

/-! ### Resets and the boot -/

/-- The reset sources (R521, R525, R528, R530): each starts its reset with its cause; a brown-out and a watchdog reset leave their record
in the Sump; RSTn low for 1 µs resets a running unit, holds a parked one, and is ignored below 100 ns; its rise wakes a parked unit; rails
that are not good turn WAKE_OUT off until 100 ms later. -/
def Obligations.ResetSourcesReset : Prop :=
  ∀ (s : State),
    (s.power.mode = .unpowered → Does .powerOn s (startReset 1 true)) ∧
    (Completes .powerLoss s fun t => t.power.mode = .unpowered ∧ t.power.wakeOut = false ∧ t.power.domains = 0 ∧
      t.flow.log = mramLog s.flow ∧ t.flow.sump = [] ∧ t.store.slots = s.store.slots ∧ t.clk.running = false) ∧
    (∀ rails : BitVec 3, rails ≠ 0 → s.store.released = true → s.power.mode = .run ∨ s.power.mode = .doze →
      Does (.brownOut rails) s fun s => startReset 4 false (sumpEvent 0xE8 [rails.setWidth 8] s)) ∧
    (∀ core : Fin 4, s.twin.watchdog = true → s.store.released = true →
      Does (.watchdogReset core) s fun s => startReset 3 false
        (sumpEvent 0xF7 (byte1 core) (toPs (s.twin.firedPs + 20 * 10 ^ 9) s))) ∧
    (∀ width, width < 100 → Does (.rstnLow width) s id) ∧
    (∀ width, 1000 ≤ width → s.store.rstLow = false →
      (s.power.mode = .run ∨ s.power.mode = .doze → Completes (.rstnLow width) s fun t =>
        t.store.cause = 2 ∧ t.store.rstLow = true ∧ t.store.released = false ∧ t.power.wakeLatch = BitVec.twoPow 32 12 ∧
        t.power.wakeEn = s.power.wakeEn ∧ t.flow.sump = s.flow.sump ∧ t.survey.position = 0) ∧
      (s.power.mode = .park ∨ s.power.mode = .deepPark → Completes (.rstnLow width) s fun t =>
        t.power = { s.power with bypA := false, bypB := false } ∧ t.store = { s.store with rstLow := true } ∧ t.flow = s.flow)) ∧
    (s.store.rstLow = true →
      (s.power.mode ≠ .park → s.power.mode ≠ .deepPark → Does .rstnRise s fun s => { s with store := { s.store with rstLow := false } }) ∧
      (s.power.mode = .park → Completes .rstnRise s fun t =>
        t.power.mode = .run ∧ t.power.wakeLatch = s.power.wakeLatch ||| BitVec.twoPow 32 12 ∧ t.store.cause = 5 ∧ t.store.rstLow = false)) ∧
    (∀ rails : BitVec 3, rails ≠ 0 → s.power.mode = .run → s.store.released = false → s.power.railHold = false →
      Does (.railTimeout rails) s fun s =>
        let s := toPs (s.power.railPs + 10 * 10 ^ 9) s
        updPower (fun p => { p with railHold := true, wakeOut := false, railPs := s.clk.ps }) (sumpEvent 0xE8 [rails.setWidth 8] s)) ∧
    (s.power.mode = .run → s.store.released = false → s.power.railHold = true → Completes .railRetry s fun t =>
      t.power = { s.power with railHold := false, wakeOut := true, railPs := max s.clk.ps (s.power.railPs + 10 ^ 11) } ∧
        t.clk.ps = max s.clk.ps (s.power.railPs + 10 ^ 11))

/-- What a reset keeps and what starts again (R528, R529): MRAM holds the log, the image slots, the stored life-cycle state, the
quarantine bits and the keys; PD0 keeps the Sump, SEQ_NEXT, WAKE_EN and WAKE_LATCH except at power-on; the node is in Run, unnumbered,
without an epoch, with every queue disabled, no learned address and no station; line time starts at the floor, and MAINTENANCE falls back
to FIELD. Service begins when the boot completes, and the Survey with it (R531). -/
def Obligations.ResetsKeepMram : Prop :=
  ∀ (cause : Nat) (s : State),
    (∀ powerOn,
      let t := startReset cause powerOn s
      t.flow.log = mramLog s.flow ∧ t.store.slots = s.store.slots ∧ t.test.copies = s.test.copies ∧
      t.test.quarantine = s.test.quarantine ∧ t.test.keys = s.test.keys ∧ t.store.cause = cause ∧ t.power.mode = .run ∧
      t.survey.position = 0 ∧ t.survey.epoch = 0xFF ∧ t.survey.lastEpoch = none ∧ t.survey.record = none ∧
      (∀ q ∈ t.cmdq.sqs, q.state = .disabled) ∧ (∀ q ∈ t.cmdq.cqs, q.state = .disabled) ∧ t.cmdq.inflight = [] ∧
      (∀ p ∈ t.car, p.learned = none) ∧ (∀ m ∈ t.md, m.stations = []) ∧ t.store.released = false ∧ t.clk.running = false) ∧
    (let t := startReset cause false s
     t.flow.sump = s.flow.sump ∧ t.flow.seqNext = s.flow.seqNext ∧ t.power.wakeEn = s.power.wakeEn ∧ t.power.wakeLatch = s.power.wakeLatch) ∧
    (let t := startReset cause true s
     t.flow.sump = [] ∧ t.flow.seqNext = 0 ∧ t.power.wakeEn = 0x7FF ∧ t.power.wakeLatch = 0x800) ∧
    (∀ straps : Straps, (releaseReset straps s).clk.lt = floorNs s.flow * unitsPerNs ∧ (releaseReset straps s).clk.running = true) ∧
    ((readLifeCycle s).test.lc ≠ 4 ∧ (∀ c, storedLc s.test.copies = some c → (readLifeCycle s).test.lc = c) ∧
      (storedLc s.test.copies = none → (readLifeCycle s).test.lc = 3)) ∧
    (∀ (straps : Straps) (failed : BitVec 34), s.store.released = false → s.store.rstLow = false → s.power.railHold = false →
      s.power.mode = .run →
      let u := bootTests failed (readLifeCycle (readLog (quarantined (releaseReset straps (begin_ s)) 32) (releaseReset straps (begin_ s))))
      (u.test.dark = none → Does (.resetRelease straps failed) s fun s =>
        let u := bootTests failed (readLifeCycle (readLog (quarantined (releaseReset straps s) 32) (releaseReset straps s)))
        let v := updStore (fun x => { x with step := 8 }) (bootRecords (applyImage (chooseImage u)))
        { v with time := { v.time with cycle := cycleNow v } }) ∧
      (u.test.dark ≠ none → Does (.resetRelease straps failed) s fun s =>
        bootTests failed (readLifeCycle (readLog (quarantined (releaseReset straps s) 32) (releaseReset straps s))))) ∧
    (running s = true → s.store.service = false → s.store.step = 8 → Does .bootComplete s fun s =>
      let u := draw { s with
        store := { s.store with service := true, step := 9 }
        survey := { s.survey with state := .listen, nonce := (drawn s).setWidth 32 } }
      startRole (updTest (fun x => { x with plan := x.plan.map fun e => { e with duePs := u.clk.ps + e.period * 10 ^ 12 } }) u))

/-! ### After reset -/

/-- After reset every register of the window that the spec gives a reset value reads it (R55 to R59, R166, R451, R475, R498, R525, R553 to
R557), those of ID_REV and DOMAINS for the part that the model starts as (log 1); memory lists nothing, no command waits, the routing
table is empty and the requests stand (R443, R449). -/
def Obligations.ResetValuesAreTheSpecs : Prop :=
  readReg State.reset 0x04 = 0 ∧ readReg State.reset 0x08 = 0xFF000000 ∧ readReg State.reset 0x0C = 0x1E010000 ∧
  readReg State.reset 0x10 = 0 ∧ readReg State.reset 0x14 = 0 ∧ readReg State.reset 0x18 = 0 ∧
  (∀ q : Fin 8, readReg State.reset (0x1008 + 0x40 * q) = 4 ∧ readReg State.reset (0x100C + 0x40 * q) = 0 ∧
    (q.val < 6 → readReg State.reset (0x1000 + 0x40 * q) = 0 ∧ readReg State.reset (0x1004 + 0x40 * q) = 0)) ∧
  (∀ m : Fin 4, readReg State.reset (0x1208 + 0x40 * m) = 4 ∧ readReg State.reset (0x120C + 0x40 * m) = 0x800) ∧
  (∀ t : Fin 16, readReg State.reset (0x12000 + 0x20 * t) = 0 ∧ readReg State.reset (0x1200C + 0x20 * t) = 0) ∧
  (∀ id, 1 ≤ id → id ≤ 640 → readReg State.reset (0x11000 + 4 * id) = 0) ∧
  readReg State.reset 0x13000 = 0 ∧ readReg State.reset 0x13004 = 0 ∧
  readReg State.reset 0x20004 = 0 ∧ readReg State.reset 0x20024 = 0xFFFF ∧ readReg State.reset 0x20028 = 0 ∧
  readReg State.reset 0x2002C = 0 ∧ readReg State.reset 0x20030 = 0 ∧ readReg State.reset 0x20038 = 0 ∧ readReg State.reset 0x20040 = 0 ∧
  readReg State.reset 0x30000 = 0x80000000 ∧ readReg State.reset 0x3000C = 0 ∧ readReg State.reset 0x30200 = 0 ∧
  readReg State.reset 0x4000C = 0 ∧ readReg State.reset 0x40010 = 0 ∧ readReg State.reset 0x40014 = 0 ∧ readReg State.reset 0x40018 = 0 ∧
  readReg State.reset 0x50000 = 0x3FFD ∧ readReg State.reset 0x50004 = 0x7FF ∧ readReg State.reset 0x50008 = 0x800 ∧
  readReg State.reset 0x50010 = 0 ∧ readReg State.reset 0x50014 = 0 ∧
  State.reset.ram = [] ∧ State.reset.ram.wf = true ∧ State.reset.pending = [] ∧ State.reset.power.mode = .run ∧
  RequestsStand State.reset ∧ RoutingOk State.reset ∧ State.reset.router.cfg = [] ∧
  ∀ x ∈ State.reset.router.targets, x.stack = [] ∧ x.request = false
end

