-- ==== Sys2Proof/Laws/State.lean ====
section
/-! SUPPORT. One lemma for each field of State and each named update: what the update makes of the field. -/

set_option Elab.async false

namespace Sys2Proof.Machine

/-! `begin_` -/

@[simp] theorem begin__part (s : State) : (begin_ s).part = s.part := rfl
@[simp] theorem begin__minor (s : State) : (begin_ s).minor = s.minor := rfl
@[simp] theorem begin__clk (s : State) : (begin_ s).clk = s.clk := rfl
@[simp] theorem begin__cmdq (s : State) : (begin_ s).cmdq = s.cmdq := rfl
@[simp] theorem begin__time (s : State) : (begin_ s).time = s.time := rfl
@[simp] theorem begin__echo (s : State) : (begin_ s).echo = s.echo := rfl
@[simp] theorem begin__survey (s : State) : (begin_ s).survey = s.survey := rfl
@[simp] theorem begin__reform (s : State) : (begin_ s).reform = s.reform := rfl
@[simp] theorem begin__gallery (s : State) : (begin_ s).gallery = s.gallery := rfl
@[simp] theorem begin__planner (s : State) : (begin_ s).planner = s.planner := rfl
@[simp] theorem begin__vsu (s : State) : (begin_ s).vsu = s.vsu := rfl
@[simp] theorem begin__bb (s : State) : (begin_ s).bb = s.bb := rfl
@[simp] theorem begin__car (s : State) : (begin_ s).car = s.car := rfl
@[simp] theorem begin__rings (s : State) : (begin_ s).rings = s.rings := rfl
@[simp] theorem begin__md (s : State) : (begin_ s).md = s.md := rfl
@[simp] theorem begin__can (s : State) : (begin_ s).can = s.can := rfl
@[simp] theorem begin__twin (s : State) : (begin_ s).twin = s.twin := rfl
@[simp] theorem begin__router (s : State) : (begin_ s).router = s.router := rfl
@[simp] theorem begin__flow (s : State) : (begin_ s).flow = s.flow := rfl
@[simp] theorem begin__test (s : State) : (begin_ s).test = s.test := rfl
@[simp] theorem begin__power (s : State) : (begin_ s).power = s.power := rfl
@[simp] theorem begin__store (s : State) : (begin_ s).store = s.store := rfl
@[simp] theorem begin__regs (s : State) : (begin_ s).regs = s.regs := rfl
@[simp] theorem begin__ram (s : State) : (begin_ s).ram = s.ram := rfl
@[simp] theorem begin__out (s : State) : (begin_ s).out = [] := rfl
@[simp] theorem begin__pending (s : State) : (begin_ s).pending = s.pending := rfl

/-! `emit` -/

@[simp] theorem emit_part (o : Out) (s : State) : (emit o s).part = s.part := rfl
@[simp] theorem emit_minor (o : Out) (s : State) : (emit o s).minor = s.minor := rfl
@[simp] theorem emit_clk (o : Out) (s : State) : (emit o s).clk = s.clk := rfl
@[simp] theorem emit_cmdq (o : Out) (s : State) : (emit o s).cmdq = s.cmdq := rfl
@[simp] theorem emit_time (o : Out) (s : State) : (emit o s).time = s.time := rfl
@[simp] theorem emit_echo (o : Out) (s : State) : (emit o s).echo = s.echo := rfl
@[simp] theorem emit_survey (o : Out) (s : State) : (emit o s).survey = s.survey := rfl
@[simp] theorem emit_reform (o : Out) (s : State) : (emit o s).reform = s.reform := rfl
@[simp] theorem emit_gallery (o : Out) (s : State) : (emit o s).gallery = s.gallery := rfl
@[simp] theorem emit_planner (o : Out) (s : State) : (emit o s).planner = s.planner := rfl
@[simp] theorem emit_vsu (o : Out) (s : State) : (emit o s).vsu = s.vsu := rfl
@[simp] theorem emit_bb (o : Out) (s : State) : (emit o s).bb = s.bb := rfl
@[simp] theorem emit_car (o : Out) (s : State) : (emit o s).car = s.car := rfl
@[simp] theorem emit_rings (o : Out) (s : State) : (emit o s).rings = s.rings := rfl
@[simp] theorem emit_md (o : Out) (s : State) : (emit o s).md = s.md := rfl
@[simp] theorem emit_can (o : Out) (s : State) : (emit o s).can = s.can := rfl
@[simp] theorem emit_twin (o : Out) (s : State) : (emit o s).twin = s.twin := rfl
@[simp] theorem emit_router (o : Out) (s : State) : (emit o s).router = s.router := rfl
@[simp] theorem emit_flow (o : Out) (s : State) : (emit o s).flow = s.flow := rfl
@[simp] theorem emit_test (o : Out) (s : State) : (emit o s).test = s.test := rfl
@[simp] theorem emit_power (o : Out) (s : State) : (emit o s).power = s.power := rfl
@[simp] theorem emit_store (o : Out) (s : State) : (emit o s).store = s.store := rfl
@[simp] theorem emit_regs (o : Out) (s : State) : (emit o s).regs = s.regs := rfl
@[simp] theorem emit_ram (o : Out) (s : State) : (emit o s).ram = s.ram := rfl
@[simp] theorem emit_out (o : Out) (s : State) : (emit o s).out = s.out ++ [o] := rfl
@[simp] theorem emit_pending (o : Out) (s : State) : (emit o s).pending = s.pending := rfl

/-! `draw` -/

@[simp] theorem draw_part (s : State) : (draw s).part = s.part := rfl
@[simp] theorem draw_minor (s : State) : (draw s).minor = s.minor := rfl
@[simp] theorem draw_clk (s : State) : (draw s).clk = { s.clk with draws := s.clk.draws + 1 } := rfl
@[simp] theorem draw_cmdq (s : State) : (draw s).cmdq = s.cmdq := rfl
@[simp] theorem draw_time (s : State) : (draw s).time = s.time := rfl
@[simp] theorem draw_echo (s : State) : (draw s).echo = s.echo := rfl
@[simp] theorem draw_survey (s : State) : (draw s).survey = s.survey := rfl
@[simp] theorem draw_reform (s : State) : (draw s).reform = s.reform := rfl
@[simp] theorem draw_gallery (s : State) : (draw s).gallery = s.gallery := rfl
@[simp] theorem draw_planner (s : State) : (draw s).planner = s.planner := rfl
@[simp] theorem draw_vsu (s : State) : (draw s).vsu = s.vsu := rfl
@[simp] theorem draw_bb (s : State) : (draw s).bb = s.bb := rfl
@[simp] theorem draw_car (s : State) : (draw s).car = s.car := rfl
@[simp] theorem draw_rings (s : State) : (draw s).rings = s.rings := rfl
@[simp] theorem draw_md (s : State) : (draw s).md = s.md := rfl
@[simp] theorem draw_can (s : State) : (draw s).can = s.can := rfl
@[simp] theorem draw_twin (s : State) : (draw s).twin = s.twin := rfl
@[simp] theorem draw_router (s : State) : (draw s).router = s.router := rfl
@[simp] theorem draw_flow (s : State) : (draw s).flow = s.flow := rfl
@[simp] theorem draw_test (s : State) : (draw s).test = s.test := rfl
@[simp] theorem draw_power (s : State) : (draw s).power = s.power := rfl
@[simp] theorem draw_store (s : State) : (draw s).store = s.store := rfl
@[simp] theorem draw_regs (s : State) : (draw s).regs = s.regs := rfl
@[simp] theorem draw_ram (s : State) : (draw s).ram = s.ram := rfl
@[simp] theorem draw_out (s : State) : (draw s).out = s.out := rfl
@[simp] theorem draw_pending (s : State) : (draw s).pending = s.pending := rfl

/-! `setCar` -/

@[simp] theorem setCar_part (n : Nat) (f : CarPort → CarPort) (s : State) : (setCar n f s).part = s.part := rfl
@[simp] theorem setCar_minor (n : Nat) (f : CarPort → CarPort) (s : State) : (setCar n f s).minor = s.minor := rfl
@[simp] theorem setCar_clk (n : Nat) (f : CarPort → CarPort) (s : State) : (setCar n f s).clk = s.clk := rfl
@[simp] theorem setCar_cmdq (n : Nat) (f : CarPort → CarPort) (s : State) : (setCar n f s).cmdq = s.cmdq := rfl
@[simp] theorem setCar_time (n : Nat) (f : CarPort → CarPort) (s : State) : (setCar n f s).time = s.time := rfl
@[simp] theorem setCar_echo (n : Nat) (f : CarPort → CarPort) (s : State) : (setCar n f s).echo = s.echo := rfl
@[simp] theorem setCar_survey (n : Nat) (f : CarPort → CarPort) (s : State) : (setCar n f s).survey = s.survey := rfl
@[simp] theorem setCar_reform (n : Nat) (f : CarPort → CarPort) (s : State) : (setCar n f s).reform = s.reform := rfl
@[simp] theorem setCar_gallery (n : Nat) (f : CarPort → CarPort) (s : State) : (setCar n f s).gallery = s.gallery := rfl
@[simp] theorem setCar_planner (n : Nat) (f : CarPort → CarPort) (s : State) : (setCar n f s).planner = s.planner := rfl
@[simp] theorem setCar_vsu (n : Nat) (f : CarPort → CarPort) (s : State) : (setCar n f s).vsu = s.vsu := rfl
@[simp] theorem setCar_bb (n : Nat) (f : CarPort → CarPort) (s : State) : (setCar n f s).bb = s.bb := rfl
@[simp] theorem setCar_car (n : Nat) (f : CarPort → CarPort) (s : State) : (setCar n f s).car = s.car.modify n f := rfl
@[simp] theorem setCar_rings (n : Nat) (f : CarPort → CarPort) (s : State) : (setCar n f s).rings = s.rings := rfl
@[simp] theorem setCar_md (n : Nat) (f : CarPort → CarPort) (s : State) : (setCar n f s).md = s.md := rfl
@[simp] theorem setCar_can (n : Nat) (f : CarPort → CarPort) (s : State) : (setCar n f s).can = s.can := rfl
@[simp] theorem setCar_twin (n : Nat) (f : CarPort → CarPort) (s : State) : (setCar n f s).twin = s.twin := rfl
@[simp] theorem setCar_router (n : Nat) (f : CarPort → CarPort) (s : State) : (setCar n f s).router = s.router := rfl
@[simp] theorem setCar_flow (n : Nat) (f : CarPort → CarPort) (s : State) : (setCar n f s).flow = s.flow := rfl
@[simp] theorem setCar_test (n : Nat) (f : CarPort → CarPort) (s : State) : (setCar n f s).test = s.test := rfl
@[simp] theorem setCar_power (n : Nat) (f : CarPort → CarPort) (s : State) : (setCar n f s).power = s.power := rfl
@[simp] theorem setCar_store (n : Nat) (f : CarPort → CarPort) (s : State) : (setCar n f s).store = s.store := rfl
@[simp] theorem setCar_regs (n : Nat) (f : CarPort → CarPort) (s : State) : (setCar n f s).regs = s.regs := rfl
@[simp] theorem setCar_ram (n : Nat) (f : CarPort → CarPort) (s : State) : (setCar n f s).ram = s.ram := rfl
@[simp] theorem setCar_out (n : Nat) (f : CarPort → CarPort) (s : State) : (setCar n f s).out = s.out := rfl
@[simp] theorem setCar_pending (n : Nat) (f : CarPort → CarPort) (s : State) : (setCar n f s).pending = s.pending := rfl

/-! `setBb` -/

@[simp] theorem setBb_part (p : BPort) (f : BbPort → BbPort) (s : State) : (setBb p f s).part = s.part := rfl
@[simp] theorem setBb_minor (p : BPort) (f : BbPort → BbPort) (s : State) : (setBb p f s).minor = s.minor := rfl
@[simp] theorem setBb_clk (p : BPort) (f : BbPort → BbPort) (s : State) : (setBb p f s).clk = s.clk := rfl
@[simp] theorem setBb_cmdq (p : BPort) (f : BbPort → BbPort) (s : State) : (setBb p f s).cmdq = s.cmdq := rfl
@[simp] theorem setBb_time (p : BPort) (f : BbPort → BbPort) (s : State) : (setBb p f s).time = s.time := rfl
@[simp] theorem setBb_echo (p : BPort) (f : BbPort → BbPort) (s : State) : (setBb p f s).echo = s.echo := rfl
@[simp] theorem setBb_survey (p : BPort) (f : BbPort → BbPort) (s : State) : (setBb p f s).survey = s.survey := rfl
@[simp] theorem setBb_reform (p : BPort) (f : BbPort → BbPort) (s : State) : (setBb p f s).reform = s.reform := rfl
@[simp] theorem setBb_gallery (p : BPort) (f : BbPort → BbPort) (s : State) : (setBb p f s).gallery = s.gallery := rfl
@[simp] theorem setBb_planner (p : BPort) (f : BbPort → BbPort) (s : State) : (setBb p f s).planner = s.planner := rfl
@[simp] theorem setBb_vsu (p : BPort) (f : BbPort → BbPort) (s : State) : (setBb p f s).vsu = s.vsu := rfl
@[simp] theorem setBb_bb (p : BPort) (f : BbPort → BbPort) (s : State) : (setBb p f s).bb = s.bb.modify p.idx f := rfl
@[simp] theorem setBb_car (p : BPort) (f : BbPort → BbPort) (s : State) : (setBb p f s).car = s.car := rfl
@[simp] theorem setBb_rings (p : BPort) (f : BbPort → BbPort) (s : State) : (setBb p f s).rings = s.rings := rfl
@[simp] theorem setBb_md (p : BPort) (f : BbPort → BbPort) (s : State) : (setBb p f s).md = s.md := rfl
@[simp] theorem setBb_can (p : BPort) (f : BbPort → BbPort) (s : State) : (setBb p f s).can = s.can := rfl
@[simp] theorem setBb_twin (p : BPort) (f : BbPort → BbPort) (s : State) : (setBb p f s).twin = s.twin := rfl
@[simp] theorem setBb_router (p : BPort) (f : BbPort → BbPort) (s : State) : (setBb p f s).router = s.router := rfl
@[simp] theorem setBb_flow (p : BPort) (f : BbPort → BbPort) (s : State) : (setBb p f s).flow = s.flow := rfl
@[simp] theorem setBb_test (p : BPort) (f : BbPort → BbPort) (s : State) : (setBb p f s).test = s.test := rfl
@[simp] theorem setBb_power (p : BPort) (f : BbPort → BbPort) (s : State) : (setBb p f s).power = s.power := rfl
@[simp] theorem setBb_store (p : BPort) (f : BbPort → BbPort) (s : State) : (setBb p f s).store = s.store := rfl
@[simp] theorem setBb_regs (p : BPort) (f : BbPort → BbPort) (s : State) : (setBb p f s).regs = s.regs := rfl
@[simp] theorem setBb_ram (p : BPort) (f : BbPort → BbPort) (s : State) : (setBb p f s).ram = s.ram := rfl
@[simp] theorem setBb_out (p : BPort) (f : BbPort → BbPort) (s : State) : (setBb p f s).out = s.out := rfl
@[simp] theorem setBb_pending (p : BPort) (f : BbPort → BbPort) (s : State) : (setBb p f s).pending = s.pending := rfl

/-! `setEcho` -/

@[simp] theorem setEcho_part (p : BPort) (f : EchoPort → EchoPort) (s : State) : (setEcho p f s).part = s.part := rfl
@[simp] theorem setEcho_minor (p : BPort) (f : EchoPort → EchoPort) (s : State) : (setEcho p f s).minor = s.minor := rfl
@[simp] theorem setEcho_clk (p : BPort) (f : EchoPort → EchoPort) (s : State) : (setEcho p f s).clk = s.clk := rfl
@[simp] theorem setEcho_cmdq (p : BPort) (f : EchoPort → EchoPort) (s : State) : (setEcho p f s).cmdq = s.cmdq := rfl
@[simp] theorem setEcho_time (p : BPort) (f : EchoPort → EchoPort) (s : State) : (setEcho p f s).time = s.time := rfl
@[simp] theorem setEcho_echo (p : BPort) (f : EchoPort → EchoPort) (s : State) : (setEcho p f s).echo = s.echo.modify p.idx f := rfl
@[simp] theorem setEcho_survey (p : BPort) (f : EchoPort → EchoPort) (s : State) : (setEcho p f s).survey = s.survey := rfl
@[simp] theorem setEcho_reform (p : BPort) (f : EchoPort → EchoPort) (s : State) : (setEcho p f s).reform = s.reform := rfl
@[simp] theorem setEcho_gallery (p : BPort) (f : EchoPort → EchoPort) (s : State) : (setEcho p f s).gallery = s.gallery := rfl
@[simp] theorem setEcho_planner (p : BPort) (f : EchoPort → EchoPort) (s : State) : (setEcho p f s).planner = s.planner := rfl
@[simp] theorem setEcho_vsu (p : BPort) (f : EchoPort → EchoPort) (s : State) : (setEcho p f s).vsu = s.vsu := rfl
@[simp] theorem setEcho_bb (p : BPort) (f : EchoPort → EchoPort) (s : State) : (setEcho p f s).bb = s.bb := rfl
@[simp] theorem setEcho_car (p : BPort) (f : EchoPort → EchoPort) (s : State) : (setEcho p f s).car = s.car := rfl
@[simp] theorem setEcho_rings (p : BPort) (f : EchoPort → EchoPort) (s : State) : (setEcho p f s).rings = s.rings := rfl
@[simp] theorem setEcho_md (p : BPort) (f : EchoPort → EchoPort) (s : State) : (setEcho p f s).md = s.md := rfl
@[simp] theorem setEcho_can (p : BPort) (f : EchoPort → EchoPort) (s : State) : (setEcho p f s).can = s.can := rfl
@[simp] theorem setEcho_twin (p : BPort) (f : EchoPort → EchoPort) (s : State) : (setEcho p f s).twin = s.twin := rfl
@[simp] theorem setEcho_router (p : BPort) (f : EchoPort → EchoPort) (s : State) : (setEcho p f s).router = s.router := rfl
@[simp] theorem setEcho_flow (p : BPort) (f : EchoPort → EchoPort) (s : State) : (setEcho p f s).flow = s.flow := rfl
@[simp] theorem setEcho_test (p : BPort) (f : EchoPort → EchoPort) (s : State) : (setEcho p f s).test = s.test := rfl
@[simp] theorem setEcho_power (p : BPort) (f : EchoPort → EchoPort) (s : State) : (setEcho p f s).power = s.power := rfl
@[simp] theorem setEcho_store (p : BPort) (f : EchoPort → EchoPort) (s : State) : (setEcho p f s).store = s.store := rfl
@[simp] theorem setEcho_regs (p : BPort) (f : EchoPort → EchoPort) (s : State) : (setEcho p f s).regs = s.regs := rfl
@[simp] theorem setEcho_ram (p : BPort) (f : EchoPort → EchoPort) (s : State) : (setEcho p f s).ram = s.ram := rfl
@[simp] theorem setEcho_out (p : BPort) (f : EchoPort → EchoPort) (s : State) : (setEcho p f s).out = s.out := rfl
@[simp] theorem setEcho_pending (p : BPort) (f : EchoPort → EchoPort) (s : State) : (setEcho p f s).pending = s.pending := rfl

/-! `setNeigh` -/

@[simp] theorem setNeigh_part (p : BPort) (f : NeighPort → NeighPort) (s : State) : (setNeigh p f s).part = s.part := rfl
@[simp] theorem setNeigh_minor (p : BPort) (f : NeighPort → NeighPort) (s : State) : (setNeigh p f s).minor = s.minor := rfl
@[simp] theorem setNeigh_clk (p : BPort) (f : NeighPort → NeighPort) (s : State) : (setNeigh p f s).clk = s.clk := rfl
@[simp] theorem setNeigh_cmdq (p : BPort) (f : NeighPort → NeighPort) (s : State) : (setNeigh p f s).cmdq = s.cmdq := rfl
@[simp] theorem setNeigh_time (p : BPort) (f : NeighPort → NeighPort) (s : State) : (setNeigh p f s).time = s.time := rfl
@[simp] theorem setNeigh_echo (p : BPort) (f : NeighPort → NeighPort) (s : State) : (setNeigh p f s).echo = s.echo := rfl
@[simp] theorem setNeigh_survey (p : BPort) (f : NeighPort → NeighPort) (s : State) : (setNeigh p f s).survey = { s.survey with ports := s.survey.ports.modify p.idx f } := rfl
@[simp] theorem setNeigh_reform (p : BPort) (f : NeighPort → NeighPort) (s : State) : (setNeigh p f s).reform = s.reform := rfl
@[simp] theorem setNeigh_gallery (p : BPort) (f : NeighPort → NeighPort) (s : State) : (setNeigh p f s).gallery = s.gallery := rfl
@[simp] theorem setNeigh_planner (p : BPort) (f : NeighPort → NeighPort) (s : State) : (setNeigh p f s).planner = s.planner := rfl
@[simp] theorem setNeigh_vsu (p : BPort) (f : NeighPort → NeighPort) (s : State) : (setNeigh p f s).vsu = s.vsu := rfl
@[simp] theorem setNeigh_bb (p : BPort) (f : NeighPort → NeighPort) (s : State) : (setNeigh p f s).bb = s.bb := rfl
@[simp] theorem setNeigh_car (p : BPort) (f : NeighPort → NeighPort) (s : State) : (setNeigh p f s).car = s.car := rfl
@[simp] theorem setNeigh_rings (p : BPort) (f : NeighPort → NeighPort) (s : State) : (setNeigh p f s).rings = s.rings := rfl
@[simp] theorem setNeigh_md (p : BPort) (f : NeighPort → NeighPort) (s : State) : (setNeigh p f s).md = s.md := rfl
@[simp] theorem setNeigh_can (p : BPort) (f : NeighPort → NeighPort) (s : State) : (setNeigh p f s).can = s.can := rfl
@[simp] theorem setNeigh_twin (p : BPort) (f : NeighPort → NeighPort) (s : State) : (setNeigh p f s).twin = s.twin := rfl
@[simp] theorem setNeigh_router (p : BPort) (f : NeighPort → NeighPort) (s : State) : (setNeigh p f s).router = s.router := rfl
@[simp] theorem setNeigh_flow (p : BPort) (f : NeighPort → NeighPort) (s : State) : (setNeigh p f s).flow = s.flow := rfl
@[simp] theorem setNeigh_test (p : BPort) (f : NeighPort → NeighPort) (s : State) : (setNeigh p f s).test = s.test := rfl
@[simp] theorem setNeigh_power (p : BPort) (f : NeighPort → NeighPort) (s : State) : (setNeigh p f s).power = s.power := rfl
@[simp] theorem setNeigh_store (p : BPort) (f : NeighPort → NeighPort) (s : State) : (setNeigh p f s).store = s.store := rfl
@[simp] theorem setNeigh_regs (p : BPort) (f : NeighPort → NeighPort) (s : State) : (setNeigh p f s).regs = s.regs := rfl
@[simp] theorem setNeigh_ram (p : BPort) (f : NeighPort → NeighPort) (s : State) : (setNeigh p f s).ram = s.ram := rfl
@[simp] theorem setNeigh_out (p : BPort) (f : NeighPort → NeighPort) (s : State) : (setNeigh p f s).out = s.out := rfl
@[simp] theorem setNeigh_pending (p : BPort) (f : NeighPort → NeighPort) (s : State) : (setNeigh p f s).pending = s.pending := rfl

/-! `setMd` -/

@[simp] theorem setMd_part (n : Nat) (f : MdSeg → MdSeg) (s : State) : (setMd n f s).part = s.part := rfl
@[simp] theorem setMd_minor (n : Nat) (f : MdSeg → MdSeg) (s : State) : (setMd n f s).minor = s.minor := rfl
@[simp] theorem setMd_clk (n : Nat) (f : MdSeg → MdSeg) (s : State) : (setMd n f s).clk = s.clk := rfl
@[simp] theorem setMd_cmdq (n : Nat) (f : MdSeg → MdSeg) (s : State) : (setMd n f s).cmdq = s.cmdq := rfl
@[simp] theorem setMd_time (n : Nat) (f : MdSeg → MdSeg) (s : State) : (setMd n f s).time = s.time := rfl
@[simp] theorem setMd_echo (n : Nat) (f : MdSeg → MdSeg) (s : State) : (setMd n f s).echo = s.echo := rfl
@[simp] theorem setMd_survey (n : Nat) (f : MdSeg → MdSeg) (s : State) : (setMd n f s).survey = s.survey := rfl
@[simp] theorem setMd_reform (n : Nat) (f : MdSeg → MdSeg) (s : State) : (setMd n f s).reform = s.reform := rfl
@[simp] theorem setMd_gallery (n : Nat) (f : MdSeg → MdSeg) (s : State) : (setMd n f s).gallery = s.gallery := rfl
@[simp] theorem setMd_planner (n : Nat) (f : MdSeg → MdSeg) (s : State) : (setMd n f s).planner = s.planner := rfl
@[simp] theorem setMd_vsu (n : Nat) (f : MdSeg → MdSeg) (s : State) : (setMd n f s).vsu = s.vsu := rfl
@[simp] theorem setMd_bb (n : Nat) (f : MdSeg → MdSeg) (s : State) : (setMd n f s).bb = s.bb := rfl
@[simp] theorem setMd_car (n : Nat) (f : MdSeg → MdSeg) (s : State) : (setMd n f s).car = s.car := rfl
@[simp] theorem setMd_rings (n : Nat) (f : MdSeg → MdSeg) (s : State) : (setMd n f s).rings = s.rings := rfl
@[simp] theorem setMd_md (n : Nat) (f : MdSeg → MdSeg) (s : State) : (setMd n f s).md = s.md.modify n f := rfl
@[simp] theorem setMd_can (n : Nat) (f : MdSeg → MdSeg) (s : State) : (setMd n f s).can = s.can := rfl
@[simp] theorem setMd_twin (n : Nat) (f : MdSeg → MdSeg) (s : State) : (setMd n f s).twin = s.twin := rfl
@[simp] theorem setMd_router (n : Nat) (f : MdSeg → MdSeg) (s : State) : (setMd n f s).router = s.router := rfl
@[simp] theorem setMd_flow (n : Nat) (f : MdSeg → MdSeg) (s : State) : (setMd n f s).flow = s.flow := rfl
@[simp] theorem setMd_test (n : Nat) (f : MdSeg → MdSeg) (s : State) : (setMd n f s).test = s.test := rfl
@[simp] theorem setMd_power (n : Nat) (f : MdSeg → MdSeg) (s : State) : (setMd n f s).power = s.power := rfl
@[simp] theorem setMd_store (n : Nat) (f : MdSeg → MdSeg) (s : State) : (setMd n f s).store = s.store := rfl
@[simp] theorem setMd_regs (n : Nat) (f : MdSeg → MdSeg) (s : State) : (setMd n f s).regs = s.regs := rfl
@[simp] theorem setMd_ram (n : Nat) (f : MdSeg → MdSeg) (s : State) : (setMd n f s).ram = s.ram := rfl
@[simp] theorem setMd_out (n : Nat) (f : MdSeg → MdSeg) (s : State) : (setMd n f s).out = s.out := rfl
@[simp] theorem setMd_pending (n : Nat) (f : MdSeg → MdSeg) (s : State) : (setMd n f s).pending = s.pending := rfl

/-! `setCan` -/

@[simp] theorem setCan_part (n : Nat) (f : CanCtl → CanCtl) (s : State) : (setCan n f s).part = s.part := rfl
@[simp] theorem setCan_minor (n : Nat) (f : CanCtl → CanCtl) (s : State) : (setCan n f s).minor = s.minor := rfl
@[simp] theorem setCan_clk (n : Nat) (f : CanCtl → CanCtl) (s : State) : (setCan n f s).clk = s.clk := rfl
@[simp] theorem setCan_cmdq (n : Nat) (f : CanCtl → CanCtl) (s : State) : (setCan n f s).cmdq = s.cmdq := rfl
@[simp] theorem setCan_time (n : Nat) (f : CanCtl → CanCtl) (s : State) : (setCan n f s).time = s.time := rfl
@[simp] theorem setCan_echo (n : Nat) (f : CanCtl → CanCtl) (s : State) : (setCan n f s).echo = s.echo := rfl
@[simp] theorem setCan_survey (n : Nat) (f : CanCtl → CanCtl) (s : State) : (setCan n f s).survey = s.survey := rfl
@[simp] theorem setCan_reform (n : Nat) (f : CanCtl → CanCtl) (s : State) : (setCan n f s).reform = s.reform := rfl
@[simp] theorem setCan_gallery (n : Nat) (f : CanCtl → CanCtl) (s : State) : (setCan n f s).gallery = s.gallery := rfl
@[simp] theorem setCan_planner (n : Nat) (f : CanCtl → CanCtl) (s : State) : (setCan n f s).planner = s.planner := rfl
@[simp] theorem setCan_vsu (n : Nat) (f : CanCtl → CanCtl) (s : State) : (setCan n f s).vsu = s.vsu := rfl
@[simp] theorem setCan_bb (n : Nat) (f : CanCtl → CanCtl) (s : State) : (setCan n f s).bb = s.bb := rfl
@[simp] theorem setCan_car (n : Nat) (f : CanCtl → CanCtl) (s : State) : (setCan n f s).car = s.car := rfl
@[simp] theorem setCan_rings (n : Nat) (f : CanCtl → CanCtl) (s : State) : (setCan n f s).rings = s.rings := rfl
@[simp] theorem setCan_md (n : Nat) (f : CanCtl → CanCtl) (s : State) : (setCan n f s).md = s.md := rfl
@[simp] theorem setCan_can (n : Nat) (f : CanCtl → CanCtl) (s : State) : (setCan n f s).can = s.can.modify n f := rfl
@[simp] theorem setCan_twin (n : Nat) (f : CanCtl → CanCtl) (s : State) : (setCan n f s).twin = s.twin := rfl
@[simp] theorem setCan_router (n : Nat) (f : CanCtl → CanCtl) (s : State) : (setCan n f s).router = s.router := rfl
@[simp] theorem setCan_flow (n : Nat) (f : CanCtl → CanCtl) (s : State) : (setCan n f s).flow = s.flow := rfl
@[simp] theorem setCan_test (n : Nat) (f : CanCtl → CanCtl) (s : State) : (setCan n f s).test = s.test := rfl
@[simp] theorem setCan_power (n : Nat) (f : CanCtl → CanCtl) (s : State) : (setCan n f s).power = s.power := rfl
@[simp] theorem setCan_store (n : Nat) (f : CanCtl → CanCtl) (s : State) : (setCan n f s).store = s.store := rfl
@[simp] theorem setCan_regs (n : Nat) (f : CanCtl → CanCtl) (s : State) : (setCan n f s).regs = s.regs := rfl
@[simp] theorem setCan_ram (n : Nat) (f : CanCtl → CanCtl) (s : State) : (setCan n f s).ram = s.ram := rfl
@[simp] theorem setCan_out (n : Nat) (f : CanCtl → CanCtl) (s : State) : (setCan n f s).out = s.out := rfl
@[simp] theorem setCan_pending (n : Nat) (f : CanCtl → CanCtl) (s : State) : (setCan n f s).pending = s.pending := rfl

/-! `setGlk` -/

@[simp] theorem setGlk_part (n : Nat) (f : Glk → Glk) (s : State) : (setGlk n f s).part = s.part := rfl
@[simp] theorem setGlk_minor (n : Nat) (f : Glk → Glk) (s : State) : (setGlk n f s).minor = s.minor := rfl
@[simp] theorem setGlk_clk (n : Nat) (f : Glk → Glk) (s : State) : (setGlk n f s).clk = s.clk := rfl
@[simp] theorem setGlk_cmdq (n : Nat) (f : Glk → Glk) (s : State) : (setGlk n f s).cmdq = s.cmdq := rfl
@[simp] theorem setGlk_time (n : Nat) (f : Glk → Glk) (s : State) : (setGlk n f s).time = { s.time with glk := s.time.glk.modify n f } := rfl
@[simp] theorem setGlk_echo (n : Nat) (f : Glk → Glk) (s : State) : (setGlk n f s).echo = s.echo := rfl
@[simp] theorem setGlk_survey (n : Nat) (f : Glk → Glk) (s : State) : (setGlk n f s).survey = s.survey := rfl
@[simp] theorem setGlk_reform (n : Nat) (f : Glk → Glk) (s : State) : (setGlk n f s).reform = s.reform := rfl
@[simp] theorem setGlk_gallery (n : Nat) (f : Glk → Glk) (s : State) : (setGlk n f s).gallery = s.gallery := rfl
@[simp] theorem setGlk_planner (n : Nat) (f : Glk → Glk) (s : State) : (setGlk n f s).planner = s.planner := rfl
@[simp] theorem setGlk_vsu (n : Nat) (f : Glk → Glk) (s : State) : (setGlk n f s).vsu = s.vsu := rfl
@[simp] theorem setGlk_bb (n : Nat) (f : Glk → Glk) (s : State) : (setGlk n f s).bb = s.bb := rfl
@[simp] theorem setGlk_car (n : Nat) (f : Glk → Glk) (s : State) : (setGlk n f s).car = s.car := rfl
@[simp] theorem setGlk_rings (n : Nat) (f : Glk → Glk) (s : State) : (setGlk n f s).rings = s.rings := rfl
@[simp] theorem setGlk_md (n : Nat) (f : Glk → Glk) (s : State) : (setGlk n f s).md = s.md := rfl
@[simp] theorem setGlk_can (n : Nat) (f : Glk → Glk) (s : State) : (setGlk n f s).can = s.can := rfl
@[simp] theorem setGlk_twin (n : Nat) (f : Glk → Glk) (s : State) : (setGlk n f s).twin = s.twin := rfl
@[simp] theorem setGlk_router (n : Nat) (f : Glk → Glk) (s : State) : (setGlk n f s).router = s.router := rfl
@[simp] theorem setGlk_flow (n : Nat) (f : Glk → Glk) (s : State) : (setGlk n f s).flow = s.flow := rfl
@[simp] theorem setGlk_test (n : Nat) (f : Glk → Glk) (s : State) : (setGlk n f s).test = s.test := rfl
@[simp] theorem setGlk_power (n : Nat) (f : Glk → Glk) (s : State) : (setGlk n f s).power = s.power := rfl
@[simp] theorem setGlk_store (n : Nat) (f : Glk → Glk) (s : State) : (setGlk n f s).store = s.store := rfl
@[simp] theorem setGlk_regs (n : Nat) (f : Glk → Glk) (s : State) : (setGlk n f s).regs = s.regs := rfl
@[simp] theorem setGlk_ram (n : Nat) (f : Glk → Glk) (s : State) : (setGlk n f s).ram = s.ram := rfl
@[simp] theorem setGlk_out (n : Nat) (f : Glk → Glk) (s : State) : (setGlk n f s).out = s.out := rfl
@[simp] theorem setGlk_pending (n : Nat) (f : Glk → Glk) (s : State) : (setGlk n f s).pending = s.pending := rfl

/-! `setTarget` -/

@[simp] theorem setTarget_part (t : Nat) (f : Target → Target) (s : State) : (setTarget t f s).part = s.part := rfl
@[simp] theorem setTarget_minor (t : Nat) (f : Target → Target) (s : State) : (setTarget t f s).minor = s.minor := rfl
@[simp] theorem setTarget_clk (t : Nat) (f : Target → Target) (s : State) : (setTarget t f s).clk = s.clk := rfl
@[simp] theorem setTarget_cmdq (t : Nat) (f : Target → Target) (s : State) : (setTarget t f s).cmdq = s.cmdq := rfl
@[simp] theorem setTarget_time (t : Nat) (f : Target → Target) (s : State) : (setTarget t f s).time = s.time := rfl
@[simp] theorem setTarget_echo (t : Nat) (f : Target → Target) (s : State) : (setTarget t f s).echo = s.echo := rfl
@[simp] theorem setTarget_survey (t : Nat) (f : Target → Target) (s : State) : (setTarget t f s).survey = s.survey := rfl
@[simp] theorem setTarget_reform (t : Nat) (f : Target → Target) (s : State) : (setTarget t f s).reform = s.reform := rfl
@[simp] theorem setTarget_gallery (t : Nat) (f : Target → Target) (s : State) : (setTarget t f s).gallery = s.gallery := rfl
@[simp] theorem setTarget_planner (t : Nat) (f : Target → Target) (s : State) : (setTarget t f s).planner = s.planner := rfl
@[simp] theorem setTarget_vsu (t : Nat) (f : Target → Target) (s : State) : (setTarget t f s).vsu = s.vsu := rfl
@[simp] theorem setTarget_bb (t : Nat) (f : Target → Target) (s : State) : (setTarget t f s).bb = s.bb := rfl
@[simp] theorem setTarget_car (t : Nat) (f : Target → Target) (s : State) : (setTarget t f s).car = s.car := rfl
@[simp] theorem setTarget_rings (t : Nat) (f : Target → Target) (s : State) : (setTarget t f s).rings = s.rings := rfl
@[simp] theorem setTarget_md (t : Nat) (f : Target → Target) (s : State) : (setTarget t f s).md = s.md := rfl
@[simp] theorem setTarget_can (t : Nat) (f : Target → Target) (s : State) : (setTarget t f s).can = s.can := rfl
@[simp] theorem setTarget_twin (t : Nat) (f : Target → Target) (s : State) : (setTarget t f s).twin = s.twin := rfl
@[simp] theorem setTarget_router (t : Nat) (f : Target → Target) (s : State) : (setTarget t f s).router = { s.router with targets := s.router.targets.modify t f } := rfl
@[simp] theorem setTarget_flow (t : Nat) (f : Target → Target) (s : State) : (setTarget t f s).flow = s.flow := rfl
@[simp] theorem setTarget_test (t : Nat) (f : Target → Target) (s : State) : (setTarget t f s).test = s.test := rfl
@[simp] theorem setTarget_power (t : Nat) (f : Target → Target) (s : State) : (setTarget t f s).power = s.power := rfl
@[simp] theorem setTarget_store (t : Nat) (f : Target → Target) (s : State) : (setTarget t f s).store = s.store := rfl
@[simp] theorem setTarget_regs (t : Nat) (f : Target → Target) (s : State) : (setTarget t f s).regs = s.regs := rfl
@[simp] theorem setTarget_ram (t : Nat) (f : Target → Target) (s : State) : (setTarget t f s).ram = s.ram := rfl
@[simp] theorem setTarget_out (t : Nat) (f : Target → Target) (s : State) : (setTarget t f s).out = s.out := rfl
@[simp] theorem setTarget_pending (t : Nat) (f : Target → Target) (s : State) : (setTarget t f s).pending = s.pending := rfl

/-! `setCmd` -/

@[simp] theorem setCmd_part (tag : BitVec 8) (f : Cmd → Cmd) (s : State) : (setCmd tag f s).part = s.part := rfl
@[simp] theorem setCmd_minor (tag : BitVec 8) (f : Cmd → Cmd) (s : State) : (setCmd tag f s).minor = s.minor := rfl
@[simp] theorem setCmd_clk (tag : BitVec 8) (f : Cmd → Cmd) (s : State) : (setCmd tag f s).clk = s.clk := rfl
@[simp] theorem setCmd_cmdq (tag : BitVec 8) (f : Cmd → Cmd) (s : State) : (setCmd tag f s).cmdq = { s.cmdq with inflight := s.cmdq.inflight.map fun c => if c.tag = tag then f c else c } := rfl
@[simp] theorem setCmd_time (tag : BitVec 8) (f : Cmd → Cmd) (s : State) : (setCmd tag f s).time = s.time := rfl
@[simp] theorem setCmd_echo (tag : BitVec 8) (f : Cmd → Cmd) (s : State) : (setCmd tag f s).echo = s.echo := rfl
@[simp] theorem setCmd_survey (tag : BitVec 8) (f : Cmd → Cmd) (s : State) : (setCmd tag f s).survey = s.survey := rfl
@[simp] theorem setCmd_reform (tag : BitVec 8) (f : Cmd → Cmd) (s : State) : (setCmd tag f s).reform = s.reform := rfl
@[simp] theorem setCmd_gallery (tag : BitVec 8) (f : Cmd → Cmd) (s : State) : (setCmd tag f s).gallery = s.gallery := rfl
@[simp] theorem setCmd_planner (tag : BitVec 8) (f : Cmd → Cmd) (s : State) : (setCmd tag f s).planner = s.planner := rfl
@[simp] theorem setCmd_vsu (tag : BitVec 8) (f : Cmd → Cmd) (s : State) : (setCmd tag f s).vsu = s.vsu := rfl
@[simp] theorem setCmd_bb (tag : BitVec 8) (f : Cmd → Cmd) (s : State) : (setCmd tag f s).bb = s.bb := rfl
@[simp] theorem setCmd_car (tag : BitVec 8) (f : Cmd → Cmd) (s : State) : (setCmd tag f s).car = s.car := rfl
@[simp] theorem setCmd_rings (tag : BitVec 8) (f : Cmd → Cmd) (s : State) : (setCmd tag f s).rings = s.rings := rfl
@[simp] theorem setCmd_md (tag : BitVec 8) (f : Cmd → Cmd) (s : State) : (setCmd tag f s).md = s.md := rfl
@[simp] theorem setCmd_can (tag : BitVec 8) (f : Cmd → Cmd) (s : State) : (setCmd tag f s).can = s.can := rfl
@[simp] theorem setCmd_twin (tag : BitVec 8) (f : Cmd → Cmd) (s : State) : (setCmd tag f s).twin = s.twin := rfl
@[simp] theorem setCmd_router (tag : BitVec 8) (f : Cmd → Cmd) (s : State) : (setCmd tag f s).router = s.router := rfl
@[simp] theorem setCmd_flow (tag : BitVec 8) (f : Cmd → Cmd) (s : State) : (setCmd tag f s).flow = s.flow := rfl
@[simp] theorem setCmd_test (tag : BitVec 8) (f : Cmd → Cmd) (s : State) : (setCmd tag f s).test = s.test := rfl
@[simp] theorem setCmd_power (tag : BitVec 8) (f : Cmd → Cmd) (s : State) : (setCmd tag f s).power = s.power := rfl
@[simp] theorem setCmd_store (tag : BitVec 8) (f : Cmd → Cmd) (s : State) : (setCmd tag f s).store = s.store := rfl
@[simp] theorem setCmd_regs (tag : BitVec 8) (f : Cmd → Cmd) (s : State) : (setCmd tag f s).regs = s.regs := rfl
@[simp] theorem setCmd_ram (tag : BitVec 8) (f : Cmd → Cmd) (s : State) : (setCmd tag f s).ram = s.ram := rfl
@[simp] theorem setCmd_out (tag : BitVec 8) (f : Cmd → Cmd) (s : State) : (setCmd tag f s).out = s.out := rfl
@[simp] theorem setCmd_pending (tag : BitVec 8) (f : Cmd → Cmd) (s : State) : (setCmd tag f s).pending = s.pending := rfl

/-! `setSq` -/

@[simp] theorem setSq_part (q : Nat) (f : Sq → Sq) (s : State) : (setSq q f s).part = s.part := rfl
@[simp] theorem setSq_minor (q : Nat) (f : Sq → Sq) (s : State) : (setSq q f s).minor = s.minor := rfl
@[simp] theorem setSq_clk (q : Nat) (f : Sq → Sq) (s : State) : (setSq q f s).clk = s.clk := rfl
@[simp] theorem setSq_cmdq (q : Nat) (f : Sq → Sq) (s : State) : (setSq q f s).cmdq = { s.cmdq with sqs := s.cmdq.sqs.modify q f } := rfl
@[simp] theorem setSq_time (q : Nat) (f : Sq → Sq) (s : State) : (setSq q f s).time = s.time := rfl
@[simp] theorem setSq_echo (q : Nat) (f : Sq → Sq) (s : State) : (setSq q f s).echo = s.echo := rfl
@[simp] theorem setSq_survey (q : Nat) (f : Sq → Sq) (s : State) : (setSq q f s).survey = s.survey := rfl
@[simp] theorem setSq_reform (q : Nat) (f : Sq → Sq) (s : State) : (setSq q f s).reform = s.reform := rfl
@[simp] theorem setSq_gallery (q : Nat) (f : Sq → Sq) (s : State) : (setSq q f s).gallery = s.gallery := rfl
@[simp] theorem setSq_planner (q : Nat) (f : Sq → Sq) (s : State) : (setSq q f s).planner = s.planner := rfl
@[simp] theorem setSq_vsu (q : Nat) (f : Sq → Sq) (s : State) : (setSq q f s).vsu = s.vsu := rfl
@[simp] theorem setSq_bb (q : Nat) (f : Sq → Sq) (s : State) : (setSq q f s).bb = s.bb := rfl
@[simp] theorem setSq_car (q : Nat) (f : Sq → Sq) (s : State) : (setSq q f s).car = s.car := rfl
@[simp] theorem setSq_rings (q : Nat) (f : Sq → Sq) (s : State) : (setSq q f s).rings = s.rings := rfl
@[simp] theorem setSq_md (q : Nat) (f : Sq → Sq) (s : State) : (setSq q f s).md = s.md := rfl
@[simp] theorem setSq_can (q : Nat) (f : Sq → Sq) (s : State) : (setSq q f s).can = s.can := rfl
@[simp] theorem setSq_twin (q : Nat) (f : Sq → Sq) (s : State) : (setSq q f s).twin = s.twin := rfl
@[simp] theorem setSq_router (q : Nat) (f : Sq → Sq) (s : State) : (setSq q f s).router = s.router := rfl
@[simp] theorem setSq_flow (q : Nat) (f : Sq → Sq) (s : State) : (setSq q f s).flow = s.flow := rfl
@[simp] theorem setSq_test (q : Nat) (f : Sq → Sq) (s : State) : (setSq q f s).test = s.test := rfl
@[simp] theorem setSq_power (q : Nat) (f : Sq → Sq) (s : State) : (setSq q f s).power = s.power := rfl
@[simp] theorem setSq_store (q : Nat) (f : Sq → Sq) (s : State) : (setSq q f s).store = s.store := rfl
@[simp] theorem setSq_regs (q : Nat) (f : Sq → Sq) (s : State) : (setSq q f s).regs = s.regs := rfl
@[simp] theorem setSq_ram (q : Nat) (f : Sq → Sq) (s : State) : (setSq q f s).ram = s.ram := rfl
@[simp] theorem setSq_out (q : Nat) (f : Sq → Sq) (s : State) : (setSq q f s).out = s.out := rfl
@[simp] theorem setSq_pending (q : Nat) (f : Sq → Sq) (s : State) : (setSq q f s).pending = s.pending := rfl

/-! `setCq` -/

@[simp] theorem setCq_part (m : Nat) (f : Cq → Cq) (s : State) : (setCq m f s).part = s.part := rfl
@[simp] theorem setCq_minor (m : Nat) (f : Cq → Cq) (s : State) : (setCq m f s).minor = s.minor := rfl
@[simp] theorem setCq_clk (m : Nat) (f : Cq → Cq) (s : State) : (setCq m f s).clk = s.clk := rfl
@[simp] theorem setCq_cmdq (m : Nat) (f : Cq → Cq) (s : State) : (setCq m f s).cmdq = { s.cmdq with cqs := s.cmdq.cqs.modify m f } := rfl
@[simp] theorem setCq_time (m : Nat) (f : Cq → Cq) (s : State) : (setCq m f s).time = s.time := rfl
@[simp] theorem setCq_echo (m : Nat) (f : Cq → Cq) (s : State) : (setCq m f s).echo = s.echo := rfl
@[simp] theorem setCq_survey (m : Nat) (f : Cq → Cq) (s : State) : (setCq m f s).survey = s.survey := rfl
@[simp] theorem setCq_reform (m : Nat) (f : Cq → Cq) (s : State) : (setCq m f s).reform = s.reform := rfl
@[simp] theorem setCq_gallery (m : Nat) (f : Cq → Cq) (s : State) : (setCq m f s).gallery = s.gallery := rfl
@[simp] theorem setCq_planner (m : Nat) (f : Cq → Cq) (s : State) : (setCq m f s).planner = s.planner := rfl
@[simp] theorem setCq_vsu (m : Nat) (f : Cq → Cq) (s : State) : (setCq m f s).vsu = s.vsu := rfl
@[simp] theorem setCq_bb (m : Nat) (f : Cq → Cq) (s : State) : (setCq m f s).bb = s.bb := rfl
@[simp] theorem setCq_car (m : Nat) (f : Cq → Cq) (s : State) : (setCq m f s).car = s.car := rfl
@[simp] theorem setCq_rings (m : Nat) (f : Cq → Cq) (s : State) : (setCq m f s).rings = s.rings := rfl
@[simp] theorem setCq_md (m : Nat) (f : Cq → Cq) (s : State) : (setCq m f s).md = s.md := rfl
@[simp] theorem setCq_can (m : Nat) (f : Cq → Cq) (s : State) : (setCq m f s).can = s.can := rfl
@[simp] theorem setCq_twin (m : Nat) (f : Cq → Cq) (s : State) : (setCq m f s).twin = s.twin := rfl
@[simp] theorem setCq_router (m : Nat) (f : Cq → Cq) (s : State) : (setCq m f s).router = s.router := rfl
@[simp] theorem setCq_flow (m : Nat) (f : Cq → Cq) (s : State) : (setCq m f s).flow = s.flow := rfl
@[simp] theorem setCq_test (m : Nat) (f : Cq → Cq) (s : State) : (setCq m f s).test = s.test := rfl
@[simp] theorem setCq_power (m : Nat) (f : Cq → Cq) (s : State) : (setCq m f s).power = s.power := rfl
@[simp] theorem setCq_store (m : Nat) (f : Cq → Cq) (s : State) : (setCq m f s).store = s.store := rfl
@[simp] theorem setCq_regs (m : Nat) (f : Cq → Cq) (s : State) : (setCq m f s).regs = s.regs := rfl
@[simp] theorem setCq_ram (m : Nat) (f : Cq → Cq) (s : State) : (setCq m f s).ram = s.ram := rfl
@[simp] theorem setCq_out (m : Nat) (f : Cq → Cq) (s : State) : (setCq m f s).out = s.out := rfl
@[simp] theorem setCq_pending (m : Nat) (f : Cq → Cq) (s : State) : (setCq m f s).pending = s.pending := rfl

/-! `setVsu` -/

@[simp] theorem setVsu_part (k : Nat) (f : Vsu → Vsu) (s : State) : (setVsu k f s).part = s.part := rfl
@[simp] theorem setVsu_minor (k : Nat) (f : Vsu → Vsu) (s : State) : (setVsu k f s).minor = s.minor := rfl
@[simp] theorem setVsu_clk (k : Nat) (f : Vsu → Vsu) (s : State) : (setVsu k f s).clk = s.clk := rfl
@[simp] theorem setVsu_cmdq (k : Nat) (f : Vsu → Vsu) (s : State) : (setVsu k f s).cmdq = s.cmdq := rfl
@[simp] theorem setVsu_time (k : Nat) (f : Vsu → Vsu) (s : State) : (setVsu k f s).time = s.time := rfl
@[simp] theorem setVsu_echo (k : Nat) (f : Vsu → Vsu) (s : State) : (setVsu k f s).echo = s.echo := rfl
@[simp] theorem setVsu_survey (k : Nat) (f : Vsu → Vsu) (s : State) : (setVsu k f s).survey = s.survey := rfl
@[simp] theorem setVsu_reform (k : Nat) (f : Vsu → Vsu) (s : State) : (setVsu k f s).reform = s.reform := rfl
@[simp] theorem setVsu_gallery (k : Nat) (f : Vsu → Vsu) (s : State) : (setVsu k f s).gallery = s.gallery := rfl
@[simp] theorem setVsu_planner (k : Nat) (f : Vsu → Vsu) (s : State) : (setVsu k f s).planner = s.planner := rfl
@[simp] theorem setVsu_vsu (k : Nat) (f : Vsu → Vsu) (s : State) : (setVsu k f s).vsu = tabUpd {} s.vsu k f := rfl
@[simp] theorem setVsu_bb (k : Nat) (f : Vsu → Vsu) (s : State) : (setVsu k f s).bb = s.bb := rfl
@[simp] theorem setVsu_car (k : Nat) (f : Vsu → Vsu) (s : State) : (setVsu k f s).car = s.car := rfl
@[simp] theorem setVsu_rings (k : Nat) (f : Vsu → Vsu) (s : State) : (setVsu k f s).rings = s.rings := rfl
@[simp] theorem setVsu_md (k : Nat) (f : Vsu → Vsu) (s : State) : (setVsu k f s).md = s.md := rfl
@[simp] theorem setVsu_can (k : Nat) (f : Vsu → Vsu) (s : State) : (setVsu k f s).can = s.can := rfl
@[simp] theorem setVsu_twin (k : Nat) (f : Vsu → Vsu) (s : State) : (setVsu k f s).twin = s.twin := rfl
@[simp] theorem setVsu_router (k : Nat) (f : Vsu → Vsu) (s : State) : (setVsu k f s).router = s.router := rfl
@[simp] theorem setVsu_flow (k : Nat) (f : Vsu → Vsu) (s : State) : (setVsu k f s).flow = s.flow := rfl
@[simp] theorem setVsu_test (k : Nat) (f : Vsu → Vsu) (s : State) : (setVsu k f s).test = s.test := rfl
@[simp] theorem setVsu_power (k : Nat) (f : Vsu → Vsu) (s : State) : (setVsu k f s).power = s.power := rfl
@[simp] theorem setVsu_store (k : Nat) (f : Vsu → Vsu) (s : State) : (setVsu k f s).store = s.store := rfl
@[simp] theorem setVsu_regs (k : Nat) (f : Vsu → Vsu) (s : State) : (setVsu k f s).regs = s.regs := rfl
@[simp] theorem setVsu_ram (k : Nat) (f : Vsu → Vsu) (s : State) : (setVsu k f s).ram = s.ram := rfl
@[simp] theorem setVsu_out (k : Nat) (f : Vsu → Vsu) (s : State) : (setVsu k f s).out = s.out := rfl
@[simp] theorem setVsu_pending (k : Nat) (f : Vsu → Vsu) (s : State) : (setVsu k f s).pending = s.pending := rfl

/-! `setRx` -/

@[simp] theorem setRx_part (r : Nat) (f : Ring → Ring) (s : State) : (setRx r f s).part = s.part := rfl
@[simp] theorem setRx_minor (r : Nat) (f : Ring → Ring) (s : State) : (setRx r f s).minor = s.minor := rfl
@[simp] theorem setRx_clk (r : Nat) (f : Ring → Ring) (s : State) : (setRx r f s).clk = s.clk := rfl
@[simp] theorem setRx_cmdq (r : Nat) (f : Ring → Ring) (s : State) : (setRx r f s).cmdq = s.cmdq := rfl
@[simp] theorem setRx_time (r : Nat) (f : Ring → Ring) (s : State) : (setRx r f s).time = s.time := rfl
@[simp] theorem setRx_echo (r : Nat) (f : Ring → Ring) (s : State) : (setRx r f s).echo = s.echo := rfl
@[simp] theorem setRx_survey (r : Nat) (f : Ring → Ring) (s : State) : (setRx r f s).survey = s.survey := rfl
@[simp] theorem setRx_reform (r : Nat) (f : Ring → Ring) (s : State) : (setRx r f s).reform = s.reform := rfl
@[simp] theorem setRx_gallery (r : Nat) (f : Ring → Ring) (s : State) : (setRx r f s).gallery = s.gallery := rfl
@[simp] theorem setRx_planner (r : Nat) (f : Ring → Ring) (s : State) : (setRx r f s).planner = s.planner := rfl
@[simp] theorem setRx_vsu (r : Nat) (f : Ring → Ring) (s : State) : (setRx r f s).vsu = s.vsu := rfl
@[simp] theorem setRx_bb (r : Nat) (f : Ring → Ring) (s : State) : (setRx r f s).bb = s.bb := rfl
@[simp] theorem setRx_car (r : Nat) (f : Ring → Ring) (s : State) : (setRx r f s).car = s.car := rfl
@[simp] theorem setRx_rings (r : Nat) (f : Ring → Ring) (s : State) : (setRx r f s).rings = { s.rings with rx := tabUpd {} s.rings.rx r f } := rfl
@[simp] theorem setRx_md (r : Nat) (f : Ring → Ring) (s : State) : (setRx r f s).md = s.md := rfl
@[simp] theorem setRx_can (r : Nat) (f : Ring → Ring) (s : State) : (setRx r f s).can = s.can := rfl
@[simp] theorem setRx_twin (r : Nat) (f : Ring → Ring) (s : State) : (setRx r f s).twin = s.twin := rfl
@[simp] theorem setRx_router (r : Nat) (f : Ring → Ring) (s : State) : (setRx r f s).router = s.router := rfl
@[simp] theorem setRx_flow (r : Nat) (f : Ring → Ring) (s : State) : (setRx r f s).flow = s.flow := rfl
@[simp] theorem setRx_test (r : Nat) (f : Ring → Ring) (s : State) : (setRx r f s).test = s.test := rfl
@[simp] theorem setRx_power (r : Nat) (f : Ring → Ring) (s : State) : (setRx r f s).power = s.power := rfl
@[simp] theorem setRx_store (r : Nat) (f : Ring → Ring) (s : State) : (setRx r f s).store = s.store := rfl
@[simp] theorem setRx_regs (r : Nat) (f : Ring → Ring) (s : State) : (setRx r f s).regs = s.regs := rfl
@[simp] theorem setRx_ram (r : Nat) (f : Ring → Ring) (s : State) : (setRx r f s).ram = s.ram := rfl
@[simp] theorem setRx_out (r : Nat) (f : Ring → Ring) (s : State) : (setRx r f s).out = s.out := rfl
@[simp] theorem setRx_pending (r : Nat) (f : Ring → Ring) (s : State) : (setRx r f s).pending = s.pending := rfl

/-! `setTx` -/

@[simp] theorem setTx_part (r : Nat) (f : Ring → Ring) (s : State) : (setTx r f s).part = s.part := rfl
@[simp] theorem setTx_minor (r : Nat) (f : Ring → Ring) (s : State) : (setTx r f s).minor = s.minor := rfl
@[simp] theorem setTx_clk (r : Nat) (f : Ring → Ring) (s : State) : (setTx r f s).clk = s.clk := rfl
@[simp] theorem setTx_cmdq (r : Nat) (f : Ring → Ring) (s : State) : (setTx r f s).cmdq = s.cmdq := rfl
@[simp] theorem setTx_time (r : Nat) (f : Ring → Ring) (s : State) : (setTx r f s).time = s.time := rfl
@[simp] theorem setTx_echo (r : Nat) (f : Ring → Ring) (s : State) : (setTx r f s).echo = s.echo := rfl
@[simp] theorem setTx_survey (r : Nat) (f : Ring → Ring) (s : State) : (setTx r f s).survey = s.survey := rfl
@[simp] theorem setTx_reform (r : Nat) (f : Ring → Ring) (s : State) : (setTx r f s).reform = s.reform := rfl
@[simp] theorem setTx_gallery (r : Nat) (f : Ring → Ring) (s : State) : (setTx r f s).gallery = s.gallery := rfl
@[simp] theorem setTx_planner (r : Nat) (f : Ring → Ring) (s : State) : (setTx r f s).planner = s.planner := rfl
@[simp] theorem setTx_vsu (r : Nat) (f : Ring → Ring) (s : State) : (setTx r f s).vsu = s.vsu := rfl
@[simp] theorem setTx_bb (r : Nat) (f : Ring → Ring) (s : State) : (setTx r f s).bb = s.bb := rfl
@[simp] theorem setTx_car (r : Nat) (f : Ring → Ring) (s : State) : (setTx r f s).car = s.car := rfl
@[simp] theorem setTx_rings (r : Nat) (f : Ring → Ring) (s : State) : (setTx r f s).rings = { s.rings with tx := tabUpd {} s.rings.tx r f } := rfl
@[simp] theorem setTx_md (r : Nat) (f : Ring → Ring) (s : State) : (setTx r f s).md = s.md := rfl
@[simp] theorem setTx_can (r : Nat) (f : Ring → Ring) (s : State) : (setTx r f s).can = s.can := rfl
@[simp] theorem setTx_twin (r : Nat) (f : Ring → Ring) (s : State) : (setTx r f s).twin = s.twin := rfl
@[simp] theorem setTx_router (r : Nat) (f : Ring → Ring) (s : State) : (setTx r f s).router = s.router := rfl
@[simp] theorem setTx_flow (r : Nat) (f : Ring → Ring) (s : State) : (setTx r f s).flow = s.flow := rfl
@[simp] theorem setTx_test (r : Nat) (f : Ring → Ring) (s : State) : (setTx r f s).test = s.test := rfl
@[simp] theorem setTx_power (r : Nat) (f : Ring → Ring) (s : State) : (setTx r f s).power = s.power := rfl
@[simp] theorem setTx_store (r : Nat) (f : Ring → Ring) (s : State) : (setTx r f s).store = s.store := rfl
@[simp] theorem setTx_regs (r : Nat) (f : Ring → Ring) (s : State) : (setTx r f s).regs = s.regs := rfl
@[simp] theorem setTx_ram (r : Nat) (f : Ring → Ring) (s : State) : (setTx r f s).ram = s.ram := rfl
@[simp] theorem setTx_out (r : Nat) (f : Ring → Ring) (s : State) : (setTx r f s).out = s.out := rfl
@[simp] theorem setTx_pending (r : Nat) (f : Ring → Ring) (s : State) : (setTx r f s).pending = s.pending := rfl

/-! `updStore` -/

@[simp] theorem updStore_part (f : Store → Store) (s : State) : (updStore f s).part = s.part := rfl
@[simp] theorem updStore_minor (f : Store → Store) (s : State) : (updStore f s).minor = s.minor := rfl
@[simp] theorem updStore_clk (f : Store → Store) (s : State) : (updStore f s).clk = s.clk := rfl
@[simp] theorem updStore_cmdq (f : Store → Store) (s : State) : (updStore f s).cmdq = s.cmdq := rfl
@[simp] theorem updStore_time (f : Store → Store) (s : State) : (updStore f s).time = s.time := rfl
@[simp] theorem updStore_echo (f : Store → Store) (s : State) : (updStore f s).echo = s.echo := rfl
@[simp] theorem updStore_survey (f : Store → Store) (s : State) : (updStore f s).survey = s.survey := rfl
@[simp] theorem updStore_reform (f : Store → Store) (s : State) : (updStore f s).reform = s.reform := rfl
@[simp] theorem updStore_gallery (f : Store → Store) (s : State) : (updStore f s).gallery = s.gallery := rfl
@[simp] theorem updStore_planner (f : Store → Store) (s : State) : (updStore f s).planner = s.planner := rfl
@[simp] theorem updStore_vsu (f : Store → Store) (s : State) : (updStore f s).vsu = s.vsu := rfl
@[simp] theorem updStore_bb (f : Store → Store) (s : State) : (updStore f s).bb = s.bb := rfl
@[simp] theorem updStore_car (f : Store → Store) (s : State) : (updStore f s).car = s.car := rfl
@[simp] theorem updStore_rings (f : Store → Store) (s : State) : (updStore f s).rings = s.rings := rfl
@[simp] theorem updStore_md (f : Store → Store) (s : State) : (updStore f s).md = s.md := rfl
@[simp] theorem updStore_can (f : Store → Store) (s : State) : (updStore f s).can = s.can := rfl
@[simp] theorem updStore_twin (f : Store → Store) (s : State) : (updStore f s).twin = s.twin := rfl
@[simp] theorem updStore_router (f : Store → Store) (s : State) : (updStore f s).router = s.router := rfl
@[simp] theorem updStore_flow (f : Store → Store) (s : State) : (updStore f s).flow = s.flow := rfl
@[simp] theorem updStore_test (f : Store → Store) (s : State) : (updStore f s).test = s.test := rfl
@[simp] theorem updStore_power (f : Store → Store) (s : State) : (updStore f s).power = s.power := rfl
@[simp] theorem updStore_store (f : Store → Store) (s : State) : (updStore f s).store = f s.store := rfl
@[simp] theorem updStore_regs (f : Store → Store) (s : State) : (updStore f s).regs = s.regs := rfl
@[simp] theorem updStore_ram (f : Store → Store) (s : State) : (updStore f s).ram = s.ram := rfl
@[simp] theorem updStore_out (f : Store → Store) (s : State) : (updStore f s).out = s.out := rfl
@[simp] theorem updStore_pending (f : Store → Store) (s : State) : (updStore f s).pending = s.pending := rfl

/-! `updFlow` -/

@[simp] theorem updFlow_part (f : Flow → Flow) (s : State) : (updFlow f s).part = s.part := rfl
@[simp] theorem updFlow_minor (f : Flow → Flow) (s : State) : (updFlow f s).minor = s.minor := rfl
@[simp] theorem updFlow_clk (f : Flow → Flow) (s : State) : (updFlow f s).clk = s.clk := rfl
@[simp] theorem updFlow_cmdq (f : Flow → Flow) (s : State) : (updFlow f s).cmdq = s.cmdq := rfl
@[simp] theorem updFlow_time (f : Flow → Flow) (s : State) : (updFlow f s).time = s.time := rfl
@[simp] theorem updFlow_echo (f : Flow → Flow) (s : State) : (updFlow f s).echo = s.echo := rfl
@[simp] theorem updFlow_survey (f : Flow → Flow) (s : State) : (updFlow f s).survey = s.survey := rfl
@[simp] theorem updFlow_reform (f : Flow → Flow) (s : State) : (updFlow f s).reform = s.reform := rfl
@[simp] theorem updFlow_gallery (f : Flow → Flow) (s : State) : (updFlow f s).gallery = s.gallery := rfl
@[simp] theorem updFlow_planner (f : Flow → Flow) (s : State) : (updFlow f s).planner = s.planner := rfl
@[simp] theorem updFlow_vsu (f : Flow → Flow) (s : State) : (updFlow f s).vsu = s.vsu := rfl
@[simp] theorem updFlow_bb (f : Flow → Flow) (s : State) : (updFlow f s).bb = s.bb := rfl
@[simp] theorem updFlow_car (f : Flow → Flow) (s : State) : (updFlow f s).car = s.car := rfl
@[simp] theorem updFlow_rings (f : Flow → Flow) (s : State) : (updFlow f s).rings = s.rings := rfl
@[simp] theorem updFlow_md (f : Flow → Flow) (s : State) : (updFlow f s).md = s.md := rfl
@[simp] theorem updFlow_can (f : Flow → Flow) (s : State) : (updFlow f s).can = s.can := rfl
@[simp] theorem updFlow_twin (f : Flow → Flow) (s : State) : (updFlow f s).twin = s.twin := rfl
@[simp] theorem updFlow_router (f : Flow → Flow) (s : State) : (updFlow f s).router = s.router := rfl
@[simp] theorem updFlow_flow (f : Flow → Flow) (s : State) : (updFlow f s).flow = f s.flow := rfl
@[simp] theorem updFlow_test (f : Flow → Flow) (s : State) : (updFlow f s).test = s.test := rfl
@[simp] theorem updFlow_power (f : Flow → Flow) (s : State) : (updFlow f s).power = s.power := rfl
@[simp] theorem updFlow_store (f : Flow → Flow) (s : State) : (updFlow f s).store = s.store := rfl
@[simp] theorem updFlow_regs (f : Flow → Flow) (s : State) : (updFlow f s).regs = s.regs := rfl
@[simp] theorem updFlow_ram (f : Flow → Flow) (s : State) : (updFlow f s).ram = s.ram := rfl
@[simp] theorem updFlow_out (f : Flow → Flow) (s : State) : (updFlow f s).out = s.out := rfl
@[simp] theorem updFlow_pending (f : Flow → Flow) (s : State) : (updFlow f s).pending = s.pending := rfl

/-! `updGallery` -/

@[simp] theorem updGallery_part (f : Gallery → Gallery) (s : State) : (updGallery f s).part = s.part := rfl
@[simp] theorem updGallery_minor (f : Gallery → Gallery) (s : State) : (updGallery f s).minor = s.minor := rfl
@[simp] theorem updGallery_clk (f : Gallery → Gallery) (s : State) : (updGallery f s).clk = s.clk := rfl
@[simp] theorem updGallery_cmdq (f : Gallery → Gallery) (s : State) : (updGallery f s).cmdq = s.cmdq := rfl
@[simp] theorem updGallery_time (f : Gallery → Gallery) (s : State) : (updGallery f s).time = s.time := rfl
@[simp] theorem updGallery_echo (f : Gallery → Gallery) (s : State) : (updGallery f s).echo = s.echo := rfl
@[simp] theorem updGallery_survey (f : Gallery → Gallery) (s : State) : (updGallery f s).survey = s.survey := rfl
@[simp] theorem updGallery_reform (f : Gallery → Gallery) (s : State) : (updGallery f s).reform = s.reform := rfl
@[simp] theorem updGallery_gallery (f : Gallery → Gallery) (s : State) : (updGallery f s).gallery = f s.gallery := rfl
@[simp] theorem updGallery_planner (f : Gallery → Gallery) (s : State) : (updGallery f s).planner = s.planner := rfl
@[simp] theorem updGallery_vsu (f : Gallery → Gallery) (s : State) : (updGallery f s).vsu = s.vsu := rfl
@[simp] theorem updGallery_bb (f : Gallery → Gallery) (s : State) : (updGallery f s).bb = s.bb := rfl
@[simp] theorem updGallery_car (f : Gallery → Gallery) (s : State) : (updGallery f s).car = s.car := rfl
@[simp] theorem updGallery_rings (f : Gallery → Gallery) (s : State) : (updGallery f s).rings = s.rings := rfl
@[simp] theorem updGallery_md (f : Gallery → Gallery) (s : State) : (updGallery f s).md = s.md := rfl
@[simp] theorem updGallery_can (f : Gallery → Gallery) (s : State) : (updGallery f s).can = s.can := rfl
@[simp] theorem updGallery_twin (f : Gallery → Gallery) (s : State) : (updGallery f s).twin = s.twin := rfl
@[simp] theorem updGallery_router (f : Gallery → Gallery) (s : State) : (updGallery f s).router = s.router := rfl
@[simp] theorem updGallery_flow (f : Gallery → Gallery) (s : State) : (updGallery f s).flow = s.flow := rfl
@[simp] theorem updGallery_test (f : Gallery → Gallery) (s : State) : (updGallery f s).test = s.test := rfl
@[simp] theorem updGallery_power (f : Gallery → Gallery) (s : State) : (updGallery f s).power = s.power := rfl
@[simp] theorem updGallery_store (f : Gallery → Gallery) (s : State) : (updGallery f s).store = s.store := rfl
@[simp] theorem updGallery_regs (f : Gallery → Gallery) (s : State) : (updGallery f s).regs = s.regs := rfl
@[simp] theorem updGallery_ram (f : Gallery → Gallery) (s : State) : (updGallery f s).ram = s.ram := rfl
@[simp] theorem updGallery_out (f : Gallery → Gallery) (s : State) : (updGallery f s).out = s.out := rfl
@[simp] theorem updGallery_pending (f : Gallery → Gallery) (s : State) : (updGallery f s).pending = s.pending := rfl

/-! `updRouter` -/

@[simp] theorem updRouter_part (f : Router → Router) (s : State) : (updRouter f s).part = s.part := rfl
@[simp] theorem updRouter_minor (f : Router → Router) (s : State) : (updRouter f s).minor = s.minor := rfl
@[simp] theorem updRouter_clk (f : Router → Router) (s : State) : (updRouter f s).clk = s.clk := rfl
@[simp] theorem updRouter_cmdq (f : Router → Router) (s : State) : (updRouter f s).cmdq = s.cmdq := rfl
@[simp] theorem updRouter_time (f : Router → Router) (s : State) : (updRouter f s).time = s.time := rfl
@[simp] theorem updRouter_echo (f : Router → Router) (s : State) : (updRouter f s).echo = s.echo := rfl
@[simp] theorem updRouter_survey (f : Router → Router) (s : State) : (updRouter f s).survey = s.survey := rfl
@[simp] theorem updRouter_reform (f : Router → Router) (s : State) : (updRouter f s).reform = s.reform := rfl
@[simp] theorem updRouter_gallery (f : Router → Router) (s : State) : (updRouter f s).gallery = s.gallery := rfl
@[simp] theorem updRouter_planner (f : Router → Router) (s : State) : (updRouter f s).planner = s.planner := rfl
@[simp] theorem updRouter_vsu (f : Router → Router) (s : State) : (updRouter f s).vsu = s.vsu := rfl
@[simp] theorem updRouter_bb (f : Router → Router) (s : State) : (updRouter f s).bb = s.bb := rfl
@[simp] theorem updRouter_car (f : Router → Router) (s : State) : (updRouter f s).car = s.car := rfl
@[simp] theorem updRouter_rings (f : Router → Router) (s : State) : (updRouter f s).rings = s.rings := rfl
@[simp] theorem updRouter_md (f : Router → Router) (s : State) : (updRouter f s).md = s.md := rfl
@[simp] theorem updRouter_can (f : Router → Router) (s : State) : (updRouter f s).can = s.can := rfl
@[simp] theorem updRouter_twin (f : Router → Router) (s : State) : (updRouter f s).twin = s.twin := rfl
@[simp] theorem updRouter_router (f : Router → Router) (s : State) : (updRouter f s).router = f s.router := rfl
@[simp] theorem updRouter_flow (f : Router → Router) (s : State) : (updRouter f s).flow = s.flow := rfl
@[simp] theorem updRouter_test (f : Router → Router) (s : State) : (updRouter f s).test = s.test := rfl
@[simp] theorem updRouter_power (f : Router → Router) (s : State) : (updRouter f s).power = s.power := rfl
@[simp] theorem updRouter_store (f : Router → Router) (s : State) : (updRouter f s).store = s.store := rfl
@[simp] theorem updRouter_regs (f : Router → Router) (s : State) : (updRouter f s).regs = s.regs := rfl
@[simp] theorem updRouter_ram (f : Router → Router) (s : State) : (updRouter f s).ram = s.ram := rfl
@[simp] theorem updRouter_out (f : Router → Router) (s : State) : (updRouter f s).out = s.out := rfl
@[simp] theorem updRouter_pending (f : Router → Router) (s : State) : (updRouter f s).pending = s.pending := rfl

/-! `updPlanner` -/

@[simp] theorem updPlanner_part (f : Planner → Planner) (s : State) : (updPlanner f s).part = s.part := rfl
@[simp] theorem updPlanner_minor (f : Planner → Planner) (s : State) : (updPlanner f s).minor = s.minor := rfl
@[simp] theorem updPlanner_clk (f : Planner → Planner) (s : State) : (updPlanner f s).clk = s.clk := rfl
@[simp] theorem updPlanner_cmdq (f : Planner → Planner) (s : State) : (updPlanner f s).cmdq = s.cmdq := rfl
@[simp] theorem updPlanner_time (f : Planner → Planner) (s : State) : (updPlanner f s).time = s.time := rfl
@[simp] theorem updPlanner_echo (f : Planner → Planner) (s : State) : (updPlanner f s).echo = s.echo := rfl
@[simp] theorem updPlanner_survey (f : Planner → Planner) (s : State) : (updPlanner f s).survey = s.survey := rfl
@[simp] theorem updPlanner_reform (f : Planner → Planner) (s : State) : (updPlanner f s).reform = s.reform := rfl
@[simp] theorem updPlanner_gallery (f : Planner → Planner) (s : State) : (updPlanner f s).gallery = s.gallery := rfl
@[simp] theorem updPlanner_planner (f : Planner → Planner) (s : State) : (updPlanner f s).planner = f s.planner := rfl
@[simp] theorem updPlanner_vsu (f : Planner → Planner) (s : State) : (updPlanner f s).vsu = s.vsu := rfl
@[simp] theorem updPlanner_bb (f : Planner → Planner) (s : State) : (updPlanner f s).bb = s.bb := rfl
@[simp] theorem updPlanner_car (f : Planner → Planner) (s : State) : (updPlanner f s).car = s.car := rfl
@[simp] theorem updPlanner_rings (f : Planner → Planner) (s : State) : (updPlanner f s).rings = s.rings := rfl
@[simp] theorem updPlanner_md (f : Planner → Planner) (s : State) : (updPlanner f s).md = s.md := rfl
@[simp] theorem updPlanner_can (f : Planner → Planner) (s : State) : (updPlanner f s).can = s.can := rfl
@[simp] theorem updPlanner_twin (f : Planner → Planner) (s : State) : (updPlanner f s).twin = s.twin := rfl
@[simp] theorem updPlanner_router (f : Planner → Planner) (s : State) : (updPlanner f s).router = s.router := rfl
@[simp] theorem updPlanner_flow (f : Planner → Planner) (s : State) : (updPlanner f s).flow = s.flow := rfl
@[simp] theorem updPlanner_test (f : Planner → Planner) (s : State) : (updPlanner f s).test = s.test := rfl
@[simp] theorem updPlanner_power (f : Planner → Planner) (s : State) : (updPlanner f s).power = s.power := rfl
@[simp] theorem updPlanner_store (f : Planner → Planner) (s : State) : (updPlanner f s).store = s.store := rfl
@[simp] theorem updPlanner_regs (f : Planner → Planner) (s : State) : (updPlanner f s).regs = s.regs := rfl
@[simp] theorem updPlanner_ram (f : Planner → Planner) (s : State) : (updPlanner f s).ram = s.ram := rfl
@[simp] theorem updPlanner_out (f : Planner → Planner) (s : State) : (updPlanner f s).out = s.out := rfl
@[simp] theorem updPlanner_pending (f : Planner → Planner) (s : State) : (updPlanner f s).pending = s.pending := rfl

/-! `updPower` -/

@[simp] theorem updPower_part (f : Power → Power) (s : State) : (updPower f s).part = s.part := rfl
@[simp] theorem updPower_minor (f : Power → Power) (s : State) : (updPower f s).minor = s.minor := rfl
@[simp] theorem updPower_clk (f : Power → Power) (s : State) : (updPower f s).clk = s.clk := rfl
@[simp] theorem updPower_cmdq (f : Power → Power) (s : State) : (updPower f s).cmdq = s.cmdq := rfl
@[simp] theorem updPower_time (f : Power → Power) (s : State) : (updPower f s).time = s.time := rfl
@[simp] theorem updPower_echo (f : Power → Power) (s : State) : (updPower f s).echo = s.echo := rfl
@[simp] theorem updPower_survey (f : Power → Power) (s : State) : (updPower f s).survey = s.survey := rfl
@[simp] theorem updPower_reform (f : Power → Power) (s : State) : (updPower f s).reform = s.reform := rfl
@[simp] theorem updPower_gallery (f : Power → Power) (s : State) : (updPower f s).gallery = s.gallery := rfl
@[simp] theorem updPower_planner (f : Power → Power) (s : State) : (updPower f s).planner = s.planner := rfl
@[simp] theorem updPower_vsu (f : Power → Power) (s : State) : (updPower f s).vsu = s.vsu := rfl
@[simp] theorem updPower_bb (f : Power → Power) (s : State) : (updPower f s).bb = s.bb := rfl
@[simp] theorem updPower_car (f : Power → Power) (s : State) : (updPower f s).car = s.car := rfl
@[simp] theorem updPower_rings (f : Power → Power) (s : State) : (updPower f s).rings = s.rings := rfl
@[simp] theorem updPower_md (f : Power → Power) (s : State) : (updPower f s).md = s.md := rfl
@[simp] theorem updPower_can (f : Power → Power) (s : State) : (updPower f s).can = s.can := rfl
@[simp] theorem updPower_twin (f : Power → Power) (s : State) : (updPower f s).twin = s.twin := rfl
@[simp] theorem updPower_router (f : Power → Power) (s : State) : (updPower f s).router = s.router := rfl
@[simp] theorem updPower_flow (f : Power → Power) (s : State) : (updPower f s).flow = s.flow := rfl
@[simp] theorem updPower_test (f : Power → Power) (s : State) : (updPower f s).test = s.test := rfl
@[simp] theorem updPower_power (f : Power → Power) (s : State) : (updPower f s).power = f s.power := rfl
@[simp] theorem updPower_store (f : Power → Power) (s : State) : (updPower f s).store = s.store := rfl
@[simp] theorem updPower_regs (f : Power → Power) (s : State) : (updPower f s).regs = s.regs := rfl
@[simp] theorem updPower_ram (f : Power → Power) (s : State) : (updPower f s).ram = s.ram := rfl
@[simp] theorem updPower_out (f : Power → Power) (s : State) : (updPower f s).out = s.out := rfl
@[simp] theorem updPower_pending (f : Power → Power) (s : State) : (updPower f s).pending = s.pending := rfl

/-! `updReform` -/

@[simp] theorem updReform_part (f : Reform → Reform) (s : State) : (updReform f s).part = s.part := rfl
@[simp] theorem updReform_minor (f : Reform → Reform) (s : State) : (updReform f s).minor = s.minor := rfl
@[simp] theorem updReform_clk (f : Reform → Reform) (s : State) : (updReform f s).clk = s.clk := rfl
@[simp] theorem updReform_cmdq (f : Reform → Reform) (s : State) : (updReform f s).cmdq = s.cmdq := rfl
@[simp] theorem updReform_time (f : Reform → Reform) (s : State) : (updReform f s).time = s.time := rfl
@[simp] theorem updReform_echo (f : Reform → Reform) (s : State) : (updReform f s).echo = s.echo := rfl
@[simp] theorem updReform_survey (f : Reform → Reform) (s : State) : (updReform f s).survey = s.survey := rfl
@[simp] theorem updReform_reform (f : Reform → Reform) (s : State) : (updReform f s).reform = f s.reform := rfl
@[simp] theorem updReform_gallery (f : Reform → Reform) (s : State) : (updReform f s).gallery = s.gallery := rfl
@[simp] theorem updReform_planner (f : Reform → Reform) (s : State) : (updReform f s).planner = s.planner := rfl
@[simp] theorem updReform_vsu (f : Reform → Reform) (s : State) : (updReform f s).vsu = s.vsu := rfl
@[simp] theorem updReform_bb (f : Reform → Reform) (s : State) : (updReform f s).bb = s.bb := rfl
@[simp] theorem updReform_car (f : Reform → Reform) (s : State) : (updReform f s).car = s.car := rfl
@[simp] theorem updReform_rings (f : Reform → Reform) (s : State) : (updReform f s).rings = s.rings := rfl
@[simp] theorem updReform_md (f : Reform → Reform) (s : State) : (updReform f s).md = s.md := rfl
@[simp] theorem updReform_can (f : Reform → Reform) (s : State) : (updReform f s).can = s.can := rfl
@[simp] theorem updReform_twin (f : Reform → Reform) (s : State) : (updReform f s).twin = s.twin := rfl
@[simp] theorem updReform_router (f : Reform → Reform) (s : State) : (updReform f s).router = s.router := rfl
@[simp] theorem updReform_flow (f : Reform → Reform) (s : State) : (updReform f s).flow = s.flow := rfl
@[simp] theorem updReform_test (f : Reform → Reform) (s : State) : (updReform f s).test = s.test := rfl
@[simp] theorem updReform_power (f : Reform → Reform) (s : State) : (updReform f s).power = s.power := rfl
@[simp] theorem updReform_store (f : Reform → Reform) (s : State) : (updReform f s).store = s.store := rfl
@[simp] theorem updReform_regs (f : Reform → Reform) (s : State) : (updReform f s).regs = s.regs := rfl
@[simp] theorem updReform_ram (f : Reform → Reform) (s : State) : (updReform f s).ram = s.ram := rfl
@[simp] theorem updReform_out (f : Reform → Reform) (s : State) : (updReform f s).out = s.out := rfl
@[simp] theorem updReform_pending (f : Reform → Reform) (s : State) : (updReform f s).pending = s.pending := rfl

/-! `updRegs` -/

@[simp] theorem updRegs_part (f : Regs → Regs) (s : State) : (updRegs f s).part = s.part := rfl
@[simp] theorem updRegs_minor (f : Regs → Regs) (s : State) : (updRegs f s).minor = s.minor := rfl
@[simp] theorem updRegs_clk (f : Regs → Regs) (s : State) : (updRegs f s).clk = s.clk := rfl
@[simp] theorem updRegs_cmdq (f : Regs → Regs) (s : State) : (updRegs f s).cmdq = s.cmdq := rfl
@[simp] theorem updRegs_time (f : Regs → Regs) (s : State) : (updRegs f s).time = s.time := rfl
@[simp] theorem updRegs_echo (f : Regs → Regs) (s : State) : (updRegs f s).echo = s.echo := rfl
@[simp] theorem updRegs_survey (f : Regs → Regs) (s : State) : (updRegs f s).survey = s.survey := rfl
@[simp] theorem updRegs_reform (f : Regs → Regs) (s : State) : (updRegs f s).reform = s.reform := rfl
@[simp] theorem updRegs_gallery (f : Regs → Regs) (s : State) : (updRegs f s).gallery = s.gallery := rfl
@[simp] theorem updRegs_planner (f : Regs → Regs) (s : State) : (updRegs f s).planner = s.planner := rfl
@[simp] theorem updRegs_vsu (f : Regs → Regs) (s : State) : (updRegs f s).vsu = s.vsu := rfl
@[simp] theorem updRegs_bb (f : Regs → Regs) (s : State) : (updRegs f s).bb = s.bb := rfl
@[simp] theorem updRegs_car (f : Regs → Regs) (s : State) : (updRegs f s).car = s.car := rfl
@[simp] theorem updRegs_rings (f : Regs → Regs) (s : State) : (updRegs f s).rings = s.rings := rfl
@[simp] theorem updRegs_md (f : Regs → Regs) (s : State) : (updRegs f s).md = s.md := rfl
@[simp] theorem updRegs_can (f : Regs → Regs) (s : State) : (updRegs f s).can = s.can := rfl
@[simp] theorem updRegs_twin (f : Regs → Regs) (s : State) : (updRegs f s).twin = s.twin := rfl
@[simp] theorem updRegs_router (f : Regs → Regs) (s : State) : (updRegs f s).router = s.router := rfl
@[simp] theorem updRegs_flow (f : Regs → Regs) (s : State) : (updRegs f s).flow = s.flow := rfl
@[simp] theorem updRegs_test (f : Regs → Regs) (s : State) : (updRegs f s).test = s.test := rfl
@[simp] theorem updRegs_power (f : Regs → Regs) (s : State) : (updRegs f s).power = s.power := rfl
@[simp] theorem updRegs_store (f : Regs → Regs) (s : State) : (updRegs f s).store = s.store := rfl
@[simp] theorem updRegs_regs (f : Regs → Regs) (s : State) : (updRegs f s).regs = f s.regs := rfl
@[simp] theorem updRegs_ram (f : Regs → Regs) (s : State) : (updRegs f s).ram = s.ram := rfl
@[simp] theorem updRegs_out (f : Regs → Regs) (s : State) : (updRegs f s).out = s.out := rfl
@[simp] theorem updRegs_pending (f : Regs → Regs) (s : State) : (updRegs f s).pending = s.pending := rfl

/-! `updSurvey` -/

@[simp] theorem updSurvey_part (f : Survey → Survey) (s : State) : (updSurvey f s).part = s.part := rfl
@[simp] theorem updSurvey_minor (f : Survey → Survey) (s : State) : (updSurvey f s).minor = s.minor := rfl
@[simp] theorem updSurvey_clk (f : Survey → Survey) (s : State) : (updSurvey f s).clk = s.clk := rfl
@[simp] theorem updSurvey_cmdq (f : Survey → Survey) (s : State) : (updSurvey f s).cmdq = s.cmdq := rfl
@[simp] theorem updSurvey_time (f : Survey → Survey) (s : State) : (updSurvey f s).time = s.time := rfl
@[simp] theorem updSurvey_echo (f : Survey → Survey) (s : State) : (updSurvey f s).echo = s.echo := rfl
@[simp] theorem updSurvey_survey (f : Survey → Survey) (s : State) : (updSurvey f s).survey = f s.survey := rfl
@[simp] theorem updSurvey_reform (f : Survey → Survey) (s : State) : (updSurvey f s).reform = s.reform := rfl
@[simp] theorem updSurvey_gallery (f : Survey → Survey) (s : State) : (updSurvey f s).gallery = s.gallery := rfl
@[simp] theorem updSurvey_planner (f : Survey → Survey) (s : State) : (updSurvey f s).planner = s.planner := rfl
@[simp] theorem updSurvey_vsu (f : Survey → Survey) (s : State) : (updSurvey f s).vsu = s.vsu := rfl
@[simp] theorem updSurvey_bb (f : Survey → Survey) (s : State) : (updSurvey f s).bb = s.bb := rfl
@[simp] theorem updSurvey_car (f : Survey → Survey) (s : State) : (updSurvey f s).car = s.car := rfl
@[simp] theorem updSurvey_rings (f : Survey → Survey) (s : State) : (updSurvey f s).rings = s.rings := rfl
@[simp] theorem updSurvey_md (f : Survey → Survey) (s : State) : (updSurvey f s).md = s.md := rfl
@[simp] theorem updSurvey_can (f : Survey → Survey) (s : State) : (updSurvey f s).can = s.can := rfl
@[simp] theorem updSurvey_twin (f : Survey → Survey) (s : State) : (updSurvey f s).twin = s.twin := rfl
@[simp] theorem updSurvey_router (f : Survey → Survey) (s : State) : (updSurvey f s).router = s.router := rfl
@[simp] theorem updSurvey_flow (f : Survey → Survey) (s : State) : (updSurvey f s).flow = s.flow := rfl
@[simp] theorem updSurvey_test (f : Survey → Survey) (s : State) : (updSurvey f s).test = s.test := rfl
@[simp] theorem updSurvey_power (f : Survey → Survey) (s : State) : (updSurvey f s).power = s.power := rfl
@[simp] theorem updSurvey_store (f : Survey → Survey) (s : State) : (updSurvey f s).store = s.store := rfl
@[simp] theorem updSurvey_regs (f : Survey → Survey) (s : State) : (updSurvey f s).regs = s.regs := rfl
@[simp] theorem updSurvey_ram (f : Survey → Survey) (s : State) : (updSurvey f s).ram = s.ram := rfl
@[simp] theorem updSurvey_out (f : Survey → Survey) (s : State) : (updSurvey f s).out = s.out := rfl
@[simp] theorem updSurvey_pending (f : Survey → Survey) (s : State) : (updSurvey f s).pending = s.pending := rfl

/-! `updTest` -/

@[simp] theorem updTest_part (f : SelfTest → SelfTest) (s : State) : (updTest f s).part = s.part := rfl
@[simp] theorem updTest_minor (f : SelfTest → SelfTest) (s : State) : (updTest f s).minor = s.minor := rfl
@[simp] theorem updTest_clk (f : SelfTest → SelfTest) (s : State) : (updTest f s).clk = s.clk := rfl
@[simp] theorem updTest_cmdq (f : SelfTest → SelfTest) (s : State) : (updTest f s).cmdq = s.cmdq := rfl
@[simp] theorem updTest_time (f : SelfTest → SelfTest) (s : State) : (updTest f s).time = s.time := rfl
@[simp] theorem updTest_echo (f : SelfTest → SelfTest) (s : State) : (updTest f s).echo = s.echo := rfl
@[simp] theorem updTest_survey (f : SelfTest → SelfTest) (s : State) : (updTest f s).survey = s.survey := rfl
@[simp] theorem updTest_reform (f : SelfTest → SelfTest) (s : State) : (updTest f s).reform = s.reform := rfl
@[simp] theorem updTest_gallery (f : SelfTest → SelfTest) (s : State) : (updTest f s).gallery = s.gallery := rfl
@[simp] theorem updTest_planner (f : SelfTest → SelfTest) (s : State) : (updTest f s).planner = s.planner := rfl
@[simp] theorem updTest_vsu (f : SelfTest → SelfTest) (s : State) : (updTest f s).vsu = s.vsu := rfl
@[simp] theorem updTest_bb (f : SelfTest → SelfTest) (s : State) : (updTest f s).bb = s.bb := rfl
@[simp] theorem updTest_car (f : SelfTest → SelfTest) (s : State) : (updTest f s).car = s.car := rfl
@[simp] theorem updTest_rings (f : SelfTest → SelfTest) (s : State) : (updTest f s).rings = s.rings := rfl
@[simp] theorem updTest_md (f : SelfTest → SelfTest) (s : State) : (updTest f s).md = s.md := rfl
@[simp] theorem updTest_can (f : SelfTest → SelfTest) (s : State) : (updTest f s).can = s.can := rfl
@[simp] theorem updTest_twin (f : SelfTest → SelfTest) (s : State) : (updTest f s).twin = s.twin := rfl
@[simp] theorem updTest_router (f : SelfTest → SelfTest) (s : State) : (updTest f s).router = s.router := rfl
@[simp] theorem updTest_flow (f : SelfTest → SelfTest) (s : State) : (updTest f s).flow = s.flow := rfl
@[simp] theorem updTest_test (f : SelfTest → SelfTest) (s : State) : (updTest f s).test = f s.test := rfl
@[simp] theorem updTest_power (f : SelfTest → SelfTest) (s : State) : (updTest f s).power = s.power := rfl
@[simp] theorem updTest_store (f : SelfTest → SelfTest) (s : State) : (updTest f s).store = s.store := rfl
@[simp] theorem updTest_regs (f : SelfTest → SelfTest) (s : State) : (updTest f s).regs = s.regs := rfl
@[simp] theorem updTest_ram (f : SelfTest → SelfTest) (s : State) : (updTest f s).ram = s.ram := rfl
@[simp] theorem updTest_out (f : SelfTest → SelfTest) (s : State) : (updTest f s).out = s.out := rfl
@[simp] theorem updTest_pending (f : SelfTest → SelfTest) (s : State) : (updTest f s).pending = s.pending := rfl

/-! `updTime` -/

@[simp] theorem updTime_part (f : TimeUnit → TimeUnit) (s : State) : (updTime f s).part = s.part := rfl
@[simp] theorem updTime_minor (f : TimeUnit → TimeUnit) (s : State) : (updTime f s).minor = s.minor := rfl
@[simp] theorem updTime_clk (f : TimeUnit → TimeUnit) (s : State) : (updTime f s).clk = s.clk := rfl
@[simp] theorem updTime_cmdq (f : TimeUnit → TimeUnit) (s : State) : (updTime f s).cmdq = s.cmdq := rfl
@[simp] theorem updTime_time (f : TimeUnit → TimeUnit) (s : State) : (updTime f s).time = f s.time := rfl
@[simp] theorem updTime_echo (f : TimeUnit → TimeUnit) (s : State) : (updTime f s).echo = s.echo := rfl
@[simp] theorem updTime_survey (f : TimeUnit → TimeUnit) (s : State) : (updTime f s).survey = s.survey := rfl
@[simp] theorem updTime_reform (f : TimeUnit → TimeUnit) (s : State) : (updTime f s).reform = s.reform := rfl
@[simp] theorem updTime_gallery (f : TimeUnit → TimeUnit) (s : State) : (updTime f s).gallery = s.gallery := rfl
@[simp] theorem updTime_planner (f : TimeUnit → TimeUnit) (s : State) : (updTime f s).planner = s.planner := rfl
@[simp] theorem updTime_vsu (f : TimeUnit → TimeUnit) (s : State) : (updTime f s).vsu = s.vsu := rfl
@[simp] theorem updTime_bb (f : TimeUnit → TimeUnit) (s : State) : (updTime f s).bb = s.bb := rfl
@[simp] theorem updTime_car (f : TimeUnit → TimeUnit) (s : State) : (updTime f s).car = s.car := rfl
@[simp] theorem updTime_rings (f : TimeUnit → TimeUnit) (s : State) : (updTime f s).rings = s.rings := rfl
@[simp] theorem updTime_md (f : TimeUnit → TimeUnit) (s : State) : (updTime f s).md = s.md := rfl
@[simp] theorem updTime_can (f : TimeUnit → TimeUnit) (s : State) : (updTime f s).can = s.can := rfl
@[simp] theorem updTime_twin (f : TimeUnit → TimeUnit) (s : State) : (updTime f s).twin = s.twin := rfl
@[simp] theorem updTime_router (f : TimeUnit → TimeUnit) (s : State) : (updTime f s).router = s.router := rfl
@[simp] theorem updTime_flow (f : TimeUnit → TimeUnit) (s : State) : (updTime f s).flow = s.flow := rfl
@[simp] theorem updTime_test (f : TimeUnit → TimeUnit) (s : State) : (updTime f s).test = s.test := rfl
@[simp] theorem updTime_power (f : TimeUnit → TimeUnit) (s : State) : (updTime f s).power = s.power := rfl
@[simp] theorem updTime_store (f : TimeUnit → TimeUnit) (s : State) : (updTime f s).store = s.store := rfl
@[simp] theorem updTime_regs (f : TimeUnit → TimeUnit) (s : State) : (updTime f s).regs = s.regs := rfl
@[simp] theorem updTime_ram (f : TimeUnit → TimeUnit) (s : State) : (updTime f s).ram = s.ram := rfl
@[simp] theorem updTime_out (f : TimeUnit → TimeUnit) (s : State) : (updTime f s).out = s.out := rfl
@[simp] theorem updTime_pending (f : TimeUnit → TimeUnit) (s : State) : (updTime f s).pending = s.pending := rfl

/-! `updTwin` -/

@[simp] theorem updTwin_part (f : Twin → Twin) (s : State) : (updTwin f s).part = s.part := rfl
@[simp] theorem updTwin_minor (f : Twin → Twin) (s : State) : (updTwin f s).minor = s.minor := rfl
@[simp] theorem updTwin_clk (f : Twin → Twin) (s : State) : (updTwin f s).clk = s.clk := rfl
@[simp] theorem updTwin_cmdq (f : Twin → Twin) (s : State) : (updTwin f s).cmdq = s.cmdq := rfl
@[simp] theorem updTwin_time (f : Twin → Twin) (s : State) : (updTwin f s).time = s.time := rfl
@[simp] theorem updTwin_echo (f : Twin → Twin) (s : State) : (updTwin f s).echo = s.echo := rfl
@[simp] theorem updTwin_survey (f : Twin → Twin) (s : State) : (updTwin f s).survey = s.survey := rfl
@[simp] theorem updTwin_reform (f : Twin → Twin) (s : State) : (updTwin f s).reform = s.reform := rfl
@[simp] theorem updTwin_gallery (f : Twin → Twin) (s : State) : (updTwin f s).gallery = s.gallery := rfl
@[simp] theorem updTwin_planner (f : Twin → Twin) (s : State) : (updTwin f s).planner = s.planner := rfl
@[simp] theorem updTwin_vsu (f : Twin → Twin) (s : State) : (updTwin f s).vsu = s.vsu := rfl
@[simp] theorem updTwin_bb (f : Twin → Twin) (s : State) : (updTwin f s).bb = s.bb := rfl
@[simp] theorem updTwin_car (f : Twin → Twin) (s : State) : (updTwin f s).car = s.car := rfl
@[simp] theorem updTwin_rings (f : Twin → Twin) (s : State) : (updTwin f s).rings = s.rings := rfl
@[simp] theorem updTwin_md (f : Twin → Twin) (s : State) : (updTwin f s).md = s.md := rfl
@[simp] theorem updTwin_can (f : Twin → Twin) (s : State) : (updTwin f s).can = s.can := rfl
@[simp] theorem updTwin_twin (f : Twin → Twin) (s : State) : (updTwin f s).twin = f s.twin := rfl
@[simp] theorem updTwin_router (f : Twin → Twin) (s : State) : (updTwin f s).router = s.router := rfl
@[simp] theorem updTwin_flow (f : Twin → Twin) (s : State) : (updTwin f s).flow = s.flow := rfl
@[simp] theorem updTwin_test (f : Twin → Twin) (s : State) : (updTwin f s).test = s.test := rfl
@[simp] theorem updTwin_power (f : Twin → Twin) (s : State) : (updTwin f s).power = s.power := rfl
@[simp] theorem updTwin_store (f : Twin → Twin) (s : State) : (updTwin f s).store = s.store := rfl
@[simp] theorem updTwin_regs (f : Twin → Twin) (s : State) : (updTwin f s).regs = s.regs := rfl
@[simp] theorem updTwin_ram (f : Twin → Twin) (s : State) : (updTwin f s).ram = s.ram := rfl
@[simp] theorem updTwin_out (f : Twin → Twin) (s : State) : (updTwin f s).out = s.out := rfl
@[simp] theorem updTwin_pending (f : Twin → Twin) (s : State) : (updTwin f s).pending = s.pending := rfl

end Sys2Proof.Machine
end

