-- ==== Sys2Proof/Laws/Ops.lean ====
section
/-! SUPPORT. What the shared operations leave alone: one lemma for each field that an operation does not change. -/

set_option Elab.async false

namespace Sys2Proof.Machine

/-! `advancePs` -/

@[simp] theorem advancePs_part (d : Nat) (s : State) : (advancePs d s).part = s.part := by simp only [advancePs]; (repeat' split) <;> simp
@[simp] theorem advancePs_minor (d : Nat) (s : State) : (advancePs d s).minor = s.minor := by simp only [advancePs]; (repeat' split) <;> simp
@[simp] theorem advancePs_cmdq (d : Nat) (s : State) : (advancePs d s).cmdq = s.cmdq := by simp only [advancePs]; (repeat' split) <;> simp
@[simp] theorem advancePs_time (d : Nat) (s : State) : (advancePs d s).time = s.time := by simp only [advancePs]; (repeat' split) <;> simp
@[simp] theorem advancePs_echo (d : Nat) (s : State) : (advancePs d s).echo = s.echo := by simp only [advancePs]; (repeat' split) <;> simp
@[simp] theorem advancePs_survey (d : Nat) (s : State) : (advancePs d s).survey = s.survey := by simp only [advancePs]; (repeat' split) <;> simp
@[simp] theorem advancePs_reform (d : Nat) (s : State) : (advancePs d s).reform = s.reform := by simp only [advancePs]; (repeat' split) <;> simp
@[simp] theorem advancePs_gallery (d : Nat) (s : State) : (advancePs d s).gallery = s.gallery := by simp only [advancePs]; (repeat' split) <;> simp
@[simp] theorem advancePs_planner (d : Nat) (s : State) : (advancePs d s).planner = s.planner := by simp only [advancePs]; (repeat' split) <;> simp
@[simp] theorem advancePs_vsu (d : Nat) (s : State) : (advancePs d s).vsu = s.vsu := by simp only [advancePs]; (repeat' split) <;> simp
@[simp] theorem advancePs_bb (d : Nat) (s : State) : (advancePs d s).bb = s.bb := by simp only [advancePs]; (repeat' split) <;> simp
@[simp] theorem advancePs_car (d : Nat) (s : State) : (advancePs d s).car = s.car := by simp only [advancePs]; (repeat' split) <;> simp
@[simp] theorem advancePs_rings (d : Nat) (s : State) : (advancePs d s).rings = s.rings := by simp only [advancePs]; (repeat' split) <;> simp
@[simp] theorem advancePs_md (d : Nat) (s : State) : (advancePs d s).md = s.md := by simp only [advancePs]; (repeat' split) <;> simp
@[simp] theorem advancePs_can (d : Nat) (s : State) : (advancePs d s).can = s.can := by simp only [advancePs]; (repeat' split) <;> simp
@[simp] theorem advancePs_twin (d : Nat) (s : State) : (advancePs d s).twin = s.twin := by simp only [advancePs]; (repeat' split) <;> simp
@[simp] theorem advancePs_router (d : Nat) (s : State) : (advancePs d s).router = s.router := by simp only [advancePs]; (repeat' split) <;> simp
@[simp] theorem advancePs_flow (d : Nat) (s : State) : (advancePs d s).flow = s.flow := by simp only [advancePs]; (repeat' split) <;> simp
@[simp] theorem advancePs_test (d : Nat) (s : State) : (advancePs d s).test = s.test := by simp only [advancePs]; (repeat' split) <;> simp
@[simp] theorem advancePs_power (d : Nat) (s : State) : (advancePs d s).power = s.power := by simp only [advancePs]; (repeat' split) <;> simp
@[simp] theorem advancePs_store (d : Nat) (s : State) : (advancePs d s).store = s.store := by simp only [advancePs]; (repeat' split) <;> simp
@[simp] theorem advancePs_regs (d : Nat) (s : State) : (advancePs d s).regs = s.regs := by simp only [advancePs]; (repeat' split) <;> simp
@[simp] theorem advancePs_ram (d : Nat) (s : State) : (advancePs d s).ram = s.ram := by simp only [advancePs]; (repeat' split) <;> simp
@[simp] theorem advancePs_out (d : Nat) (s : State) : (advancePs d s).out = s.out := by simp only [advancePs]; (repeat' split) <;> simp
@[simp] theorem advancePs_pending (d : Nat) (s : State) : (advancePs d s).pending = s.pending := by simp only [advancePs]; (repeat' split) <;> simp

/-! `toPs` -/

@[simp] theorem toPs_part (d : Nat) (s : State) : (toPs d s).part = s.part := by simp [toPs]
@[simp] theorem toPs_minor (d : Nat) (s : State) : (toPs d s).minor = s.minor := by simp [toPs]
@[simp] theorem toPs_cmdq (d : Nat) (s : State) : (toPs d s).cmdq = s.cmdq := by simp [toPs]
@[simp] theorem toPs_time (d : Nat) (s : State) : (toPs d s).time = s.time := by simp [toPs]
@[simp] theorem toPs_echo (d : Nat) (s : State) : (toPs d s).echo = s.echo := by simp [toPs]
@[simp] theorem toPs_survey (d : Nat) (s : State) : (toPs d s).survey = s.survey := by simp [toPs]
@[simp] theorem toPs_reform (d : Nat) (s : State) : (toPs d s).reform = s.reform := by simp [toPs]
@[simp] theorem toPs_gallery (d : Nat) (s : State) : (toPs d s).gallery = s.gallery := by simp [toPs]
@[simp] theorem toPs_planner (d : Nat) (s : State) : (toPs d s).planner = s.planner := by simp [toPs]
@[simp] theorem toPs_vsu (d : Nat) (s : State) : (toPs d s).vsu = s.vsu := by simp [toPs]
@[simp] theorem toPs_bb (d : Nat) (s : State) : (toPs d s).bb = s.bb := by simp [toPs]
@[simp] theorem toPs_car (d : Nat) (s : State) : (toPs d s).car = s.car := by simp [toPs]
@[simp] theorem toPs_rings (d : Nat) (s : State) : (toPs d s).rings = s.rings := by simp [toPs]
@[simp] theorem toPs_md (d : Nat) (s : State) : (toPs d s).md = s.md := by simp [toPs]
@[simp] theorem toPs_can (d : Nat) (s : State) : (toPs d s).can = s.can := by simp [toPs]
@[simp] theorem toPs_twin (d : Nat) (s : State) : (toPs d s).twin = s.twin := by simp [toPs]
@[simp] theorem toPs_router (d : Nat) (s : State) : (toPs d s).router = s.router := by simp [toPs]
@[simp] theorem toPs_flow (d : Nat) (s : State) : (toPs d s).flow = s.flow := by simp [toPs]
@[simp] theorem toPs_test (d : Nat) (s : State) : (toPs d s).test = s.test := by simp [toPs]
@[simp] theorem toPs_power (d : Nat) (s : State) : (toPs d s).power = s.power := by simp [toPs]
@[simp] theorem toPs_store (d : Nat) (s : State) : (toPs d s).store = s.store := by simp [toPs]
@[simp] theorem toPs_regs (d : Nat) (s : State) : (toPs d s).regs = s.regs := by simp [toPs]
@[simp] theorem toPs_ram (d : Nat) (s : State) : (toPs d s).ram = s.ram := by simp [toPs]
@[simp] theorem toPs_out (d : Nat) (s : State) : (toPs d s).out = s.out := by simp [toPs]
@[simp] theorem toPs_pending (d : Nat) (s : State) : (toPs d s).pending = s.pending := by simp [toPs]

/-! `toLt` -/

@[simp] theorem toLt_part (l : Nat) (s : State) : (toLt l s).part = s.part := by simp only [toLt]; (repeat' split) <;> simp
@[simp] theorem toLt_minor (l : Nat) (s : State) : (toLt l s).minor = s.minor := by simp only [toLt]; (repeat' split) <;> simp
@[simp] theorem toLt_cmdq (l : Nat) (s : State) : (toLt l s).cmdq = s.cmdq := by simp only [toLt]; (repeat' split) <;> simp
@[simp] theorem toLt_time (l : Nat) (s : State) : (toLt l s).time = s.time := by simp only [toLt]; (repeat' split) <;> simp
@[simp] theorem toLt_echo (l : Nat) (s : State) : (toLt l s).echo = s.echo := by simp only [toLt]; (repeat' split) <;> simp
@[simp] theorem toLt_survey (l : Nat) (s : State) : (toLt l s).survey = s.survey := by simp only [toLt]; (repeat' split) <;> simp
@[simp] theorem toLt_reform (l : Nat) (s : State) : (toLt l s).reform = s.reform := by simp only [toLt]; (repeat' split) <;> simp
@[simp] theorem toLt_gallery (l : Nat) (s : State) : (toLt l s).gallery = s.gallery := by simp only [toLt]; (repeat' split) <;> simp
@[simp] theorem toLt_planner (l : Nat) (s : State) : (toLt l s).planner = s.planner := by simp only [toLt]; (repeat' split) <;> simp
@[simp] theorem toLt_vsu (l : Nat) (s : State) : (toLt l s).vsu = s.vsu := by simp only [toLt]; (repeat' split) <;> simp
@[simp] theorem toLt_bb (l : Nat) (s : State) : (toLt l s).bb = s.bb := by simp only [toLt]; (repeat' split) <;> simp
@[simp] theorem toLt_car (l : Nat) (s : State) : (toLt l s).car = s.car := by simp only [toLt]; (repeat' split) <;> simp
@[simp] theorem toLt_rings (l : Nat) (s : State) : (toLt l s).rings = s.rings := by simp only [toLt]; (repeat' split) <;> simp
@[simp] theorem toLt_md (l : Nat) (s : State) : (toLt l s).md = s.md := by simp only [toLt]; (repeat' split) <;> simp
@[simp] theorem toLt_can (l : Nat) (s : State) : (toLt l s).can = s.can := by simp only [toLt]; (repeat' split) <;> simp
@[simp] theorem toLt_twin (l : Nat) (s : State) : (toLt l s).twin = s.twin := by simp only [toLt]; (repeat' split) <;> simp
@[simp] theorem toLt_router (l : Nat) (s : State) : (toLt l s).router = s.router := by simp only [toLt]; (repeat' split) <;> simp
@[simp] theorem toLt_flow (l : Nat) (s : State) : (toLt l s).flow = s.flow := by simp only [toLt]; (repeat' split) <;> simp
@[simp] theorem toLt_test (l : Nat) (s : State) : (toLt l s).test = s.test := by simp only [toLt]; (repeat' split) <;> simp
@[simp] theorem toLt_power (l : Nat) (s : State) : (toLt l s).power = s.power := by simp only [toLt]; (repeat' split) <;> simp
@[simp] theorem toLt_store (l : Nat) (s : State) : (toLt l s).store = s.store := by simp only [toLt]; (repeat' split) <;> simp
@[simp] theorem toLt_regs (l : Nat) (s : State) : (toLt l s).regs = s.regs := by simp only [toLt]; (repeat' split) <;> simp
@[simp] theorem toLt_ram (l : Nat) (s : State) : (toLt l s).ram = s.ram := by simp only [toLt]; (repeat' split) <;> simp
@[simp] theorem toLt_out (l : Nat) (s : State) : (toLt l s).out = s.out := by simp only [toLt]; (repeat' split) <;> simp
@[simp] theorem toLt_pending (l : Nat) (s : State) : (toLt l s).pending = s.pending := by simp only [toLt]; (repeat' split) <;> simp

/-! `toPhase` -/

@[simp] theorem toPhase_part (l : Nat) (s : State) : (toPhase l s).part = s.part := by simp [toPhase]
@[simp] theorem toPhase_minor (l : Nat) (s : State) : (toPhase l s).minor = s.minor := by simp [toPhase]
@[simp] theorem toPhase_cmdq (l : Nat) (s : State) : (toPhase l s).cmdq = s.cmdq := by simp [toPhase]
@[simp] theorem toPhase_time (l : Nat) (s : State) : (toPhase l s).time = s.time := by simp [toPhase]
@[simp] theorem toPhase_echo (l : Nat) (s : State) : (toPhase l s).echo = s.echo := by simp [toPhase]
@[simp] theorem toPhase_survey (l : Nat) (s : State) : (toPhase l s).survey = s.survey := by simp [toPhase]
@[simp] theorem toPhase_reform (l : Nat) (s : State) : (toPhase l s).reform = s.reform := by simp [toPhase]
@[simp] theorem toPhase_gallery (l : Nat) (s : State) : (toPhase l s).gallery = s.gallery := by simp [toPhase]
@[simp] theorem toPhase_planner (l : Nat) (s : State) : (toPhase l s).planner = s.planner := by simp [toPhase]
@[simp] theorem toPhase_vsu (l : Nat) (s : State) : (toPhase l s).vsu = s.vsu := by simp [toPhase]
@[simp] theorem toPhase_bb (l : Nat) (s : State) : (toPhase l s).bb = s.bb := by simp [toPhase]
@[simp] theorem toPhase_car (l : Nat) (s : State) : (toPhase l s).car = s.car := by simp [toPhase]
@[simp] theorem toPhase_rings (l : Nat) (s : State) : (toPhase l s).rings = s.rings := by simp [toPhase]
@[simp] theorem toPhase_md (l : Nat) (s : State) : (toPhase l s).md = s.md := by simp [toPhase]
@[simp] theorem toPhase_can (l : Nat) (s : State) : (toPhase l s).can = s.can := by simp [toPhase]
@[simp] theorem toPhase_twin (l : Nat) (s : State) : (toPhase l s).twin = s.twin := by simp [toPhase]
@[simp] theorem toPhase_router (l : Nat) (s : State) : (toPhase l s).router = s.router := by simp [toPhase]
@[simp] theorem toPhase_flow (l : Nat) (s : State) : (toPhase l s).flow = s.flow := by simp [toPhase]
@[simp] theorem toPhase_test (l : Nat) (s : State) : (toPhase l s).test = s.test := by simp [toPhase]
@[simp] theorem toPhase_power (l : Nat) (s : State) : (toPhase l s).power = s.power := by simp [toPhase]
@[simp] theorem toPhase_store (l : Nat) (s : State) : (toPhase l s).store = s.store := by simp [toPhase]
@[simp] theorem toPhase_regs (l : Nat) (s : State) : (toPhase l s).regs = s.regs := by simp [toPhase]
@[simp] theorem toPhase_ram (l : Nat) (s : State) : (toPhase l s).ram = s.ram := by simp [toPhase]
@[simp] theorem toPhase_out (l : Nat) (s : State) : (toPhase l s).out = s.out := by simp [toPhase]
@[simp] theorem toPhase_pending (l : Nat) (s : State) : (toPhase l s).pending = s.pending := by simp [toPhase]

/-! `assertEdge` -/

@[simp] theorem assertEdge_part (id : Nat) (s : State) : (assertEdge id s).part = s.part := by simp only [assertEdge]; (repeat' split) <;> simp
@[simp] theorem assertEdge_minor (id : Nat) (s : State) : (assertEdge id s).minor = s.minor := by simp only [assertEdge]; (repeat' split) <;> simp
@[simp] theorem assertEdge_clk (id : Nat) (s : State) : (assertEdge id s).clk = s.clk := by simp only [assertEdge]; (repeat' split) <;> simp
@[simp] theorem assertEdge_cmdq (id : Nat) (s : State) : (assertEdge id s).cmdq = s.cmdq := by simp only [assertEdge]; (repeat' split) <;> simp
@[simp] theorem assertEdge_time (id : Nat) (s : State) : (assertEdge id s).time = s.time := by simp only [assertEdge]; (repeat' split) <;> simp
@[simp] theorem assertEdge_echo (id : Nat) (s : State) : (assertEdge id s).echo = s.echo := by simp only [assertEdge]; (repeat' split) <;> simp
@[simp] theorem assertEdge_survey (id : Nat) (s : State) : (assertEdge id s).survey = s.survey := by simp only [assertEdge]; (repeat' split) <;> simp
@[simp] theorem assertEdge_reform (id : Nat) (s : State) : (assertEdge id s).reform = s.reform := by simp only [assertEdge]; (repeat' split) <;> simp
@[simp] theorem assertEdge_gallery (id : Nat) (s : State) : (assertEdge id s).gallery = s.gallery := by simp only [assertEdge]; (repeat' split) <;> simp
@[simp] theorem assertEdge_planner (id : Nat) (s : State) : (assertEdge id s).planner = s.planner := by simp only [assertEdge]; (repeat' split) <;> simp
@[simp] theorem assertEdge_vsu (id : Nat) (s : State) : (assertEdge id s).vsu = s.vsu := by simp only [assertEdge]; (repeat' split) <;> simp
@[simp] theorem assertEdge_bb (id : Nat) (s : State) : (assertEdge id s).bb = s.bb := by simp only [assertEdge]; (repeat' split) <;> simp
@[simp] theorem assertEdge_car (id : Nat) (s : State) : (assertEdge id s).car = s.car := by simp only [assertEdge]; (repeat' split) <;> simp
@[simp] theorem assertEdge_rings (id : Nat) (s : State) : (assertEdge id s).rings = s.rings := by simp only [assertEdge]; (repeat' split) <;> simp
@[simp] theorem assertEdge_md (id : Nat) (s : State) : (assertEdge id s).md = s.md := by simp only [assertEdge]; (repeat' split) <;> simp
@[simp] theorem assertEdge_can (id : Nat) (s : State) : (assertEdge id s).can = s.can := by simp only [assertEdge]; (repeat' split) <;> simp
@[simp] theorem assertEdge_twin (id : Nat) (s : State) : (assertEdge id s).twin = s.twin := by simp only [assertEdge]; (repeat' split) <;> simp
@[simp] theorem assertEdge_flow (id : Nat) (s : State) : (assertEdge id s).flow = s.flow := by simp only [assertEdge]; (repeat' split) <;> simp
@[simp] theorem assertEdge_test (id : Nat) (s : State) : (assertEdge id s).test = s.test := by simp only [assertEdge]; (repeat' split) <;> simp
@[simp] theorem assertEdge_power (id : Nat) (s : State) : (assertEdge id s).power = s.power := by simp only [assertEdge]; (repeat' split) <;> simp
@[simp] theorem assertEdge_store (id : Nat) (s : State) : (assertEdge id s).store = s.store := by simp only [assertEdge]; (repeat' split) <;> simp
@[simp] theorem assertEdge_regs (id : Nat) (s : State) : (assertEdge id s).regs = s.regs := by simp only [assertEdge]; (repeat' split) <;> simp
@[simp] theorem assertEdge_ram (id : Nat) (s : State) : (assertEdge id s).ram = s.ram := by simp only [assertEdge]; (repeat' split) <;> simp
@[simp] theorem assertEdge_out (id : Nat) (s : State) : (assertEdge id s).out = s.out := by simp only [assertEdge]; (repeat' split) <;> simp
@[simp] theorem assertEdge_pending (id : Nat) (s : State) : (assertEdge id s).pending = s.pending := by simp only [assertEdge]; (repeat' split) <;> simp

/-! `assertPort` -/

@[simp] theorem assertPort_part (p : EPort) (off : Nat) (s : State) : (assertPort p off s).part = s.part := by simp [assertPort]
@[simp] theorem assertPort_minor (p : EPort) (off : Nat) (s : State) : (assertPort p off s).minor = s.minor := by simp [assertPort]
@[simp] theorem assertPort_clk (p : EPort) (off : Nat) (s : State) : (assertPort p off s).clk = s.clk := by simp [assertPort]
@[simp] theorem assertPort_cmdq (p : EPort) (off : Nat) (s : State) : (assertPort p off s).cmdq = s.cmdq := by simp [assertPort]
@[simp] theorem assertPort_time (p : EPort) (off : Nat) (s : State) : (assertPort p off s).time = s.time := by simp [assertPort]
@[simp] theorem assertPort_echo (p : EPort) (off : Nat) (s : State) : (assertPort p off s).echo = s.echo := by simp [assertPort]
@[simp] theorem assertPort_survey (p : EPort) (off : Nat) (s : State) : (assertPort p off s).survey = s.survey := by simp [assertPort]
@[simp] theorem assertPort_reform (p : EPort) (off : Nat) (s : State) : (assertPort p off s).reform = s.reform := by simp [assertPort]
@[simp] theorem assertPort_gallery (p : EPort) (off : Nat) (s : State) : (assertPort p off s).gallery = s.gallery := by simp [assertPort]
@[simp] theorem assertPort_planner (p : EPort) (off : Nat) (s : State) : (assertPort p off s).planner = s.planner := by simp [assertPort]
@[simp] theorem assertPort_vsu (p : EPort) (off : Nat) (s : State) : (assertPort p off s).vsu = s.vsu := by simp [assertPort]
@[simp] theorem assertPort_bb (p : EPort) (off : Nat) (s : State) : (assertPort p off s).bb = s.bb := by simp [assertPort]
@[simp] theorem assertPort_car (p : EPort) (off : Nat) (s : State) : (assertPort p off s).car = s.car := by simp [assertPort]
@[simp] theorem assertPort_rings (p : EPort) (off : Nat) (s : State) : (assertPort p off s).rings = s.rings := by simp [assertPort]
@[simp] theorem assertPort_md (p : EPort) (off : Nat) (s : State) : (assertPort p off s).md = s.md := by simp [assertPort]
@[simp] theorem assertPort_can (p : EPort) (off : Nat) (s : State) : (assertPort p off s).can = s.can := by simp [assertPort]
@[simp] theorem assertPort_twin (p : EPort) (off : Nat) (s : State) : (assertPort p off s).twin = s.twin := by simp [assertPort]
@[simp] theorem assertPort_flow (p : EPort) (off : Nat) (s : State) : (assertPort p off s).flow = s.flow := by simp [assertPort]
@[simp] theorem assertPort_test (p : EPort) (off : Nat) (s : State) : (assertPort p off s).test = s.test := by simp [assertPort]
@[simp] theorem assertPort_power (p : EPort) (off : Nat) (s : State) : (assertPort p off s).power = s.power := by simp [assertPort]
@[simp] theorem assertPort_store (p : EPort) (off : Nat) (s : State) : (assertPort p off s).store = s.store := by simp [assertPort]
@[simp] theorem assertPort_regs (p : EPort) (off : Nat) (s : State) : (assertPort p off s).regs = s.regs := by simp [assertPort]
@[simp] theorem assertPort_ram (p : EPort) (off : Nat) (s : State) : (assertPort p off s).ram = s.ram := by simp [assertPort]
@[simp] theorem assertPort_out (p : EPort) (off : Nat) (s : State) : (assertPort p off s).out = s.out := by simp [assertPort]
@[simp] theorem assertPort_pending (p : EPort) (off : Nat) (s : State) : (assertPort p off s).pending = s.pending := by simp [assertPort]

/-! `logEvent` -/

@[simp] theorem logEvent_part (code : Nat) (src : BitVec 10) (data : List Byte) (s : State) : (logEvent code src data s).part = s.part := by simp only [logEvent]; (repeat' split) <;> simp
@[simp] theorem logEvent_minor (code : Nat) (src : BitVec 10) (data : List Byte) (s : State) : (logEvent code src data s).minor = s.minor := by simp only [logEvent]; (repeat' split) <;> simp
@[simp] theorem logEvent_clk (code : Nat) (src : BitVec 10) (data : List Byte) (s : State) : (logEvent code src data s).clk = s.clk := by simp only [logEvent]; (repeat' split) <;> simp
@[simp] theorem logEvent_cmdq (code : Nat) (src : BitVec 10) (data : List Byte) (s : State) : (logEvent code src data s).cmdq = s.cmdq := by simp only [logEvent]; (repeat' split) <;> simp
@[simp] theorem logEvent_time (code : Nat) (src : BitVec 10) (data : List Byte) (s : State) : (logEvent code src data s).time = s.time := by simp only [logEvent]; (repeat' split) <;> simp
@[simp] theorem logEvent_echo (code : Nat) (src : BitVec 10) (data : List Byte) (s : State) : (logEvent code src data s).echo = s.echo := by simp only [logEvent]; (repeat' split) <;> simp
@[simp] theorem logEvent_survey (code : Nat) (src : BitVec 10) (data : List Byte) (s : State) : (logEvent code src data s).survey = s.survey := by simp only [logEvent]; (repeat' split) <;> simp
@[simp] theorem logEvent_reform (code : Nat) (src : BitVec 10) (data : List Byte) (s : State) : (logEvent code src data s).reform = s.reform := by simp only [logEvent]; (repeat' split) <;> simp
@[simp] theorem logEvent_gallery (code : Nat) (src : BitVec 10) (data : List Byte) (s : State) : (logEvent code src data s).gallery = s.gallery := by simp only [logEvent]; (repeat' split) <;> simp
@[simp] theorem logEvent_planner (code : Nat) (src : BitVec 10) (data : List Byte) (s : State) : (logEvent code src data s).planner = s.planner := by simp only [logEvent]; (repeat' split) <;> simp
@[simp] theorem logEvent_vsu (code : Nat) (src : BitVec 10) (data : List Byte) (s : State) : (logEvent code src data s).vsu = s.vsu := by simp only [logEvent]; (repeat' split) <;> simp
@[simp] theorem logEvent_bb (code : Nat) (src : BitVec 10) (data : List Byte) (s : State) : (logEvent code src data s).bb = s.bb := by simp only [logEvent]; (repeat' split) <;> simp
@[simp] theorem logEvent_car (code : Nat) (src : BitVec 10) (data : List Byte) (s : State) : (logEvent code src data s).car = s.car := by simp only [logEvent]; (repeat' split) <;> simp
@[simp] theorem logEvent_rings (code : Nat) (src : BitVec 10) (data : List Byte) (s : State) : (logEvent code src data s).rings = s.rings := by simp only [logEvent]; (repeat' split) <;> simp
@[simp] theorem logEvent_md (code : Nat) (src : BitVec 10) (data : List Byte) (s : State) : (logEvent code src data s).md = s.md := by simp only [logEvent]; (repeat' split) <;> simp
@[simp] theorem logEvent_can (code : Nat) (src : BitVec 10) (data : List Byte) (s : State) : (logEvent code src data s).can = s.can := by simp only [logEvent]; (repeat' split) <;> simp
@[simp] theorem logEvent_twin (code : Nat) (src : BitVec 10) (data : List Byte) (s : State) : (logEvent code src data s).twin = s.twin := by simp only [logEvent]; (repeat' split) <;> simp
@[simp] theorem logEvent_test (code : Nat) (src : BitVec 10) (data : List Byte) (s : State) : (logEvent code src data s).test = s.test := by simp only [logEvent]; (repeat' split) <;> simp
@[simp] theorem logEvent_power (code : Nat) (src : BitVec 10) (data : List Byte) (s : State) : (logEvent code src data s).power = s.power := by simp only [logEvent]; (repeat' split) <;> simp
@[simp] theorem logEvent_store (code : Nat) (src : BitVec 10) (data : List Byte) (s : State) : (logEvent code src data s).store = s.store := by simp only [logEvent]; (repeat' split) <;> simp
@[simp] theorem logEvent_regs (code : Nat) (src : BitVec 10) (data : List Byte) (s : State) : (logEvent code src data s).regs = s.regs := by simp only [logEvent]; (repeat' split) <;> simp
@[simp] theorem logEvent_ram (code : Nat) (src : BitVec 10) (data : List Byte) (s : State) : (logEvent code src data s).ram = s.ram := by simp only [logEvent]; (repeat' split) <;> simp
@[simp] theorem logEvent_out (code : Nat) (src : BitVec 10) (data : List Byte) (s : State) : (logEvent code src data s).out = s.out := by simp only [logEvent]; (repeat' split) <;> simp
@[simp] theorem logEvent_pending (code : Nat) (src : BitVec 10) (data : List Byte) (s : State) : (logEvent code src data s).pending = s.pending := by simp only [logEvent]; (repeat' split) <;> simp

/-! `sumpEvent` -/

@[simp] theorem sumpEvent_part (code : Nat) (data : List Byte) (s : State) : (sumpEvent code data s).part = s.part := by simp [sumpEvent]
@[simp] theorem sumpEvent_minor (code : Nat) (data : List Byte) (s : State) : (sumpEvent code data s).minor = s.minor := by simp [sumpEvent]
@[simp] theorem sumpEvent_clk (code : Nat) (data : List Byte) (s : State) : (sumpEvent code data s).clk = s.clk := by simp [sumpEvent]
@[simp] theorem sumpEvent_cmdq (code : Nat) (data : List Byte) (s : State) : (sumpEvent code data s).cmdq = s.cmdq := by simp [sumpEvent]
@[simp] theorem sumpEvent_time (code : Nat) (data : List Byte) (s : State) : (sumpEvent code data s).time = s.time := by simp [sumpEvent]
@[simp] theorem sumpEvent_echo (code : Nat) (data : List Byte) (s : State) : (sumpEvent code data s).echo = s.echo := by simp [sumpEvent]
@[simp] theorem sumpEvent_survey (code : Nat) (data : List Byte) (s : State) : (sumpEvent code data s).survey = s.survey := by simp [sumpEvent]
@[simp] theorem sumpEvent_reform (code : Nat) (data : List Byte) (s : State) : (sumpEvent code data s).reform = s.reform := by simp [sumpEvent]
@[simp] theorem sumpEvent_gallery (code : Nat) (data : List Byte) (s : State) : (sumpEvent code data s).gallery = s.gallery := by simp [sumpEvent]
@[simp] theorem sumpEvent_planner (code : Nat) (data : List Byte) (s : State) : (sumpEvent code data s).planner = s.planner := by simp [sumpEvent]
@[simp] theorem sumpEvent_vsu (code : Nat) (data : List Byte) (s : State) : (sumpEvent code data s).vsu = s.vsu := by simp [sumpEvent]
@[simp] theorem sumpEvent_bb (code : Nat) (data : List Byte) (s : State) : (sumpEvent code data s).bb = s.bb := by simp [sumpEvent]
@[simp] theorem sumpEvent_car (code : Nat) (data : List Byte) (s : State) : (sumpEvent code data s).car = s.car := by simp [sumpEvent]
@[simp] theorem sumpEvent_rings (code : Nat) (data : List Byte) (s : State) : (sumpEvent code data s).rings = s.rings := by simp [sumpEvent]
@[simp] theorem sumpEvent_md (code : Nat) (data : List Byte) (s : State) : (sumpEvent code data s).md = s.md := by simp [sumpEvent]
@[simp] theorem sumpEvent_can (code : Nat) (data : List Byte) (s : State) : (sumpEvent code data s).can = s.can := by simp [sumpEvent]
@[simp] theorem sumpEvent_twin (code : Nat) (data : List Byte) (s : State) : (sumpEvent code data s).twin = s.twin := by simp [sumpEvent]
@[simp] theorem sumpEvent_router (code : Nat) (data : List Byte) (s : State) : (sumpEvent code data s).router = s.router := by simp [sumpEvent]
@[simp] theorem sumpEvent_test (code : Nat) (data : List Byte) (s : State) : (sumpEvent code data s).test = s.test := by simp [sumpEvent]
@[simp] theorem sumpEvent_power (code : Nat) (data : List Byte) (s : State) : (sumpEvent code data s).power = s.power := by simp [sumpEvent]
@[simp] theorem sumpEvent_store (code : Nat) (data : List Byte) (s : State) : (sumpEvent code data s).store = s.store := by simp [sumpEvent]
@[simp] theorem sumpEvent_regs (code : Nat) (data : List Byte) (s : State) : (sumpEvent code data s).regs = s.regs := by simp [sumpEvent]
@[simp] theorem sumpEvent_ram (code : Nat) (data : List Byte) (s : State) : (sumpEvent code data s).ram = s.ram := by simp [sumpEvent]
@[simp] theorem sumpEvent_out (code : Nat) (data : List Byte) (s : State) : (sumpEvent code data s).out = s.out := by simp [sumpEvent]
@[simp] theorem sumpEvent_pending (code : Nat) (data : List Byte) (s : State) : (sumpEvent code data s).pending = s.pending := by simp [sumpEvent]

/-! `countBb` -/

@[simp] theorem countBb_part (p : BPort) (off : Nat) (s : State) : (countBb p off s).part = s.part := by simp [countBb]
@[simp] theorem countBb_minor (p : BPort) (off : Nat) (s : State) : (countBb p off s).minor = s.minor := by simp [countBb]
@[simp] theorem countBb_clk (p : BPort) (off : Nat) (s : State) : (countBb p off s).clk = s.clk := by simp [countBb]
@[simp] theorem countBb_cmdq (p : BPort) (off : Nat) (s : State) : (countBb p off s).cmdq = s.cmdq := by simp [countBb]
@[simp] theorem countBb_time (p : BPort) (off : Nat) (s : State) : (countBb p off s).time = s.time := by simp [countBb]
@[simp] theorem countBb_echo (p : BPort) (off : Nat) (s : State) : (countBb p off s).echo = s.echo := by simp [countBb]
@[simp] theorem countBb_survey (p : BPort) (off : Nat) (s : State) : (countBb p off s).survey = s.survey := by simp [countBb]
@[simp] theorem countBb_reform (p : BPort) (off : Nat) (s : State) : (countBb p off s).reform = s.reform := by simp [countBb]
@[simp] theorem countBb_gallery (p : BPort) (off : Nat) (s : State) : (countBb p off s).gallery = s.gallery := by simp [countBb]
@[simp] theorem countBb_planner (p : BPort) (off : Nat) (s : State) : (countBb p off s).planner = s.planner := by simp [countBb]
@[simp] theorem countBb_vsu (p : BPort) (off : Nat) (s : State) : (countBb p off s).vsu = s.vsu := by simp [countBb]
@[simp] theorem countBb_car (p : BPort) (off : Nat) (s : State) : (countBb p off s).car = s.car := by simp [countBb]
@[simp] theorem countBb_rings (p : BPort) (off : Nat) (s : State) : (countBb p off s).rings = s.rings := by simp [countBb]
@[simp] theorem countBb_md (p : BPort) (off : Nat) (s : State) : (countBb p off s).md = s.md := by simp [countBb]
@[simp] theorem countBb_can (p : BPort) (off : Nat) (s : State) : (countBb p off s).can = s.can := by simp [countBb]
@[simp] theorem countBb_twin (p : BPort) (off : Nat) (s : State) : (countBb p off s).twin = s.twin := by simp [countBb]
@[simp] theorem countBb_router (p : BPort) (off : Nat) (s : State) : (countBb p off s).router = s.router := by simp [countBb]
@[simp] theorem countBb_flow (p : BPort) (off : Nat) (s : State) : (countBb p off s).flow = s.flow := by simp [countBb]
@[simp] theorem countBb_test (p : BPort) (off : Nat) (s : State) : (countBb p off s).test = s.test := by simp [countBb]
@[simp] theorem countBb_power (p : BPort) (off : Nat) (s : State) : (countBb p off s).power = s.power := by simp [countBb]
@[simp] theorem countBb_store (p : BPort) (off : Nat) (s : State) : (countBb p off s).store = s.store := by simp [countBb]
@[simp] theorem countBb_regs (p : BPort) (off : Nat) (s : State) : (countBb p off s).regs = s.regs := by simp [countBb]
@[simp] theorem countBb_ram (p : BPort) (off : Nat) (s : State) : (countBb p off s).ram = s.ram := by simp [countBb]
@[simp] theorem countBb_out (p : BPort) (off : Nat) (s : State) : (countBb p off s).out = s.out := by simp [countBb]
@[simp] theorem countBb_pending (p : BPort) (off : Nat) (s : State) : (countBb p off s).pending = s.pending := by simp [countBb]

/-! `countCar` -/

@[simp] theorem countCar_part (n off : Nat) (s : State) : (countCar n off s).part = s.part := by simp [countCar]
@[simp] theorem countCar_minor (n off : Nat) (s : State) : (countCar n off s).minor = s.minor := by simp [countCar]
@[simp] theorem countCar_clk (n off : Nat) (s : State) : (countCar n off s).clk = s.clk := by simp [countCar]
@[simp] theorem countCar_cmdq (n off : Nat) (s : State) : (countCar n off s).cmdq = s.cmdq := by simp [countCar]
@[simp] theorem countCar_time (n off : Nat) (s : State) : (countCar n off s).time = s.time := by simp [countCar]
@[simp] theorem countCar_echo (n off : Nat) (s : State) : (countCar n off s).echo = s.echo := by simp [countCar]
@[simp] theorem countCar_survey (n off : Nat) (s : State) : (countCar n off s).survey = s.survey := by simp [countCar]
@[simp] theorem countCar_reform (n off : Nat) (s : State) : (countCar n off s).reform = s.reform := by simp [countCar]
@[simp] theorem countCar_gallery (n off : Nat) (s : State) : (countCar n off s).gallery = s.gallery := by simp [countCar]
@[simp] theorem countCar_planner (n off : Nat) (s : State) : (countCar n off s).planner = s.planner := by simp [countCar]
@[simp] theorem countCar_vsu (n off : Nat) (s : State) : (countCar n off s).vsu = s.vsu := by simp [countCar]
@[simp] theorem countCar_bb (n off : Nat) (s : State) : (countCar n off s).bb = s.bb := by simp [countCar]
@[simp] theorem countCar_rings (n off : Nat) (s : State) : (countCar n off s).rings = s.rings := by simp [countCar]
@[simp] theorem countCar_md (n off : Nat) (s : State) : (countCar n off s).md = s.md := by simp [countCar]
@[simp] theorem countCar_can (n off : Nat) (s : State) : (countCar n off s).can = s.can := by simp [countCar]
@[simp] theorem countCar_twin (n off : Nat) (s : State) : (countCar n off s).twin = s.twin := by simp [countCar]
@[simp] theorem countCar_router (n off : Nat) (s : State) : (countCar n off s).router = s.router := by simp [countCar]
@[simp] theorem countCar_flow (n off : Nat) (s : State) : (countCar n off s).flow = s.flow := by simp [countCar]
@[simp] theorem countCar_test (n off : Nat) (s : State) : (countCar n off s).test = s.test := by simp [countCar]
@[simp] theorem countCar_power (n off : Nat) (s : State) : (countCar n off s).power = s.power := by simp [countCar]
@[simp] theorem countCar_store (n off : Nat) (s : State) : (countCar n off s).store = s.store := by simp [countCar]
@[simp] theorem countCar_regs (n off : Nat) (s : State) : (countCar n off s).regs = s.regs := by simp [countCar]
@[simp] theorem countCar_ram (n off : Nat) (s : State) : (countCar n off s).ram = s.ram := by simp [countCar]
@[simp] theorem countCar_out (n off : Nat) (s : State) : (countCar n off s).out = s.out := by simp [countCar]
@[simp] theorem countCar_pending (n off : Nat) (s : State) : (countCar n off s).pending = s.pending := by simp [countCar]

/-! `countMd` -/

@[simp] theorem countMd_part (n off : Nat) (s : State) : (countMd n off s).part = s.part := by simp [countMd]
@[simp] theorem countMd_minor (n off : Nat) (s : State) : (countMd n off s).minor = s.minor := by simp [countMd]
@[simp] theorem countMd_clk (n off : Nat) (s : State) : (countMd n off s).clk = s.clk := by simp [countMd]
@[simp] theorem countMd_cmdq (n off : Nat) (s : State) : (countMd n off s).cmdq = s.cmdq := by simp [countMd]
@[simp] theorem countMd_time (n off : Nat) (s : State) : (countMd n off s).time = s.time := by simp [countMd]
@[simp] theorem countMd_echo (n off : Nat) (s : State) : (countMd n off s).echo = s.echo := by simp [countMd]
@[simp] theorem countMd_survey (n off : Nat) (s : State) : (countMd n off s).survey = s.survey := by simp [countMd]
@[simp] theorem countMd_reform (n off : Nat) (s : State) : (countMd n off s).reform = s.reform := by simp [countMd]
@[simp] theorem countMd_gallery (n off : Nat) (s : State) : (countMd n off s).gallery = s.gallery := by simp [countMd]
@[simp] theorem countMd_planner (n off : Nat) (s : State) : (countMd n off s).planner = s.planner := by simp [countMd]
@[simp] theorem countMd_vsu (n off : Nat) (s : State) : (countMd n off s).vsu = s.vsu := by simp [countMd]
@[simp] theorem countMd_bb (n off : Nat) (s : State) : (countMd n off s).bb = s.bb := by simp [countMd]
@[simp] theorem countMd_car (n off : Nat) (s : State) : (countMd n off s).car = s.car := by simp [countMd]
@[simp] theorem countMd_rings (n off : Nat) (s : State) : (countMd n off s).rings = s.rings := by simp [countMd]
@[simp] theorem countMd_can (n off : Nat) (s : State) : (countMd n off s).can = s.can := by simp [countMd]
@[simp] theorem countMd_twin (n off : Nat) (s : State) : (countMd n off s).twin = s.twin := by simp [countMd]
@[simp] theorem countMd_router (n off : Nat) (s : State) : (countMd n off s).router = s.router := by simp [countMd]
@[simp] theorem countMd_flow (n off : Nat) (s : State) : (countMd n off s).flow = s.flow := by simp [countMd]
@[simp] theorem countMd_test (n off : Nat) (s : State) : (countMd n off s).test = s.test := by simp [countMd]
@[simp] theorem countMd_power (n off : Nat) (s : State) : (countMd n off s).power = s.power := by simp [countMd]
@[simp] theorem countMd_store (n off : Nat) (s : State) : (countMd n off s).store = s.store := by simp [countMd]
@[simp] theorem countMd_regs (n off : Nat) (s : State) : (countMd n off s).regs = s.regs := by simp [countMd]
@[simp] theorem countMd_ram (n off : Nat) (s : State) : (countMd n off s).ram = s.ram := by simp [countMd]
@[simp] theorem countMd_out (n off : Nat) (s : State) : (countMd n off s).out = s.out := by simp [countMd]
@[simp] theorem countMd_pending (n off : Nat) (s : State) : (countMd n off s).pending = s.pending := by simp [countMd]

/-! `storeEntry` -/

@[simp] theorem storeEntry_part (m a : Nat) (bs : List Byte) (s : State) : (storeEntry m a bs s).part = s.part := by simp only [storeEntry]; (repeat' split) <;> simp
@[simp] theorem storeEntry_minor (m a : Nat) (bs : List Byte) (s : State) : (storeEntry m a bs s).minor = s.minor := by simp only [storeEntry]; (repeat' split) <;> simp
@[simp] theorem storeEntry_clk (m a : Nat) (bs : List Byte) (s : State) : (storeEntry m a bs s).clk = s.clk := by simp only [storeEntry]; (repeat' split) <;> simp
@[simp] theorem storeEntry_cmdq (m a : Nat) (bs : List Byte) (s : State) : (storeEntry m a bs s).cmdq = s.cmdq := by simp only [storeEntry]; (repeat' split) <;> simp
@[simp] theorem storeEntry_time (m a : Nat) (bs : List Byte) (s : State) : (storeEntry m a bs s).time = s.time := by simp only [storeEntry]; (repeat' split) <;> simp
@[simp] theorem storeEntry_echo (m a : Nat) (bs : List Byte) (s : State) : (storeEntry m a bs s).echo = s.echo := by simp only [storeEntry]; (repeat' split) <;> simp
@[simp] theorem storeEntry_survey (m a : Nat) (bs : List Byte) (s : State) : (storeEntry m a bs s).survey = s.survey := by simp only [storeEntry]; (repeat' split) <;> simp
@[simp] theorem storeEntry_reform (m a : Nat) (bs : List Byte) (s : State) : (storeEntry m a bs s).reform = s.reform := by simp only [storeEntry]; (repeat' split) <;> simp
@[simp] theorem storeEntry_gallery (m a : Nat) (bs : List Byte) (s : State) : (storeEntry m a bs s).gallery = s.gallery := by simp only [storeEntry]; (repeat' split) <;> simp
@[simp] theorem storeEntry_planner (m a : Nat) (bs : List Byte) (s : State) : (storeEntry m a bs s).planner = s.planner := by simp only [storeEntry]; (repeat' split) <;> simp
@[simp] theorem storeEntry_vsu (m a : Nat) (bs : List Byte) (s : State) : (storeEntry m a bs s).vsu = s.vsu := by simp only [storeEntry]; (repeat' split) <;> simp
@[simp] theorem storeEntry_bb (m a : Nat) (bs : List Byte) (s : State) : (storeEntry m a bs s).bb = s.bb := by simp only [storeEntry]; (repeat' split) <;> simp
@[simp] theorem storeEntry_car (m a : Nat) (bs : List Byte) (s : State) : (storeEntry m a bs s).car = s.car := by simp only [storeEntry]; (repeat' split) <;> simp
@[simp] theorem storeEntry_rings (m a : Nat) (bs : List Byte) (s : State) : (storeEntry m a bs s).rings = s.rings := by simp only [storeEntry]; (repeat' split) <;> simp
@[simp] theorem storeEntry_md (m a : Nat) (bs : List Byte) (s : State) : (storeEntry m a bs s).md = s.md := by simp only [storeEntry]; (repeat' split) <;> simp
@[simp] theorem storeEntry_can (m a : Nat) (bs : List Byte) (s : State) : (storeEntry m a bs s).can = s.can := by simp only [storeEntry]; (repeat' split) <;> simp
@[simp] theorem storeEntry_twin (m a : Nat) (bs : List Byte) (s : State) : (storeEntry m a bs s).twin = s.twin := by simp only [storeEntry]; (repeat' split) <;> simp
@[simp] theorem storeEntry_router (m a : Nat) (bs : List Byte) (s : State) : (storeEntry m a bs s).router = s.router := by simp only [storeEntry]; (repeat' split) <;> simp
@[simp] theorem storeEntry_flow (m a : Nat) (bs : List Byte) (s : State) : (storeEntry m a bs s).flow = s.flow := by simp only [storeEntry]; (repeat' split) <;> simp
@[simp] theorem storeEntry_test (m a : Nat) (bs : List Byte) (s : State) : (storeEntry m a bs s).test = s.test := by simp only [storeEntry]; (repeat' split) <;> simp
@[simp] theorem storeEntry_power (m a : Nat) (bs : List Byte) (s : State) : (storeEntry m a bs s).power = s.power := by simp only [storeEntry]; (repeat' split) <;> simp
@[simp] theorem storeEntry_store (m a : Nat) (bs : List Byte) (s : State) : (storeEntry m a bs s).store = s.store := by simp only [storeEntry]; (repeat' split) <;> simp
@[simp] theorem storeEntry_regs (m a : Nat) (bs : List Byte) (s : State) : (storeEntry m a bs s).regs = s.regs := by simp only [storeEntry]; (repeat' split) <;> simp
@[simp] theorem storeEntry_pending (m a : Nat) (bs : List Byte) (s : State) : (storeEntry m a bs s).pending = s.pending := by simp only [storeEntry]; (repeat' split) <;> simp

/-! `writeEntry` -/

@[simp] theorem writeEntry_part (m : Nat) (x : Completion) (s : State) : (writeEntry m x s).part = s.part := by simp [writeEntry]
@[simp] theorem writeEntry_minor (m : Nat) (x : Completion) (s : State) : (writeEntry m x s).minor = s.minor := by simp [writeEntry]
@[simp] theorem writeEntry_clk (m : Nat) (x : Completion) (s : State) : (writeEntry m x s).clk = s.clk := by simp [writeEntry]
@[simp] theorem writeEntry_time (m : Nat) (x : Completion) (s : State) : (writeEntry m x s).time = s.time := by simp [writeEntry]
@[simp] theorem writeEntry_echo (m : Nat) (x : Completion) (s : State) : (writeEntry m x s).echo = s.echo := by simp [writeEntry]
@[simp] theorem writeEntry_survey (m : Nat) (x : Completion) (s : State) : (writeEntry m x s).survey = s.survey := by simp [writeEntry]
@[simp] theorem writeEntry_reform (m : Nat) (x : Completion) (s : State) : (writeEntry m x s).reform = s.reform := by simp [writeEntry]
@[simp] theorem writeEntry_gallery (m : Nat) (x : Completion) (s : State) : (writeEntry m x s).gallery = s.gallery := by simp [writeEntry]
@[simp] theorem writeEntry_planner (m : Nat) (x : Completion) (s : State) : (writeEntry m x s).planner = s.planner := by simp [writeEntry]
@[simp] theorem writeEntry_vsu (m : Nat) (x : Completion) (s : State) : (writeEntry m x s).vsu = s.vsu := by simp [writeEntry]
@[simp] theorem writeEntry_bb (m : Nat) (x : Completion) (s : State) : (writeEntry m x s).bb = s.bb := by simp [writeEntry]
@[simp] theorem writeEntry_car (m : Nat) (x : Completion) (s : State) : (writeEntry m x s).car = s.car := by simp [writeEntry]
@[simp] theorem writeEntry_rings (m : Nat) (x : Completion) (s : State) : (writeEntry m x s).rings = s.rings := by simp [writeEntry]
@[simp] theorem writeEntry_md (m : Nat) (x : Completion) (s : State) : (writeEntry m x s).md = s.md := by simp [writeEntry]
@[simp] theorem writeEntry_can (m : Nat) (x : Completion) (s : State) : (writeEntry m x s).can = s.can := by simp [writeEntry]
@[simp] theorem writeEntry_twin (m : Nat) (x : Completion) (s : State) : (writeEntry m x s).twin = s.twin := by simp [writeEntry]
@[simp] theorem writeEntry_router (m : Nat) (x : Completion) (s : State) : (writeEntry m x s).router = s.router := by simp [writeEntry]
@[simp] theorem writeEntry_flow (m : Nat) (x : Completion) (s : State) : (writeEntry m x s).flow = s.flow := by simp [writeEntry]
@[simp] theorem writeEntry_test (m : Nat) (x : Completion) (s : State) : (writeEntry m x s).test = s.test := by simp [writeEntry]
@[simp] theorem writeEntry_power (m : Nat) (x : Completion) (s : State) : (writeEntry m x s).power = s.power := by simp [writeEntry]
@[simp] theorem writeEntry_store (m : Nat) (x : Completion) (s : State) : (writeEntry m x s).store = s.store := by simp [writeEntry]
@[simp] theorem writeEntry_regs (m : Nat) (x : Completion) (s : State) : (writeEntry m x s).regs = s.regs := by simp [writeEntry]
@[simp] theorem writeEntry_pending (m : Nat) (x : Completion) (s : State) : (writeEntry m x s).pending = s.pending := by simp [writeEntry]

/-! `keepEntry` -/

@[simp] theorem keepEntry_part (m : Nat) (x : Completion) (s : State) : (keepEntry m x s).part = s.part := by simp [keepEntry]
@[simp] theorem keepEntry_minor (m : Nat) (x : Completion) (s : State) : (keepEntry m x s).minor = s.minor := by simp [keepEntry]
@[simp] theorem keepEntry_clk (m : Nat) (x : Completion) (s : State) : (keepEntry m x s).clk = s.clk := by simp [keepEntry]
@[simp] theorem keepEntry_time (m : Nat) (x : Completion) (s : State) : (keepEntry m x s).time = s.time := by simp [keepEntry]
@[simp] theorem keepEntry_echo (m : Nat) (x : Completion) (s : State) : (keepEntry m x s).echo = s.echo := by simp [keepEntry]
@[simp] theorem keepEntry_survey (m : Nat) (x : Completion) (s : State) : (keepEntry m x s).survey = s.survey := by simp [keepEntry]
@[simp] theorem keepEntry_reform (m : Nat) (x : Completion) (s : State) : (keepEntry m x s).reform = s.reform := by simp [keepEntry]
@[simp] theorem keepEntry_gallery (m : Nat) (x : Completion) (s : State) : (keepEntry m x s).gallery = s.gallery := by simp [keepEntry]
@[simp] theorem keepEntry_planner (m : Nat) (x : Completion) (s : State) : (keepEntry m x s).planner = s.planner := by simp [keepEntry]
@[simp] theorem keepEntry_vsu (m : Nat) (x : Completion) (s : State) : (keepEntry m x s).vsu = s.vsu := by simp [keepEntry]
@[simp] theorem keepEntry_bb (m : Nat) (x : Completion) (s : State) : (keepEntry m x s).bb = s.bb := by simp [keepEntry]
@[simp] theorem keepEntry_car (m : Nat) (x : Completion) (s : State) : (keepEntry m x s).car = s.car := by simp [keepEntry]
@[simp] theorem keepEntry_rings (m : Nat) (x : Completion) (s : State) : (keepEntry m x s).rings = s.rings := by simp [keepEntry]
@[simp] theorem keepEntry_md (m : Nat) (x : Completion) (s : State) : (keepEntry m x s).md = s.md := by simp [keepEntry]
@[simp] theorem keepEntry_can (m : Nat) (x : Completion) (s : State) : (keepEntry m x s).can = s.can := by simp [keepEntry]
@[simp] theorem keepEntry_twin (m : Nat) (x : Completion) (s : State) : (keepEntry m x s).twin = s.twin := by simp [keepEntry]
@[simp] theorem keepEntry_router (m : Nat) (x : Completion) (s : State) : (keepEntry m x s).router = s.router := by simp [keepEntry]
@[simp] theorem keepEntry_flow (m : Nat) (x : Completion) (s : State) : (keepEntry m x s).flow = s.flow := by simp [keepEntry]
@[simp] theorem keepEntry_test (m : Nat) (x : Completion) (s : State) : (keepEntry m x s).test = s.test := by simp [keepEntry]
@[simp] theorem keepEntry_power (m : Nat) (x : Completion) (s : State) : (keepEntry m x s).power = s.power := by simp [keepEntry]
@[simp] theorem keepEntry_store (m : Nat) (x : Completion) (s : State) : (keepEntry m x s).store = s.store := by simp [keepEntry]
@[simp] theorem keepEntry_regs (m : Nat) (x : Completion) (s : State) : (keepEntry m x s).regs = s.regs := by simp [keepEntry]
@[simp] theorem keepEntry_ram (m : Nat) (x : Completion) (s : State) : (keepEntry m x s).ram = s.ram := by simp [keepEntry]
@[simp] theorem keepEntry_out (m : Nat) (x : Completion) (s : State) : (keepEntry m x s).out = s.out := by simp [keepEntry]
@[simp] theorem keepEntry_pending (m : Nat) (x : Completion) (s : State) : (keepEntry m x s).pending = s.pending := by simp [keepEntry]

/-! `discard` -/

@[simp] theorem discard_part (tag : BitVec 8) (s : State) : (discard tag s).part = s.part := by rfl
@[simp] theorem discard_minor (tag : BitVec 8) (s : State) : (discard tag s).minor = s.minor := by rfl
@[simp] theorem discard_clk (tag : BitVec 8) (s : State) : (discard tag s).clk = s.clk := by rfl
@[simp] theorem discard_time (tag : BitVec 8) (s : State) : (discard tag s).time = s.time := by rfl
@[simp] theorem discard_echo (tag : BitVec 8) (s : State) : (discard tag s).echo = s.echo := by rfl
@[simp] theorem discard_survey (tag : BitVec 8) (s : State) : (discard tag s).survey = s.survey := by rfl
@[simp] theorem discard_reform (tag : BitVec 8) (s : State) : (discard tag s).reform = s.reform := by rfl
@[simp] theorem discard_gallery (tag : BitVec 8) (s : State) : (discard tag s).gallery = s.gallery := by rfl
@[simp] theorem discard_planner (tag : BitVec 8) (s : State) : (discard tag s).planner = s.planner := by rfl
@[simp] theorem discard_vsu (tag : BitVec 8) (s : State) : (discard tag s).vsu = s.vsu := by rfl
@[simp] theorem discard_bb (tag : BitVec 8) (s : State) : (discard tag s).bb = s.bb := by rfl
@[simp] theorem discard_car (tag : BitVec 8) (s : State) : (discard tag s).car = s.car := by rfl
@[simp] theorem discard_rings (tag : BitVec 8) (s : State) : (discard tag s).rings = s.rings := by rfl
@[simp] theorem discard_md (tag : BitVec 8) (s : State) : (discard tag s).md = s.md := by rfl
@[simp] theorem discard_can (tag : BitVec 8) (s : State) : (discard tag s).can = s.can := by rfl
@[simp] theorem discard_twin (tag : BitVec 8) (s : State) : (discard tag s).twin = s.twin := by rfl
@[simp] theorem discard_router (tag : BitVec 8) (s : State) : (discard tag s).router = s.router := by rfl
@[simp] theorem discard_flow (tag : BitVec 8) (s : State) : (discard tag s).flow = s.flow := by rfl
@[simp] theorem discard_test (tag : BitVec 8) (s : State) : (discard tag s).test = s.test := by rfl
@[simp] theorem discard_power (tag : BitVec 8) (s : State) : (discard tag s).power = s.power := by rfl
@[simp] theorem discard_store (tag : BitVec 8) (s : State) : (discard tag s).store = s.store := by rfl
@[simp] theorem discard_regs (tag : BitVec 8) (s : State) : (discard tag s).regs = s.regs := by rfl
@[simp] theorem discard_ram (tag : BitVec 8) (s : State) : (discard tag s).ram = s.ram := by rfl
@[simp] theorem discard_out (tag : BitVec 8) (s : State) : (discard tag s).out = s.out := by rfl
@[simp] theorem discard_pending (tag : BitVec 8) (s : State) : (discard tag s).pending = s.pending := by rfl

/-! `post` -/

@[simp] theorem post_part (m : Nat) (x : Completion) (s : State) : (post m x s).part = s.part := by simp only [post]; (repeat' split) <;> simp
@[simp] theorem post_minor (m : Nat) (x : Completion) (s : State) : (post m x s).minor = s.minor := by simp only [post]; (repeat' split) <;> simp
@[simp] theorem post_clk (m : Nat) (x : Completion) (s : State) : (post m x s).clk = s.clk := by simp only [post]; (repeat' split) <;> simp
@[simp] theorem post_time (m : Nat) (x : Completion) (s : State) : (post m x s).time = s.time := by simp only [post]; (repeat' split) <;> simp
@[simp] theorem post_echo (m : Nat) (x : Completion) (s : State) : (post m x s).echo = s.echo := by simp only [post]; (repeat' split) <;> simp
@[simp] theorem post_survey (m : Nat) (x : Completion) (s : State) : (post m x s).survey = s.survey := by simp only [post]; (repeat' split) <;> simp
@[simp] theorem post_reform (m : Nat) (x : Completion) (s : State) : (post m x s).reform = s.reform := by simp only [post]; (repeat' split) <;> simp
@[simp] theorem post_gallery (m : Nat) (x : Completion) (s : State) : (post m x s).gallery = s.gallery := by simp only [post]; (repeat' split) <;> simp
@[simp] theorem post_planner (m : Nat) (x : Completion) (s : State) : (post m x s).planner = s.planner := by simp only [post]; (repeat' split) <;> simp
@[simp] theorem post_vsu (m : Nat) (x : Completion) (s : State) : (post m x s).vsu = s.vsu := by simp only [post]; (repeat' split) <;> simp
@[simp] theorem post_bb (m : Nat) (x : Completion) (s : State) : (post m x s).bb = s.bb := by simp only [post]; (repeat' split) <;> simp
@[simp] theorem post_car (m : Nat) (x : Completion) (s : State) : (post m x s).car = s.car := by simp only [post]; (repeat' split) <;> simp
@[simp] theorem post_rings (m : Nat) (x : Completion) (s : State) : (post m x s).rings = s.rings := by simp only [post]; (repeat' split) <;> simp
@[simp] theorem post_md (m : Nat) (x : Completion) (s : State) : (post m x s).md = s.md := by simp only [post]; (repeat' split) <;> simp
@[simp] theorem post_can (m : Nat) (x : Completion) (s : State) : (post m x s).can = s.can := by simp only [post]; (repeat' split) <;> simp
@[simp] theorem post_twin (m : Nat) (x : Completion) (s : State) : (post m x s).twin = s.twin := by simp only [post]; (repeat' split) <;> simp
@[simp] theorem post_router (m : Nat) (x : Completion) (s : State) : (post m x s).router = s.router := by simp only [post]; (repeat' split) <;> simp
@[simp] theorem post_flow (m : Nat) (x : Completion) (s : State) : (post m x s).flow = s.flow := by simp only [post]; (repeat' split) <;> simp
@[simp] theorem post_test (m : Nat) (x : Completion) (s : State) : (post m x s).test = s.test := by simp only [post]; (repeat' split) <;> simp
@[simp] theorem post_power (m : Nat) (x : Completion) (s : State) : (post m x s).power = s.power := by simp only [post]; (repeat' split) <;> simp
@[simp] theorem post_store (m : Nat) (x : Completion) (s : State) : (post m x s).store = s.store := by simp only [post]; (repeat' split) <;> simp
@[simp] theorem post_regs (m : Nat) (x : Completion) (s : State) : (post m x s).regs = s.regs := by simp only [post]; (repeat' split) <;> simp
@[simp] theorem post_pending (m : Nat) (x : Completion) (s : State) : (post m x s).pending = s.pending := by simp only [post]; (repeat' split) <;> simp

/-! `finish` -/

@[simp] theorem finish_part (c : Cmd) (st r : Nat) (s : State) : (finish c st r s).part = s.part := by simp only [finish]; split <;> simp
@[simp] theorem finish_minor (c : Cmd) (st r : Nat) (s : State) : (finish c st r s).minor = s.minor := by simp only [finish]; split <;> simp
@[simp] theorem finish_clk (c : Cmd) (st r : Nat) (s : State) : (finish c st r s).clk = s.clk := by simp only [finish]; split <;> simp
@[simp] theorem finish_time (c : Cmd) (st r : Nat) (s : State) : (finish c st r s).time = s.time := by simp only [finish]; split <;> simp
@[simp] theorem finish_echo (c : Cmd) (st r : Nat) (s : State) : (finish c st r s).echo = s.echo := by simp only [finish]; split <;> simp
@[simp] theorem finish_survey (c : Cmd) (st r : Nat) (s : State) : (finish c st r s).survey = s.survey := by simp only [finish]; split <;> simp
@[simp] theorem finish_reform (c : Cmd) (st r : Nat) (s : State) : (finish c st r s).reform = s.reform := by simp only [finish]; split <;> simp
@[simp] theorem finish_gallery (c : Cmd) (st r : Nat) (s : State) : (finish c st r s).gallery = s.gallery := by simp only [finish]; split <;> simp
@[simp] theorem finish_planner (c : Cmd) (st r : Nat) (s : State) : (finish c st r s).planner = s.planner := by simp only [finish]; split <;> simp
@[simp] theorem finish_vsu (c : Cmd) (st r : Nat) (s : State) : (finish c st r s).vsu = s.vsu := by simp only [finish]; split <;> simp
@[simp] theorem finish_bb (c : Cmd) (st r : Nat) (s : State) : (finish c st r s).bb = s.bb := by simp only [finish]; split <;> simp
@[simp] theorem finish_car (c : Cmd) (st r : Nat) (s : State) : (finish c st r s).car = s.car := by simp only [finish]; split <;> simp
@[simp] theorem finish_rings (c : Cmd) (st r : Nat) (s : State) : (finish c st r s).rings = s.rings := by simp only [finish]; split <;> simp
@[simp] theorem finish_md (c : Cmd) (st r : Nat) (s : State) : (finish c st r s).md = s.md := by simp only [finish]; split <;> simp
@[simp] theorem finish_can (c : Cmd) (st r : Nat) (s : State) : (finish c st r s).can = s.can := by simp only [finish]; split <;> simp
@[simp] theorem finish_twin (c : Cmd) (st r : Nat) (s : State) : (finish c st r s).twin = s.twin := by simp only [finish]; split <;> simp
@[simp] theorem finish_router (c : Cmd) (st r : Nat) (s : State) : (finish c st r s).router = s.router := by simp only [finish]; split <;> simp
@[simp] theorem finish_flow (c : Cmd) (st r : Nat) (s : State) : (finish c st r s).flow = s.flow := by simp only [finish]; split <;> simp
@[simp] theorem finish_test (c : Cmd) (st r : Nat) (s : State) : (finish c st r s).test = s.test := by simp only [finish]; split <;> simp
@[simp] theorem finish_power (c : Cmd) (st r : Nat) (s : State) : (finish c st r s).power = s.power := by simp only [finish]; split <;> simp
@[simp] theorem finish_store (c : Cmd) (st r : Nat) (s : State) : (finish c st r s).store = s.store := by simp only [finish]; split <;> simp
@[simp] theorem finish_regs (c : Cmd) (st r : Nat) (s : State) : (finish c st r s).regs = s.regs := by simp only [finish]; split <;> simp
@[simp] theorem finish_pending (c : Cmd) (st r : Nat) (s : State) : (finish c st r s).pending = s.pending := by simp only [finish]; split <;> simp

/-! `finishTag` -/

@[simp] theorem finishTag_part (tag : BitVec 8) (st r : Nat) (s : State) : (finishTag tag st r s).part = s.part := by simp only [finishTag]; (repeat' split) <;> simp
@[simp] theorem finishTag_minor (tag : BitVec 8) (st r : Nat) (s : State) : (finishTag tag st r s).minor = s.minor := by simp only [finishTag]; (repeat' split) <;> simp
@[simp] theorem finishTag_clk (tag : BitVec 8) (st r : Nat) (s : State) : (finishTag tag st r s).clk = s.clk := by simp only [finishTag]; (repeat' split) <;> simp
@[simp] theorem finishTag_time (tag : BitVec 8) (st r : Nat) (s : State) : (finishTag tag st r s).time = s.time := by simp only [finishTag]; (repeat' split) <;> simp
@[simp] theorem finishTag_echo (tag : BitVec 8) (st r : Nat) (s : State) : (finishTag tag st r s).echo = s.echo := by simp only [finishTag]; (repeat' split) <;> simp
@[simp] theorem finishTag_survey (tag : BitVec 8) (st r : Nat) (s : State) : (finishTag tag st r s).survey = s.survey := by simp only [finishTag]; (repeat' split) <;> simp
@[simp] theorem finishTag_reform (tag : BitVec 8) (st r : Nat) (s : State) : (finishTag tag st r s).reform = s.reform := by simp only [finishTag]; (repeat' split) <;> simp
@[simp] theorem finishTag_gallery (tag : BitVec 8) (st r : Nat) (s : State) : (finishTag tag st r s).gallery = s.gallery := by simp only [finishTag]; (repeat' split) <;> simp
@[simp] theorem finishTag_planner (tag : BitVec 8) (st r : Nat) (s : State) : (finishTag tag st r s).planner = s.planner := by simp only [finishTag]; (repeat' split) <;> simp
@[simp] theorem finishTag_vsu (tag : BitVec 8) (st r : Nat) (s : State) : (finishTag tag st r s).vsu = s.vsu := by simp only [finishTag]; (repeat' split) <;> simp
@[simp] theorem finishTag_bb (tag : BitVec 8) (st r : Nat) (s : State) : (finishTag tag st r s).bb = s.bb := by simp only [finishTag]; (repeat' split) <;> simp
@[simp] theorem finishTag_car (tag : BitVec 8) (st r : Nat) (s : State) : (finishTag tag st r s).car = s.car := by simp only [finishTag]; (repeat' split) <;> simp
@[simp] theorem finishTag_rings (tag : BitVec 8) (st r : Nat) (s : State) : (finishTag tag st r s).rings = s.rings := by simp only [finishTag]; (repeat' split) <;> simp
@[simp] theorem finishTag_md (tag : BitVec 8) (st r : Nat) (s : State) : (finishTag tag st r s).md = s.md := by simp only [finishTag]; (repeat' split) <;> simp
@[simp] theorem finishTag_can (tag : BitVec 8) (st r : Nat) (s : State) : (finishTag tag st r s).can = s.can := by simp only [finishTag]; (repeat' split) <;> simp
@[simp] theorem finishTag_twin (tag : BitVec 8) (st r : Nat) (s : State) : (finishTag tag st r s).twin = s.twin := by simp only [finishTag]; (repeat' split) <;> simp
@[simp] theorem finishTag_router (tag : BitVec 8) (st r : Nat) (s : State) : (finishTag tag st r s).router = s.router := by simp only [finishTag]; (repeat' split) <;> simp
@[simp] theorem finishTag_flow (tag : BitVec 8) (st r : Nat) (s : State) : (finishTag tag st r s).flow = s.flow := by simp only [finishTag]; (repeat' split) <;> simp
@[simp] theorem finishTag_test (tag : BitVec 8) (st r : Nat) (s : State) : (finishTag tag st r s).test = s.test := by simp only [finishTag]; (repeat' split) <;> simp
@[simp] theorem finishTag_power (tag : BitVec 8) (st r : Nat) (s : State) : (finishTag tag st r s).power = s.power := by simp only [finishTag]; (repeat' split) <;> simp
@[simp] theorem finishTag_store (tag : BitVec 8) (st r : Nat) (s : State) : (finishTag tag st r s).store = s.store := by simp only [finishTag]; (repeat' split) <;> simp
@[simp] theorem finishTag_regs (tag : BitVec 8) (st r : Nat) (s : State) : (finishTag tag st r s).regs = s.regs := by simp only [finishTag]; (repeat' split) <;> simp
@[simp] theorem finishTag_pending (tag : BitVec 8) (st r : Nat) (s : State) : (finishTag tag st r s).pending = s.pending := by simp only [finishTag]; (repeat' split) <;> simp

/-! `commitCmd` -/

@[simp] theorem commitCmd_part (c : Cmd) (r : Nat) (s : State) : (commitCmd c r s).part = s.part := by simp [commitCmd]
@[simp] theorem commitCmd_minor (c : Cmd) (r : Nat) (s : State) : (commitCmd c r s).minor = s.minor := by simp [commitCmd]
@[simp] theorem commitCmd_clk (c : Cmd) (r : Nat) (s : State) : (commitCmd c r s).clk = s.clk := by simp [commitCmd]
@[simp] theorem commitCmd_time (c : Cmd) (r : Nat) (s : State) : (commitCmd c r s).time = s.time := by simp [commitCmd]
@[simp] theorem commitCmd_echo (c : Cmd) (r : Nat) (s : State) : (commitCmd c r s).echo = s.echo := by simp [commitCmd]
@[simp] theorem commitCmd_survey (c : Cmd) (r : Nat) (s : State) : (commitCmd c r s).survey = s.survey := by simp [commitCmd]
@[simp] theorem commitCmd_reform (c : Cmd) (r : Nat) (s : State) : (commitCmd c r s).reform = s.reform := by simp [commitCmd]
@[simp] theorem commitCmd_gallery (c : Cmd) (r : Nat) (s : State) : (commitCmd c r s).gallery = s.gallery := by simp [commitCmd]
@[simp] theorem commitCmd_planner (c : Cmd) (r : Nat) (s : State) : (commitCmd c r s).planner = s.planner := by simp [commitCmd]
@[simp] theorem commitCmd_vsu (c : Cmd) (r : Nat) (s : State) : (commitCmd c r s).vsu = s.vsu := by simp [commitCmd]
@[simp] theorem commitCmd_bb (c : Cmd) (r : Nat) (s : State) : (commitCmd c r s).bb = s.bb := by simp [commitCmd]
@[simp] theorem commitCmd_car (c : Cmd) (r : Nat) (s : State) : (commitCmd c r s).car = s.car := by simp [commitCmd]
@[simp] theorem commitCmd_rings (c : Cmd) (r : Nat) (s : State) : (commitCmd c r s).rings = s.rings := by simp [commitCmd]
@[simp] theorem commitCmd_md (c : Cmd) (r : Nat) (s : State) : (commitCmd c r s).md = s.md := by simp [commitCmd]
@[simp] theorem commitCmd_can (c : Cmd) (r : Nat) (s : State) : (commitCmd c r s).can = s.can := by simp [commitCmd]
@[simp] theorem commitCmd_twin (c : Cmd) (r : Nat) (s : State) : (commitCmd c r s).twin = s.twin := by simp [commitCmd]
@[simp] theorem commitCmd_router (c : Cmd) (r : Nat) (s : State) : (commitCmd c r s).router = s.router := by simp [commitCmd]
@[simp] theorem commitCmd_flow (c : Cmd) (r : Nat) (s : State) : (commitCmd c r s).flow = s.flow := by simp [commitCmd]
@[simp] theorem commitCmd_test (c : Cmd) (r : Nat) (s : State) : (commitCmd c r s).test = s.test := by simp [commitCmd]
@[simp] theorem commitCmd_power (c : Cmd) (r : Nat) (s : State) : (commitCmd c r s).power = s.power := by simp [commitCmd]
@[simp] theorem commitCmd_store (c : Cmd) (r : Nat) (s : State) : (commitCmd c r s).store = s.store := by simp [commitCmd]
@[simp] theorem commitCmd_regs (c : Cmd) (r : Nat) (s : State) : (commitCmd c r s).regs = s.regs := by simp [commitCmd]
@[simp] theorem commitCmd_ram (c : Cmd) (r : Nat) (s : State) : (commitCmd c r s).ram = s.ram := by simp [commitCmd]
@[simp] theorem commitCmd_out (c : Cmd) (r : Nat) (s : State) : (commitCmd c r s).out = s.out := by simp [commitCmd]
@[simp] theorem commitCmd_pending (c : Cmd) (r : Nat) (s : State) : (commitCmd c r s).pending = s.pending := by simp [commitCmd]

/-! `park` -/

@[simp] theorem park_part (c : Cmd) (r r2 : Nat) (s : State) : (park c r r2 s).part = s.part := by simp [park]
@[simp] theorem park_minor (c : Cmd) (r r2 : Nat) (s : State) : (park c r r2 s).minor = s.minor := by simp [park]
@[simp] theorem park_clk (c : Cmd) (r r2 : Nat) (s : State) : (park c r r2 s).clk = s.clk := by simp [park]
@[simp] theorem park_time (c : Cmd) (r r2 : Nat) (s : State) : (park c r r2 s).time = s.time := by simp [park]
@[simp] theorem park_echo (c : Cmd) (r r2 : Nat) (s : State) : (park c r r2 s).echo = s.echo := by simp [park]
@[simp] theorem park_survey (c : Cmd) (r r2 : Nat) (s : State) : (park c r r2 s).survey = s.survey := by simp [park]
@[simp] theorem park_reform (c : Cmd) (r r2 : Nat) (s : State) : (park c r r2 s).reform = s.reform := by simp [park]
@[simp] theorem park_gallery (c : Cmd) (r r2 : Nat) (s : State) : (park c r r2 s).gallery = s.gallery := by simp [park]
@[simp] theorem park_planner (c : Cmd) (r r2 : Nat) (s : State) : (park c r r2 s).planner = s.planner := by simp [park]
@[simp] theorem park_vsu (c : Cmd) (r r2 : Nat) (s : State) : (park c r r2 s).vsu = s.vsu := by simp [park]
@[simp] theorem park_bb (c : Cmd) (r r2 : Nat) (s : State) : (park c r r2 s).bb = s.bb := by simp [park]
@[simp] theorem park_car (c : Cmd) (r r2 : Nat) (s : State) : (park c r r2 s).car = s.car := by simp [park]
@[simp] theorem park_rings (c : Cmd) (r r2 : Nat) (s : State) : (park c r r2 s).rings = s.rings := by simp [park]
@[simp] theorem park_md (c : Cmd) (r r2 : Nat) (s : State) : (park c r r2 s).md = s.md := by simp [park]
@[simp] theorem park_can (c : Cmd) (r r2 : Nat) (s : State) : (park c r r2 s).can = s.can := by simp [park]
@[simp] theorem park_twin (c : Cmd) (r r2 : Nat) (s : State) : (park c r r2 s).twin = s.twin := by simp [park]
@[simp] theorem park_router (c : Cmd) (r r2 : Nat) (s : State) : (park c r r2 s).router = s.router := by simp [park]
@[simp] theorem park_flow (c : Cmd) (r r2 : Nat) (s : State) : (park c r r2 s).flow = s.flow := by simp [park]
@[simp] theorem park_test (c : Cmd) (r r2 : Nat) (s : State) : (park c r r2 s).test = s.test := by simp [park]
@[simp] theorem park_power (c : Cmd) (r r2 : Nat) (s : State) : (park c r r2 s).power = s.power := by simp [park]
@[simp] theorem park_store (c : Cmd) (r r2 : Nat) (s : State) : (park c r r2 s).store = s.store := by simp [park]
@[simp] theorem park_regs (c : Cmd) (r r2 : Nat) (s : State) : (park c r r2 s).regs = s.regs := by simp [park]
@[simp] theorem park_ram (c : Cmd) (r r2 : Nat) (s : State) : (park c r r2 s).ram = s.ram := by simp [park]
@[simp] theorem park_out (c : Cmd) (r r2 : Nat) (s : State) : (park c r r2 s).out = s.out := by simp [park]
@[simp] theorem park_pending (c : Cmd) (r r2 : Nat) (s : State) : (park c r r2 s).pending = s.pending := by simp [park]

/-! `settle` -/

@[simp] theorem settle_part (s : State) : (settle s).part = s.part := by rfl
@[simp] theorem settle_minor (s : State) : (settle s).minor = s.minor := by rfl
@[simp] theorem settle_clk (s : State) : (settle s).clk = s.clk := by rfl
@[simp] theorem settle_cmdq (s : State) : (settle s).cmdq = s.cmdq := by rfl
@[simp] theorem settle_time (s : State) : (settle s).time = s.time := by rfl
@[simp] theorem settle_echo (s : State) : (settle s).echo = s.echo := by rfl
@[simp] theorem settle_survey (s : State) : (settle s).survey = s.survey := by rfl
@[simp] theorem settle_reform (s : State) : (settle s).reform = s.reform := by rfl
@[simp] theorem settle_gallery (s : State) : (settle s).gallery = s.gallery := by rfl
@[simp] theorem settle_planner (s : State) : (settle s).planner = s.planner := by rfl
@[simp] theorem settle_vsu (s : State) : (settle s).vsu = s.vsu := by rfl
@[simp] theorem settle_bb (s : State) : (settle s).bb = s.bb := by rfl
@[simp] theorem settle_car (s : State) : (settle s).car = s.car := by rfl
@[simp] theorem settle_rings (s : State) : (settle s).rings = s.rings := by rfl
@[simp] theorem settle_md (s : State) : (settle s).md = s.md := by rfl
@[simp] theorem settle_can (s : State) : (settle s).can = s.can := by rfl
@[simp] theorem settle_twin (s : State) : (settle s).twin = s.twin := by rfl
@[simp] theorem settle_flow (s : State) : (settle s).flow = s.flow := by rfl
@[simp] theorem settle_test (s : State) : (settle s).test = s.test := by rfl
@[simp] theorem settle_power (s : State) : (settle s).power = s.power := by rfl
@[simp] theorem settle_store (s : State) : (settle s).store = s.store := by rfl
@[simp] theorem settle_regs (s : State) : (settle s).regs = s.regs := by rfl
@[simp] theorem settle_ram (s : State) : (settle s).ram = s.ram := by rfl
@[simp] theorem settle_pending (s : State) : (settle s).pending = s.pending := by rfl

/-! `queueMg` -/

@[simp] theorem queueMg_part (ports : List BPort) (f : MgFrame) (s : State) : (queueMg ports f s).part = s.part := by
  unfold queueMg; induction ports generalizing s with
  | nil => rfl
  | cons p t ih => rw [List.foldl_cons, ih]; split <;> simp
@[simp] theorem queueMg_minor (ports : List BPort) (f : MgFrame) (s : State) : (queueMg ports f s).minor = s.minor := by
  unfold queueMg; induction ports generalizing s with
  | nil => rfl
  | cons p t ih => rw [List.foldl_cons, ih]; split <;> simp
@[simp] theorem queueMg_clk (ports : List BPort) (f : MgFrame) (s : State) : (queueMg ports f s).clk = s.clk := by
  unfold queueMg; induction ports generalizing s with
  | nil => rfl
  | cons p t ih => rw [List.foldl_cons, ih]; split <;> simp
@[simp] theorem queueMg_cmdq (ports : List BPort) (f : MgFrame) (s : State) : (queueMg ports f s).cmdq = s.cmdq := by
  unfold queueMg; induction ports generalizing s with
  | nil => rfl
  | cons p t ih => rw [List.foldl_cons, ih]; split <;> simp
@[simp] theorem queueMg_time (ports : List BPort) (f : MgFrame) (s : State) : (queueMg ports f s).time = s.time := by
  unfold queueMg; induction ports generalizing s with
  | nil => rfl
  | cons p t ih => rw [List.foldl_cons, ih]; split <;> simp
@[simp] theorem queueMg_echo (ports : List BPort) (f : MgFrame) (s : State) : (queueMg ports f s).echo = s.echo := by
  unfold queueMg; induction ports generalizing s with
  | nil => rfl
  | cons p t ih => rw [List.foldl_cons, ih]; split <;> simp
@[simp] theorem queueMg_survey (ports : List BPort) (f : MgFrame) (s : State) : (queueMg ports f s).survey = s.survey := by
  unfold queueMg; induction ports generalizing s with
  | nil => rfl
  | cons p t ih => rw [List.foldl_cons, ih]; split <;> simp
@[simp] theorem queueMg_reform (ports : List BPort) (f : MgFrame) (s : State) : (queueMg ports f s).reform = s.reform := by
  unfold queueMg; induction ports generalizing s with
  | nil => rfl
  | cons p t ih => rw [List.foldl_cons, ih]; split <;> simp
@[simp] theorem queueMg_gallery (ports : List BPort) (f : MgFrame) (s : State) : (queueMg ports f s).gallery = s.gallery := by
  unfold queueMg; induction ports generalizing s with
  | nil => rfl
  | cons p t ih => rw [List.foldl_cons, ih]; split <;> simp
@[simp] theorem queueMg_planner (ports : List BPort) (f : MgFrame) (s : State) : (queueMg ports f s).planner = s.planner := by
  unfold queueMg; induction ports generalizing s with
  | nil => rfl
  | cons p t ih => rw [List.foldl_cons, ih]; split <;> simp
@[simp] theorem queueMg_vsu (ports : List BPort) (f : MgFrame) (s : State) : (queueMg ports f s).vsu = s.vsu := by
  unfold queueMg; induction ports generalizing s with
  | nil => rfl
  | cons p t ih => rw [List.foldl_cons, ih]; split <;> simp
@[simp] theorem queueMg_car (ports : List BPort) (f : MgFrame) (s : State) : (queueMg ports f s).car = s.car := by
  unfold queueMg; induction ports generalizing s with
  | nil => rfl
  | cons p t ih => rw [List.foldl_cons, ih]; split <;> simp
@[simp] theorem queueMg_rings (ports : List BPort) (f : MgFrame) (s : State) : (queueMg ports f s).rings = s.rings := by
  unfold queueMg; induction ports generalizing s with
  | nil => rfl
  | cons p t ih => rw [List.foldl_cons, ih]; split <;> simp
@[simp] theorem queueMg_md (ports : List BPort) (f : MgFrame) (s : State) : (queueMg ports f s).md = s.md := by
  unfold queueMg; induction ports generalizing s with
  | nil => rfl
  | cons p t ih => rw [List.foldl_cons, ih]; split <;> simp
@[simp] theorem queueMg_can (ports : List BPort) (f : MgFrame) (s : State) : (queueMg ports f s).can = s.can := by
  unfold queueMg; induction ports generalizing s with
  | nil => rfl
  | cons p t ih => rw [List.foldl_cons, ih]; split <;> simp
@[simp] theorem queueMg_twin (ports : List BPort) (f : MgFrame) (s : State) : (queueMg ports f s).twin = s.twin := by
  unfold queueMg; induction ports generalizing s with
  | nil => rfl
  | cons p t ih => rw [List.foldl_cons, ih]; split <;> simp
@[simp] theorem queueMg_router (ports : List BPort) (f : MgFrame) (s : State) : (queueMg ports f s).router = s.router := by
  unfold queueMg; induction ports generalizing s with
  | nil => rfl
  | cons p t ih => rw [List.foldl_cons, ih]; split <;> simp
@[simp] theorem queueMg_flow (ports : List BPort) (f : MgFrame) (s : State) : (queueMg ports f s).flow = s.flow := by
  unfold queueMg; induction ports generalizing s with
  | nil => rfl
  | cons p t ih => rw [List.foldl_cons, ih]; split <;> simp
@[simp] theorem queueMg_test (ports : List BPort) (f : MgFrame) (s : State) : (queueMg ports f s).test = s.test := by
  unfold queueMg; induction ports generalizing s with
  | nil => rfl
  | cons p t ih => rw [List.foldl_cons, ih]; split <;> simp
@[simp] theorem queueMg_power (ports : List BPort) (f : MgFrame) (s : State) : (queueMg ports f s).power = s.power := by
  unfold queueMg; induction ports generalizing s with
  | nil => rfl
  | cons p t ih => rw [List.foldl_cons, ih]; split <;> simp
@[simp] theorem queueMg_store (ports : List BPort) (f : MgFrame) (s : State) : (queueMg ports f s).store = s.store := by
  unfold queueMg; induction ports generalizing s with
  | nil => rfl
  | cons p t ih => rw [List.foldl_cons, ih]; split <;> simp
@[simp] theorem queueMg_regs (ports : List BPort) (f : MgFrame) (s : State) : (queueMg ports f s).regs = s.regs := by
  unfold queueMg; induction ports generalizing s with
  | nil => rfl
  | cons p t ih => rw [List.foldl_cons, ih]; split <;> simp
@[simp] theorem queueMg_ram (ports : List BPort) (f : MgFrame) (s : State) : (queueMg ports f s).ram = s.ram := by
  unfold queueMg; induction ports generalizing s with
  | nil => rfl
  | cons p t ih => rw [List.foldl_cons, ih]; split <;> simp
@[simp] theorem queueMg_out (ports : List BPort) (f : MgFrame) (s : State) : (queueMg ports f s).out = s.out := by
  unfold queueMg; induction ports generalizing s with
  | nil => rfl
  | cons p t ih => rw [List.foldl_cons, ih]; split <;> simp
@[simp] theorem queueMg_pending (ports : List BPort) (f : MgFrame) (s : State) : (queueMg ports f s).pending = s.pending := by
  unfold queueMg; induction ports generalizing s with
  | nil => rfl
  | cons p t ih => rw [List.foldl_cons, ih]; split <;> simp

/-! `floodMg` -/

@[simp] theorem floodMg_part (m : MgMsg) (s : State) : (floodMg m s).part = s.part := by simp [floodMg]
@[simp] theorem floodMg_minor (m : MgMsg) (s : State) : (floodMg m s).minor = s.minor := by simp [floodMg]
@[simp] theorem floodMg_clk (m : MgMsg) (s : State) : (floodMg m s).clk = s.clk := by simp [floodMg]
@[simp] theorem floodMg_cmdq (m : MgMsg) (s : State) : (floodMg m s).cmdq = s.cmdq := by simp [floodMg]
@[simp] theorem floodMg_time (m : MgMsg) (s : State) : (floodMg m s).time = s.time := by simp [floodMg]
@[simp] theorem floodMg_echo (m : MgMsg) (s : State) : (floodMg m s).echo = s.echo := by simp [floodMg]
@[simp] theorem floodMg_reform (m : MgMsg) (s : State) : (floodMg m s).reform = s.reform := by simp [floodMg]
@[simp] theorem floodMg_gallery (m : MgMsg) (s : State) : (floodMg m s).gallery = s.gallery := by simp [floodMg]
@[simp] theorem floodMg_planner (m : MgMsg) (s : State) : (floodMg m s).planner = s.planner := by simp [floodMg]
@[simp] theorem floodMg_vsu (m : MgMsg) (s : State) : (floodMg m s).vsu = s.vsu := by simp [floodMg]
@[simp] theorem floodMg_car (m : MgMsg) (s : State) : (floodMg m s).car = s.car := by simp [floodMg]
@[simp] theorem floodMg_rings (m : MgMsg) (s : State) : (floodMg m s).rings = s.rings := by simp [floodMg]
@[simp] theorem floodMg_md (m : MgMsg) (s : State) : (floodMg m s).md = s.md := by simp [floodMg]
@[simp] theorem floodMg_can (m : MgMsg) (s : State) : (floodMg m s).can = s.can := by simp [floodMg]
@[simp] theorem floodMg_twin (m : MgMsg) (s : State) : (floodMg m s).twin = s.twin := by simp [floodMg]
@[simp] theorem floodMg_router (m : MgMsg) (s : State) : (floodMg m s).router = s.router := by simp [floodMg]
@[simp] theorem floodMg_flow (m : MgMsg) (s : State) : (floodMg m s).flow = s.flow := by simp [floodMg]
@[simp] theorem floodMg_test (m : MgMsg) (s : State) : (floodMg m s).test = s.test := by simp [floodMg]
@[simp] theorem floodMg_power (m : MgMsg) (s : State) : (floodMg m s).power = s.power := by simp [floodMg]
@[simp] theorem floodMg_store (m : MgMsg) (s : State) : (floodMg m s).store = s.store := by simp [floodMg]
@[simp] theorem floodMg_regs (m : MgMsg) (s : State) : (floodMg m s).regs = s.regs := by simp [floodMg]
@[simp] theorem floodMg_ram (m : MgMsg) (s : State) : (floodMg m s).ram = s.ram := by simp [floodMg]
@[simp] theorem floodMg_out (m : MgMsg) (s : State) : (floodMg m s).out = s.out := by simp [floodMg]
@[simp] theorem floodMg_pending (m : MgMsg) (s : State) : (floodMg m s).pending = s.pending := by simp [floodMg]

/-! `linkMg` -/

@[simp] theorem linkMg_part (ports : List BPort) (m : MgMsg) (s : State) : (linkMg ports m s).part = s.part := by simp [linkMg]
@[simp] theorem linkMg_minor (ports : List BPort) (m : MgMsg) (s : State) : (linkMg ports m s).minor = s.minor := by simp [linkMg]
@[simp] theorem linkMg_clk (ports : List BPort) (m : MgMsg) (s : State) : (linkMg ports m s).clk = s.clk := by simp [linkMg]
@[simp] theorem linkMg_cmdq (ports : List BPort) (m : MgMsg) (s : State) : (linkMg ports m s).cmdq = s.cmdq := by simp [linkMg]
@[simp] theorem linkMg_time (ports : List BPort) (m : MgMsg) (s : State) : (linkMg ports m s).time = s.time := by simp [linkMg]
@[simp] theorem linkMg_echo (ports : List BPort) (m : MgMsg) (s : State) : (linkMg ports m s).echo = s.echo := by simp [linkMg]
@[simp] theorem linkMg_reform (ports : List BPort) (m : MgMsg) (s : State) : (linkMg ports m s).reform = s.reform := by simp [linkMg]
@[simp] theorem linkMg_gallery (ports : List BPort) (m : MgMsg) (s : State) : (linkMg ports m s).gallery = s.gallery := by simp [linkMg]
@[simp] theorem linkMg_planner (ports : List BPort) (m : MgMsg) (s : State) : (linkMg ports m s).planner = s.planner := by simp [linkMg]
@[simp] theorem linkMg_vsu (ports : List BPort) (m : MgMsg) (s : State) : (linkMg ports m s).vsu = s.vsu := by simp [linkMg]
@[simp] theorem linkMg_car (ports : List BPort) (m : MgMsg) (s : State) : (linkMg ports m s).car = s.car := by simp [linkMg]
@[simp] theorem linkMg_rings (ports : List BPort) (m : MgMsg) (s : State) : (linkMg ports m s).rings = s.rings := by simp [linkMg]
@[simp] theorem linkMg_md (ports : List BPort) (m : MgMsg) (s : State) : (linkMg ports m s).md = s.md := by simp [linkMg]
@[simp] theorem linkMg_can (ports : List BPort) (m : MgMsg) (s : State) : (linkMg ports m s).can = s.can := by simp [linkMg]
@[simp] theorem linkMg_twin (ports : List BPort) (m : MgMsg) (s : State) : (linkMg ports m s).twin = s.twin := by simp [linkMg]
@[simp] theorem linkMg_router (ports : List BPort) (m : MgMsg) (s : State) : (linkMg ports m s).router = s.router := by simp [linkMg]
@[simp] theorem linkMg_flow (ports : List BPort) (m : MgMsg) (s : State) : (linkMg ports m s).flow = s.flow := by simp [linkMg]
@[simp] theorem linkMg_test (ports : List BPort) (m : MgMsg) (s : State) : (linkMg ports m s).test = s.test := by simp [linkMg]
@[simp] theorem linkMg_power (ports : List BPort) (m : MgMsg) (s : State) : (linkMg ports m s).power = s.power := by simp [linkMg]
@[simp] theorem linkMg_store (ports : List BPort) (m : MgMsg) (s : State) : (linkMg ports m s).store = s.store := by simp [linkMg]
@[simp] theorem linkMg_regs (ports : List BPort) (m : MgMsg) (s : State) : (linkMg ports m s).regs = s.regs := by simp [linkMg]
@[simp] theorem linkMg_ram (ports : List BPort) (m : MgMsg) (s : State) : (linkMg ports m s).ram = s.ram := by simp [linkMg]
@[simp] theorem linkMg_out (ports : List BPort) (m : MgMsg) (s : State) : (linkMg ports m s).out = s.out := by simp [linkMg]
@[simp] theorem linkMg_pending (ports : List BPort) (m : MgMsg) (s : State) : (linkMg ports m s).pending = s.pending := by simp [linkMg]

/-! `jnMg` -/

@[simp] theorem jnMg_part (ports : List BPort) (m : MgMsg) (s : State) : (jnMg ports m s).part = s.part := by simp [jnMg]
@[simp] theorem jnMg_minor (ports : List BPort) (m : MgMsg) (s : State) : (jnMg ports m s).minor = s.minor := by simp [jnMg]
@[simp] theorem jnMg_clk (ports : List BPort) (m : MgMsg) (s : State) : (jnMg ports m s).clk = s.clk := by simp [jnMg]
@[simp] theorem jnMg_cmdq (ports : List BPort) (m : MgMsg) (s : State) : (jnMg ports m s).cmdq = s.cmdq := by simp [jnMg]
@[simp] theorem jnMg_time (ports : List BPort) (m : MgMsg) (s : State) : (jnMg ports m s).time = s.time := by simp [jnMg]
@[simp] theorem jnMg_echo (ports : List BPort) (m : MgMsg) (s : State) : (jnMg ports m s).echo = s.echo := by simp [jnMg]
@[simp] theorem jnMg_survey (ports : List BPort) (m : MgMsg) (s : State) : (jnMg ports m s).survey = s.survey := by simp [jnMg]
@[simp] theorem jnMg_reform (ports : List BPort) (m : MgMsg) (s : State) : (jnMg ports m s).reform = s.reform := by simp [jnMg]
@[simp] theorem jnMg_gallery (ports : List BPort) (m : MgMsg) (s : State) : (jnMg ports m s).gallery = s.gallery := by simp [jnMg]
@[simp] theorem jnMg_planner (ports : List BPort) (m : MgMsg) (s : State) : (jnMg ports m s).planner = s.planner := by simp [jnMg]
@[simp] theorem jnMg_vsu (ports : List BPort) (m : MgMsg) (s : State) : (jnMg ports m s).vsu = s.vsu := by simp [jnMg]
@[simp] theorem jnMg_car (ports : List BPort) (m : MgMsg) (s : State) : (jnMg ports m s).car = s.car := by simp [jnMg]
@[simp] theorem jnMg_rings (ports : List BPort) (m : MgMsg) (s : State) : (jnMg ports m s).rings = s.rings := by simp [jnMg]
@[simp] theorem jnMg_md (ports : List BPort) (m : MgMsg) (s : State) : (jnMg ports m s).md = s.md := by simp [jnMg]
@[simp] theorem jnMg_can (ports : List BPort) (m : MgMsg) (s : State) : (jnMg ports m s).can = s.can := by simp [jnMg]
@[simp] theorem jnMg_twin (ports : List BPort) (m : MgMsg) (s : State) : (jnMg ports m s).twin = s.twin := by simp [jnMg]
@[simp] theorem jnMg_router (ports : List BPort) (m : MgMsg) (s : State) : (jnMg ports m s).router = s.router := by simp [jnMg]
@[simp] theorem jnMg_flow (ports : List BPort) (m : MgMsg) (s : State) : (jnMg ports m s).flow = s.flow := by simp [jnMg]
@[simp] theorem jnMg_test (ports : List BPort) (m : MgMsg) (s : State) : (jnMg ports m s).test = s.test := by simp [jnMg]
@[simp] theorem jnMg_power (ports : List BPort) (m : MgMsg) (s : State) : (jnMg ports m s).power = s.power := by simp [jnMg]
@[simp] theorem jnMg_store (ports : List BPort) (m : MgMsg) (s : State) : (jnMg ports m s).store = s.store := by simp [jnMg]
@[simp] theorem jnMg_regs (ports : List BPort) (m : MgMsg) (s : State) : (jnMg ports m s).regs = s.regs := by simp [jnMg]
@[simp] theorem jnMg_ram (ports : List BPort) (m : MgMsg) (s : State) : (jnMg ports m s).ram = s.ram := by simp [jnMg]
@[simp] theorem jnMg_out (ports : List BPort) (m : MgMsg) (s : State) : (jnMg ports m s).out = s.out := by simp [jnMg]
@[simp] theorem jnMg_pending (ports : List BPort) (m : MgMsg) (s : State) : (jnMg ports m s).pending = s.pending := by simp [jnMg]

/-! `sendMgTo` -/

@[simp] theorem sendMgTo_part (pos : Nat) (m : MgMsg) (s : State) : (sendMgTo pos m s).part = s.part := by simp only [sendMgTo]; (repeat' split) <;> simp
@[simp] theorem sendMgTo_minor (pos : Nat) (m : MgMsg) (s : State) : (sendMgTo pos m s).minor = s.minor := by simp only [sendMgTo]; (repeat' split) <;> simp
@[simp] theorem sendMgTo_clk (pos : Nat) (m : MgMsg) (s : State) : (sendMgTo pos m s).clk = s.clk := by simp only [sendMgTo]; (repeat' split) <;> simp
@[simp] theorem sendMgTo_cmdq (pos : Nat) (m : MgMsg) (s : State) : (sendMgTo pos m s).cmdq = s.cmdq := by simp only [sendMgTo]; (repeat' split) <;> simp
@[simp] theorem sendMgTo_time (pos : Nat) (m : MgMsg) (s : State) : (sendMgTo pos m s).time = s.time := by simp only [sendMgTo]; (repeat' split) <;> simp
@[simp] theorem sendMgTo_echo (pos : Nat) (m : MgMsg) (s : State) : (sendMgTo pos m s).echo = s.echo := by simp only [sendMgTo]; (repeat' split) <;> simp
@[simp] theorem sendMgTo_reform (pos : Nat) (m : MgMsg) (s : State) : (sendMgTo pos m s).reform = s.reform := by simp only [sendMgTo]; (repeat' split) <;> simp
@[simp] theorem sendMgTo_gallery (pos : Nat) (m : MgMsg) (s : State) : (sendMgTo pos m s).gallery = s.gallery := by simp only [sendMgTo]; (repeat' split) <;> simp
@[simp] theorem sendMgTo_planner (pos : Nat) (m : MgMsg) (s : State) : (sendMgTo pos m s).planner = s.planner := by simp only [sendMgTo]; (repeat' split) <;> simp
@[simp] theorem sendMgTo_vsu (pos : Nat) (m : MgMsg) (s : State) : (sendMgTo pos m s).vsu = s.vsu := by simp only [sendMgTo]; (repeat' split) <;> simp
@[simp] theorem sendMgTo_car (pos : Nat) (m : MgMsg) (s : State) : (sendMgTo pos m s).car = s.car := by simp only [sendMgTo]; (repeat' split) <;> simp
@[simp] theorem sendMgTo_rings (pos : Nat) (m : MgMsg) (s : State) : (sendMgTo pos m s).rings = s.rings := by simp only [sendMgTo]; (repeat' split) <;> simp
@[simp] theorem sendMgTo_md (pos : Nat) (m : MgMsg) (s : State) : (sendMgTo pos m s).md = s.md := by simp only [sendMgTo]; (repeat' split) <;> simp
@[simp] theorem sendMgTo_can (pos : Nat) (m : MgMsg) (s : State) : (sendMgTo pos m s).can = s.can := by simp only [sendMgTo]; (repeat' split) <;> simp
@[simp] theorem sendMgTo_twin (pos : Nat) (m : MgMsg) (s : State) : (sendMgTo pos m s).twin = s.twin := by simp only [sendMgTo]; (repeat' split) <;> simp
@[simp] theorem sendMgTo_router (pos : Nat) (m : MgMsg) (s : State) : (sendMgTo pos m s).router = s.router := by simp only [sendMgTo]; (repeat' split) <;> simp
@[simp] theorem sendMgTo_flow (pos : Nat) (m : MgMsg) (s : State) : (sendMgTo pos m s).flow = s.flow := by simp only [sendMgTo]; (repeat' split) <;> simp
@[simp] theorem sendMgTo_test (pos : Nat) (m : MgMsg) (s : State) : (sendMgTo pos m s).test = s.test := by simp only [sendMgTo]; (repeat' split) <;> simp
@[simp] theorem sendMgTo_power (pos : Nat) (m : MgMsg) (s : State) : (sendMgTo pos m s).power = s.power := by simp only [sendMgTo]; (repeat' split) <;> simp
@[simp] theorem sendMgTo_store (pos : Nat) (m : MgMsg) (s : State) : (sendMgTo pos m s).store = s.store := by simp only [sendMgTo]; (repeat' split) <;> simp
@[simp] theorem sendMgTo_regs (pos : Nat) (m : MgMsg) (s : State) : (sendMgTo pos m s).regs = s.regs := by simp only [sendMgTo]; (repeat' split) <;> simp
@[simp] theorem sendMgTo_ram (pos : Nat) (m : MgMsg) (s : State) : (sendMgTo pos m s).ram = s.ram := by simp only [sendMgTo]; (repeat' split) <;> simp
@[simp] theorem sendMgTo_out (pos : Nat) (m : MgMsg) (s : State) : (sendMgTo pos m s).out = s.out := by simp only [sendMgTo]; (repeat' split) <;> simp
@[simp] theorem sendMgTo_pending (pos : Nat) (m : MgMsg) (s : State) : (sendMgTo pos m s).pending = s.pending := by simp only [sendMgTo]; (repeat' split) <;> simp

/-! `emitMg` -/

@[simp] theorem emitMg_part (p : BPort) (m : MgMsg) (s : State) : (emitMg p m s).part = s.part := by simp [emitMg]
@[simp] theorem emitMg_minor (p : BPort) (m : MgMsg) (s : State) : (emitMg p m s).minor = s.minor := by simp [emitMg]
@[simp] theorem emitMg_clk (p : BPort) (m : MgMsg) (s : State) : (emitMg p m s).clk = s.clk := by simp [emitMg]
@[simp] theorem emitMg_cmdq (p : BPort) (m : MgMsg) (s : State) : (emitMg p m s).cmdq = s.cmdq := by simp [emitMg]
@[simp] theorem emitMg_time (p : BPort) (m : MgMsg) (s : State) : (emitMg p m s).time = s.time := by simp [emitMg]
@[simp] theorem emitMg_echo (p : BPort) (m : MgMsg) (s : State) : (emitMg p m s).echo = s.echo := by simp [emitMg]
@[simp] theorem emitMg_survey (p : BPort) (m : MgMsg) (s : State) : (emitMg p m s).survey = s.survey := by simp [emitMg]
@[simp] theorem emitMg_reform (p : BPort) (m : MgMsg) (s : State) : (emitMg p m s).reform = s.reform := by simp [emitMg]
@[simp] theorem emitMg_gallery (p : BPort) (m : MgMsg) (s : State) : (emitMg p m s).gallery = s.gallery := by simp [emitMg]
@[simp] theorem emitMg_planner (p : BPort) (m : MgMsg) (s : State) : (emitMg p m s).planner = s.planner := by simp [emitMg]
@[simp] theorem emitMg_vsu (p : BPort) (m : MgMsg) (s : State) : (emitMg p m s).vsu = s.vsu := by simp [emitMg]
@[simp] theorem emitMg_car (p : BPort) (m : MgMsg) (s : State) : (emitMg p m s).car = s.car := by simp [emitMg]
@[simp] theorem emitMg_rings (p : BPort) (m : MgMsg) (s : State) : (emitMg p m s).rings = s.rings := by simp [emitMg]
@[simp] theorem emitMg_md (p : BPort) (m : MgMsg) (s : State) : (emitMg p m s).md = s.md := by simp [emitMg]
@[simp] theorem emitMg_can (p : BPort) (m : MgMsg) (s : State) : (emitMg p m s).can = s.can := by simp [emitMg]
@[simp] theorem emitMg_twin (p : BPort) (m : MgMsg) (s : State) : (emitMg p m s).twin = s.twin := by simp [emitMg]
@[simp] theorem emitMg_router (p : BPort) (m : MgMsg) (s : State) : (emitMg p m s).router = s.router := by simp [emitMg]
@[simp] theorem emitMg_flow (p : BPort) (m : MgMsg) (s : State) : (emitMg p m s).flow = s.flow := by simp [emitMg]
@[simp] theorem emitMg_test (p : BPort) (m : MgMsg) (s : State) : (emitMg p m s).test = s.test := by simp [emitMg]
@[simp] theorem emitMg_power (p : BPort) (m : MgMsg) (s : State) : (emitMg p m s).power = s.power := by simp [emitMg]
@[simp] theorem emitMg_store (p : BPort) (m : MgMsg) (s : State) : (emitMg p m s).store = s.store := by simp [emitMg]
@[simp] theorem emitMg_regs (p : BPort) (m : MgMsg) (s : State) : (emitMg p m s).regs = s.regs := by simp [emitMg]
@[simp] theorem emitMg_ram (p : BPort) (m : MgMsg) (s : State) : (emitMg p m s).ram = s.ram := by simp [emitMg]
@[simp] theorem emitMg_pending (p : BPort) (m : MgMsg) (s : State) : (emitMg p m s).pending = s.pending := by simp [emitMg]

/-! `markRelayed` -/

@[simp] theorem markRelayed_part (x : Relayed) (s : State) : (markRelayed x s).part = s.part := by rfl
@[simp] theorem markRelayed_minor (x : Relayed) (s : State) : (markRelayed x s).minor = s.minor := by rfl
@[simp] theorem markRelayed_clk (x : Relayed) (s : State) : (markRelayed x s).clk = s.clk := by rfl
@[simp] theorem markRelayed_cmdq (x : Relayed) (s : State) : (markRelayed x s).cmdq = s.cmdq := by rfl
@[simp] theorem markRelayed_time (x : Relayed) (s : State) : (markRelayed x s).time = s.time := by rfl
@[simp] theorem markRelayed_echo (x : Relayed) (s : State) : (markRelayed x s).echo = s.echo := by rfl
@[simp] theorem markRelayed_reform (x : Relayed) (s : State) : (markRelayed x s).reform = s.reform := by rfl
@[simp] theorem markRelayed_gallery (x : Relayed) (s : State) : (markRelayed x s).gallery = s.gallery := by rfl
@[simp] theorem markRelayed_planner (x : Relayed) (s : State) : (markRelayed x s).planner = s.planner := by rfl
@[simp] theorem markRelayed_vsu (x : Relayed) (s : State) : (markRelayed x s).vsu = s.vsu := by rfl
@[simp] theorem markRelayed_bb (x : Relayed) (s : State) : (markRelayed x s).bb = s.bb := by rfl
@[simp] theorem markRelayed_car (x : Relayed) (s : State) : (markRelayed x s).car = s.car := by rfl
@[simp] theorem markRelayed_rings (x : Relayed) (s : State) : (markRelayed x s).rings = s.rings := by rfl
@[simp] theorem markRelayed_md (x : Relayed) (s : State) : (markRelayed x s).md = s.md := by rfl
@[simp] theorem markRelayed_can (x : Relayed) (s : State) : (markRelayed x s).can = s.can := by rfl
@[simp] theorem markRelayed_twin (x : Relayed) (s : State) : (markRelayed x s).twin = s.twin := by rfl
@[simp] theorem markRelayed_router (x : Relayed) (s : State) : (markRelayed x s).router = s.router := by rfl
@[simp] theorem markRelayed_flow (x : Relayed) (s : State) : (markRelayed x s).flow = s.flow := by rfl
@[simp] theorem markRelayed_test (x : Relayed) (s : State) : (markRelayed x s).test = s.test := by rfl
@[simp] theorem markRelayed_power (x : Relayed) (s : State) : (markRelayed x s).power = s.power := by rfl
@[simp] theorem markRelayed_store (x : Relayed) (s : State) : (markRelayed x s).store = s.store := by rfl
@[simp] theorem markRelayed_regs (x : Relayed) (s : State) : (markRelayed x s).regs = s.regs := by rfl
@[simp] theorem markRelayed_ram (x : Relayed) (s : State) : (markRelayed x s).ram = s.ram := by rfl
@[simp] theorem markRelayed_out (x : Relayed) (s : State) : (markRelayed x s).out = s.out := by rfl
@[simp] theorem markRelayed_pending (x : Relayed) (s : State) : (markRelayed x s).pending = s.pending := by rfl

end Sys2Proof.Machine
end

