-- ==== Sys2Proof/Laws/Commands.lean ====
section
/-! SUPPORT. How a command of a queue gets past its checks: one lemma for each check, and one that turns a command past all of them
into its effect. -/

namespace Sys2Proof.Machine

set_option Elab.async false

/-! ### The end of a command -/

@[simp] theorem begin_idem (s : State) : begin_ (begin_ s) = begin_ s := rfl

theorem run_eq (f : State → State) (s : State) : run f s = .next (after f s) := rfl

theorem after_congr {f g : State → State} {s : State} (h : f (begin_ s) = g (begin_ s)) : after f s = after g s := by
  unfold after; rw [h]

/-- A command whose meaning runs an effect does every effect that agrees with it. -/
theorem does_of {i : Instr} {s : State} {f g : State → State} (hi : exec i s = run f s) (h : f (begin_ s) = g (begin_ s)) :
    Does i s g := by
  unfold Does; rw [hi, run_eq, after_congr h]

/-- A command whose meaning runs an effect completes with what holds after it. -/
theorem completes_of {i : Instr} {s : State} {f : State → State} {p : State → Prop} (hi : exec i s = run f s)
    (h : p (after f s)) : Completes i s p := ⟨_, hi, h⟩

/-! The end of a command leaves all but the router, what was sent and the queue as the effect left it. -/

theorem after_part (f : State → State) (s : State) : (after f s).part = (f (begin_ s)).part := rfl
theorem after_minor (f : State → State) (s : State) : (after f s).minor = (f (begin_ s)).minor := rfl
theorem after_clk (f : State → State) (s : State) : (after f s).clk = (f (begin_ s)).clk := rfl
theorem after_cmdq (f : State → State) (s : State) : (after f s).cmdq = (f (begin_ s)).cmdq := rfl
theorem after_time (f : State → State) (s : State) : (after f s).time = (f (begin_ s)).time := rfl
theorem after_echo (f : State → State) (s : State) : (after f s).echo = (f (begin_ s)).echo := rfl
theorem after_survey (f : State → State) (s : State) : (after f s).survey = (f (begin_ s)).survey := rfl
theorem after_reform (f : State → State) (s : State) : (after f s).reform = (f (begin_ s)).reform := rfl
theorem after_gallery (f : State → State) (s : State) : (after f s).gallery = (f (begin_ s)).gallery := rfl
theorem after_planner (f : State → State) (s : State) : (after f s).planner = (f (begin_ s)).planner := rfl
theorem after_vsu (f : State → State) (s : State) : (after f s).vsu = (f (begin_ s)).vsu := rfl
theorem after_bb (f : State → State) (s : State) : (after f s).bb = (f (begin_ s)).bb := rfl
theorem after_car (f : State → State) (s : State) : (after f s).car = (f (begin_ s)).car := rfl
theorem after_rings (f : State → State) (s : State) : (after f s).rings = (f (begin_ s)).rings := rfl
theorem after_md (f : State → State) (s : State) : (after f s).md = (f (begin_ s)).md := rfl
theorem after_can (f : State → State) (s : State) : (after f s).can = (f (begin_ s)).can := rfl
theorem after_twin (f : State → State) (s : State) : (after f s).twin = (f (begin_ s)).twin := rfl
theorem after_flow (f : State → State) (s : State) : (after f s).flow = (f (begin_ s)).flow := rfl
theorem after_test (f : State → State) (s : State) : (after f s).test = (f (begin_ s)).test := rfl
theorem after_power (f : State → State) (s : State) : (after f s).power = (f (begin_ s)).power := rfl
theorem after_store (f : State → State) (s : State) : (after f s).store = (f (begin_ s)).store := rfl
theorem after_regs (f : State → State) (s : State) : (after f s).regs = (f (begin_ s)).regs := rfl
theorem after_ram (f : State → State) (s : State) : (after f s).ram = (f (begin_ s)).ram := rfl

/-! ### Its turn -/

theorem withCmd_ready {op : Nat} {tag : BitVec 8} {c : Cmd} {s : State} (h : Ready op tag c s) (f : Cmd → State → State) :
    withCmd op tag f s = f c s := by
  obtain ⟨h1, h2, h3, h4⟩ := h
  simp [withCmd, starts, h1, h2, h3, h4]

theorem ready_begin {op : Nat} {tag : BitVec 8} {c : Cmd} {s : State} (h : Ready op tag c s) : Ready op tag c (begin_ s) := h

/-! ### The checks -/

@[simp] theorem firstFail_nil : firstFail [] = none := rfl
@[simp] theorem firstFail_none (l : List Fail) : firstFail (none :: l) = firstFail l := rfl
@[simp] theorem firstFail_some (e : Nat × Nat) (l : List Fail) : firstFail (some e :: l) = some e := rfl
@[simp] theorem failIf_false (st r : Nat) : failIf false st r = none := rfl
@[simp] theorem failIf_true (st r : Nat) : failIf true st r = some (st, r) := rfl
@[simp] theorem absent_false : absent false = none := rfl
@[simp] theorem badP_false (c : Cmd) (n : Nat) : badP false c n = none := rfl
@[simp] theorem refuseIf_false (s : State) : refuseIf false s = none := rfl
@[simp] theorem noResource_false (n : Nat) : noResource false n = none := rfl
@[simp] theorem quarFail_none (s : State) : quarFail s none = none := rfl
@[simp] theorem busyFail_none (s : State) : busyFail s none = none := rfl

theorem checked_ok {l : List Fail} (h : firstFail l = none) (c : Cmd) (f : State → State) (s : State) : checked c l f s = f s := by
  simp [checked, h]

theorem lenCheck_ok {c : Cmd} {n : Nat} {b : Bool} (h1 : c.plen = n) (h2 : c.buffer = b) : lenCheck c n b = none := by
  simp [lenCheck, h1, h2]

theorem epochFail_ok {c : Cmd} {s : State} (h : EpochOk c s) : epochFail c s = none := by
  rcases h with h | h <;> simp [epochFail, h]

theorem quarFail_ok {s : State} {b : Nat} (h : quarantined s b = false) : quarFail s (some b) = none := by
  simp [quarFail, h]

theorem busyFail_ok {s : State} {b : Nat} (h : ∀ t ∈ s.test.tests, t.block = b → t.running = false) :
    busyFail s (some b) = none := by
  have : (s.test.tests.find? fun t => t.block == b && t.running) = none := by
    rw [List.find?_eq_none]
    intro t ht
    by_cases hb : t.block = b
    · simp [h t ht hb]
    · simp [hb]
  simp [busyFail, this]

/-- The state step of a command that names no block, or a free one, and that nothing refuses. -/
theorem stateChecks_ok {c : Cmd} {s : State} {b : Option Nat} (he : EpochOk c s) (hb : ∀ n, b = some n → BlockFree s n) :
    firstFail (stateChecks c s b false) = none := by
  cases b with
  | none => simp [stateChecks, epochFail_ok he]
  | some n => simp [stateChecks, epochFail_ok he, quarFail_ok (hb n rfl).1, busyFail_ok (hb n rfl).2]

theorem firstFail_append {l m : List Fail} (h : firstFail l = none) : firstFail (l ++ m) = firstFail m := by
  induction l with
  | nil => rfl
  | cons x t ih => cases x with
    | none => exact ih h
    | some e => cases h

theorem failIf_of {b : Bool} (h : b = false) (st r : Nat) : failIf b st r = none := by rw [h]; rfl

theorem descChecks_ok {c : Cmd} {least : Nat} (h : DescOk c least) : firstFail (descChecks c least) = none := by
  obtain ⟨h1, h2, h3, h4, h5, h6⟩ := h
  unfold descChecks
  by_cases hq : c.sq < 6
  · have := h5 hq
    have e : (cmdHost c == HostId.spi) = false := by simp [cmdHost, sqHost, hq]
    rw [e]
    show firstFail [failIf _ _ _, failIf _ _ _] = none
    rw [failIf_of, failIf_of] <;> simp [h1, h2] <;> omega
  · have := h6 (by omega)
    have e : (cmdHost c == HostId.spi) = true := by simp [cmdHost, sqHost, hq]
    rw [e]
    show firstFail [failIf _ _ _, failIf _ _ _] = none
    rw [failIf_of, failIf_of] <;> simp [h1, h2] <;> omega

/-- The presence and state of a command whose object is a port code (R8, R9, R86). -/
theorem objectState_ok {c : Cmd} {s : State} {n lo hi : Nat} (he : EpochOk c s) (h : CodeOk c n lo hi s) :
    firstFail (objectState c s n lo hi false) = none := by
  obtain ⟨h1, h2, h3, h4, h5⟩ := h
  have hin : inRange lo hi (pB c n) = true := by simp [inRange, h1, h2]
  simp only [objectState, hin, h3, h4, Bool.and_false, absent_false, Bool.or_self, List.singleton_append, firstFail_none, if_true]
  exact stateChecks_ok he h5

theorem objectChecks_ok {c : Cmd} {s : State} {n lo hi : Nat} (he : EpochOk c s) (h : CodeOk c n lo hi s) :
    firstFail (objectChecks c s n lo hi false) = none := by
  rw [objectChecks, firstFail_append (objectState_ok he h)]
  simp [inRange, h.1, h.2.1]

/-! ### The output -/

theorem finishOut_takes {c : Cmd} {wr : Bool} (h : Takes c wr) (bytes : List Byte) (r : Nat) (s : State) :
    finishOut c wr bytes r s = finish c 0 r (delivered c bytes s) := by
  by_cases hq : c.sq < 6
  · have hw : wr = true := h.resolve_right (by omega)
    simp [finishOut, outBuffer, cmdHost, sqHost, hq, hw, delivered]
  · simp [finishOut, outBuffer, cmdHost, sqHost, hq, delivered]

end Sys2Proof.Machine
end

