-- ==== Sys2Proof/Laws/Settings.lean ====
section
/-! SUPPORT. Commands past their checks: reports, settings of a unit with no partner, and what the shared operations of settings leave
alone. -/

namespace Sys2Proof.Machine

set_option Elab.async false

/-- The length and state steps of a command that names no block, or a free one. -/
theorem len_state {c : Cmd} {s : State} {n : Nat} {bf : Bool} {b : Option Nat} (h1 : c.plen = n) (h2 : c.buffer = bf) (he : EpochOk c s)
    (hb : ∀ n, b = some n → BlockFree s n) : firstFail ([lenCheck c n bf] ++ stateChecks c s b false) = none := by
  rw [lenCheck_ok h1 h2, List.singleton_append, firstFail_none, stateChecks_ok he hb]

/-- A command that only reports: it finishes with its report. -/
theorem query {op n : Nat} {tag : BitVec 8} {c : Cmd} {s : State} {i : Instr} {b : Option Nat} {r : State → Nat}
    (h : Plain op n tag c s) (hb : ∀ n, b = some n → BlockFree s n)
    (hi : exec i s = run (withCmd op tag fun c s => checked c ([lenCheck c n false] ++ stateChecks c s b false) (finish c 0 (r s)) s) s) :
    Does i s (finish c 0 (r (begin_ s))) := by
  obtain ⟨hr, hl, hbf, he⟩ := h
  refine does_of hi ?_
  have hk := len_state (s := begin_ s) hl hbf he hb
  rw [withCmd_ready (ready_begin hr), checked_ok hk]

/-- A command that concerns no block concerns no busy one. -/
theorem none_free (s : State) : ∀ n, (none : Option Nat) = some n → BlockFree s n := fun _ h => by cases h

/-- A command past its checks does its effect. -/
theorem doCmd {op : Nat} {tag : BitVec 8} {c : Cmd} {s : State} {i : Instr} {l : Cmd → State → List Fail} {g : Cmd → State → State}
    {e : State → State}
    (h : Ready op tag c s)
    (hi : exec i s = run (withCmd op tag fun c s => checked c (l c s) (g c) s) s)
    (hl : firstFail (l c (begin_ s)) = none) (he : g c (begin_ s) = e (begin_ s)) : Does i s e := by
  refine does_of hi ?_
  rw [withCmd_ready (ready_begin h), checked_ok hl, he]

/-- The checks of a command with a buffer. -/
theorem bufChecks {c : Cmd} {s : State} {n least : Nat} {b : Option Nat} {rest : List Fail} (h1 : c.plen = n) (h2 : c.buffer = true)
    (he : EpochOk c s) (hb : ∀ n, b = some n → BlockFree s n) (hd : DescOk c least) (hr : firstFail rest = none) :
    firstFail ([lenCheck c n true] ++ stateChecks c s b false ++ descChecks c least ++ rest) = none := by
  rw [firstFail_append, hr]
  rw [firstFail_append (len_state h1 h2 he hb), descChecks_ok hd]

/-- The command in flight under a tag carries it. -/
theorem ready_tag {op tag c s} (h : Ready op tag c s) : c.tag = tag := by
  have := List.find?_some h.2.1; simpa using this

/-- The command of a tag after a change of it. -/
theorem cmdOf_setCmd {s : State} {tag : BitVec 8} {c : Cmd} (h : cmdOf s tag = some c) (f : Cmd → Cmd) (hf : ∀ x, (f x).tag = x.tag) :
    cmdOf (setCmd tag f s) tag = some (f c) := by
  have ht : c.tag = tag := by simpa using List.find?_some h
  unfold cmdOf setCmd
  simp only [List.find?_map]
  have : ((fun c : Cmd => c.tag == tag) ∘ fun c => if c.tag = tag then f c else c) = fun c => c.tag == tag := by
    funext x; simp only [Function.comp]; split <;> simp [hf]
  rw [this]; unfold cmdOf at h; rw [h]; simp [ht]

/-- A started command is in flight under its tag. -/
theorem cmdOf_park {op tag c s} (h : Ready op tag c s) (r r2 : Nat) :
    cmdOf (park c r r2 s) tag = some { c with phase := .started, ref := r, ref2 := r2 } := by
  have ht := ready_tag h
  unfold park; subst ht; exact cmdOf_setCmd h.2.1 (fun x => { x with phase := .started, ref := r, ref2 := r2 }) (fun _ => rfl)

/-- The commands in flight are the command queues' part of the state. -/
theorem cmdOf_congr {s t : State} (h : t.cmdq = s.cmdq) (tag) : cmdOf t tag = cmdOf s tag := by unfold cmdOf; rw [h]

/-- A command whose epoch stands reaches its commit point and completes with OK. -/
theorem atCommit_ok {op tag c s} {e : State → State} {t : State} (h : Ready op tag c s) (he : EpochOk c s) (ht : t.cmdq = (park c 0 0 s).cmdq)
    (hs : t.survey = s.survey) (hk : (e t).cmdq = t.cmdq) : atCommit (some tag) 0 e t = finish c 0 0 (e t) := by
  have h1 : cmdOf t tag = _ := (cmdOf_congr ht tag).trans (cmdOf_park h 0 0)
  have h2 : cmdOf (e t) tag = _ := (cmdOf_congr hk tag).trans h1
  have h3 : epochMoved t (some tag) = false := by
    simp only [epochMoved, Option.bind_some, h1, epochFail, hs]
    rcases he with h | h <;> simp [failIf, h]
  simp only [atCommit, h3, doneOk, finishTag, h2]; rfl

/-- A setting that the lane does not carry takes effect at once. -/
theorem start_alone {effect : Effect} {c : Cmd} {buf : List Byte} {s : State} (h : passesSettings (park c 0 0 s) = false)
    (hp : (takeSetting effect (some c.tag) c buf (park c 0 0 s)).twin.partner = none) :
    startSetting effect c buf s = takeSetting effect (some c.tag) c buf (park c 0 0 s) := by
  unfold startSetting
  rw [if_neg (by simp [h]), if_neg (by simp [hp])]

/-- The setting of a unit with no partner: in effect, noted and completed. -/
theorem solo_start {op : Nat} {tag : BitVec 8} {c : Cmd} {s : State} {effect : Effect} {buf : List Byte} {e : State → State}
    (hr : Ready op tag c s) (hs : Solo s) (he : EpochOk c s)
    (heff : ∀ t, effect (some c.tag) c buf t = atCommit (some c.tag) 0 e t) (hk : ∀ t, (e t).cmdq = t.cmdq) (hw : ∀ t, (e t).twin.partner = t.twin.partner) :
    startSetting effect c buf s = settingTaken c buf e s := by
  have ht := ready_tag hr
  have e1 : takeSetting effect (some c.tag) c buf (park c 0 0 s) = settingTaken c buf e s := by
    unfold takeSetting settingTaken
    rw [heff, ht]; exact atCommit_ok hr he rfl rfl (hk _)
  rw [start_alone, e1]
  · simp [passesSettings, laneUp, hs.2]
  · rw [e1]; simp [settingTaken, hw, noteSetting, hs.2]

/-- What each step of a fold leaves alone, the fold leaves alone. -/
theorem foldl_keep {α β : Type} (g : State → β) (f : State → α → State) (h : ∀ s a, g (f s a) = g s) (l : List α) (s : State) :
    g (l.foldl f s) = g s := by
  induction l generalizing s with
  | nil => rfl
  | cons a t ih => rw [List.foldl_cons, ih, h]

@[simp] theorem hostStore_cmdq (h : HostId) (a : Nat) (b : List Byte) (s : State) : (hostStore h a b s).cmdq = s.cmdq := by
  cases h <;> simp [hostStore]
@[simp] theorem txWriteBack_cmdq (x : Stall) (s : State) : (txWriteBack x s).cmdq = s.cmdq := by
  cases hp : (txRing s x.tag.ring).port with
  | none => simp only [txWriteBack, hp]
  | some p =>
    simp only [txWriteBack, hp, assertPort_cmdq]
    rw [foldl_keep (fun s => s.cmdq) _ (fun s a => by simp)]
    split <;> simp
@[simp] theorem sweepTx_cmdq (s : State) : (sweepTx s).cmdq = s.cmdq := by
  unfold sweepTx
  exact foldl_keep (fun s => s.cmdq) _ (fun s a => by split <;> simp) _ _
@[simp] theorem pauseCheck_cmdq (n : Nat) (s : State) : (pauseCheck n s).cmdq = s.cmdq := by
  simp only [pauseCheck, sendPause]; (repeat' split) <;> simp
@[simp] theorem setLink_cmdq (n : Nat) (l : LinkState) (s : State) : (setLink n l s).cmdq = s.cmdq := by
  simp only [setLink]; (repeat' split) <;> simp
@[simp] theorem setQueue_cmdq (n : Nat) (g) (s : State) : (setQueue n g s).cmdq = s.cmdq := rfl
@[simp] theorem setIngress_cmdq (p : EPort) (g) (s : State) : (setIngress p g s).cmdq = s.cmdq := rfl
@[simp] theorem clearPort_cmdq (n : Nat) (s : State) : (clearPort n s).cmdq = s.cmdq := by
  unfold clearPort
  simp only [sweepTx_cmdq]
  rw [foldl_keep (fun s => s.cmdq) _ (fun s a => by simp)]
  split <;> simp
@[simp] theorem reopen_cmdq (p : EPort) (r : Nat) (s : State) : (reopen p r s).cmdq = s.cmdq := by
  simp only [reopen]; split <;> simp

@[simp] theorem hostStore_twin (h : HostId) (a : Nat) (b : List Byte) (s : State) : (hostStore h a b s).twin = s.twin := by
  cases h <;> simp [hostStore]
@[simp] theorem txWriteBack_twin (x : Stall) (s : State) : (txWriteBack x s).twin = s.twin := by
  cases hp : (txRing s x.tag.ring).port with
  | none => simp only [txWriteBack, hp]
  | some p =>
    simp only [txWriteBack, hp, assertPort_twin]
    rw [foldl_keep (fun s => s.twin) _ (fun s a => by simp)]
    split <;> simp
@[simp] theorem sweepTx_twin (s : State) : (sweepTx s).twin = s.twin := by
  unfold sweepTx
  exact foldl_keep (fun s => s.twin) _ (fun s a => by split <;> simp) _ _
@[simp] theorem pauseCheck_twin (n : Nat) (s : State) : (pauseCheck n s).twin = s.twin := by
  simp only [pauseCheck, sendPause]; (repeat' split) <;> simp
@[simp] theorem setLink_twin (n : Nat) (l : LinkState) (s : State) : (setLink n l s).twin = s.twin := by
  simp only [setLink]; (repeat' split) <;> simp
@[simp] theorem setQueue_twin (n : Nat) (g) (s : State) : (setQueue n g s).twin = s.twin := rfl
@[simp] theorem setIngress_twin (p : EPort) (g) (s : State) : (setIngress p g s).twin = s.twin := rfl
@[simp] theorem clearPort_twin (n : Nat) (s : State) : (clearPort n s).twin = s.twin := by
  unfold clearPort
  simp only [sweepTx_twin]
  rw [foldl_keep (fun s => s.twin) _ (fun s a => by simp)]
  split <;> simp
@[simp] theorem reopen_twin (p : EPort) (r : Nat) (s : State) : (reopen p r s).twin = s.twin := by
  simp only [reopen]; split <;> simp

/-- The checks of a command that names an instance by a port code. -/
theorem codeChecks {c : Cmd} {s : State} {n lo hi len : Nat} {bf : Bool} {rest : List Fail} (h1 : c.plen = len) (h2 : c.buffer = bf)
    (he : EpochOk c s) (h : CodeOk c n lo hi s) (hr : firstFail rest = none) :
    firstFail ([lenCheck c len bf] ++ objectChecks c s n lo hi false ++ rest) = none := by
  rw [firstFail_append, hr]
  rw [lenCheck_ok h1 h2, List.singleton_append, firstFail_none, objectChecks_ok he h]

/-- A unit with no partner is no standby, and refuses no setting. -/
theorem solo_refuses {s : State} (h : Solo s) (lane : Bool) : standbyRefuses lane s = false := by
  have : isStandby s = false := by simp [isStandby, h.1]
  simp [standbyRefuses, this]

/-- A setting of a unit with no partner. -/
theorem solo_does {op : Nat} {tag : BitVec 8} {c : Cmd} {s : State} {i : Instr} {effect : Effect} {l : Cmd → State → List Fail} {e : State → State}
    (hr : Ready op tag c s) (hs : Solo s) (he : EpochOk c s)
    (hi : exec i s = run (withCmd op tag fun c s => checked c (l c s) (startSetting effect c []) s) s)
    (hl : firstFail (l c (begin_ s)) = none)
    (heff : ∀ t, effect (some c.tag) c [] t = atCommit (some c.tag) 0 e t) (hk : ∀ t, (e t).cmdq = t.cmdq) (hw : ∀ t, (e t).twin.partner = t.twin.partner) :
    Does i s (settingTaken c [] e) :=
  doCmd hr hi hl (solo_start (ready_begin hr) hs he heff hk hw)

/-- A commit depends on its effect in the state it finds only. -/
theorem atCommit_congr {tag r} {e e' : State → State} {t : State} (h : e t = e' t) : atCommit tag r e t = atCommit tag r e' t := by
  simp only [atCommit, h]

/-- The boundary of a gate list depends on the clock and the cycle only. -/
theorem gateCycle_congr {s t : State} (h : t.clk = s.clk) (h' : t.time = s.time) (x : Nat) : gateCycle t x = gateCycle s x := by
  cases s; cases t; cases h; cases h'; rfl

/-- A number within a bound is not beyond it. -/
theorem le_not_lt {a b : Nat} (h : a ≤ b) : decide (b < a) = false := decide_eq_false (by omega)

/-- Checks that all pass. -/
theorem firstFail_all {l : List Fail} (h : ∀ e ∈ l, e = none) : firstFail l = none := by
  induction l with
  | nil => rfl
  | cons a t ih => rw [h a (by simp)]; exact ih fun e he => h e (by simp [he])

@[simp] theorem assertMd_cmdq (g off : Nat) (s : State) : (assertMd g off s).cmdq = s.cmdq := by simp [assertMd]

/-- A command whose epoch stands is not refused at its commit point. -/
theorem epochMoved_no {tag} {c d : Cmd} {s t : State} (h : cmdOf t tag = some d) (he : EpochOk c s) (hd : d.epoch = c.epoch)
    (hs : t.survey = s.survey) : epochMoved t (some tag) = false := by
  simp only [epochMoved, Option.bind_some, h, epochFail, hs, hd]
  rcases he with h | h <;> simp [failIf, h]

@[simp] theorem setCanState_cmdq (n st) (s : State) : (setCanState n st s).cmdq = s.cmdq := by
  simp only [setCanState, assertCan]; split <;> simp
@[simp] theorem setCanState_twin (n st) (s : State) : (setCanState n st s).twin = s.twin := by
  simp only [setCanState, assertCan]; split <;> simp
@[simp] theorem canRestart_cmdq (n) (s : State) : (canRestart n s).cmdq = s.cmdq := by simp [canRestart]
@[simp] theorem canRestart_twin (n) (s : State) : (canRestart n s).twin = s.twin := by simp [canRestart]

/-- A controller of the part after a change of it. -/
theorem canAt_setCan {s t : State} {k : Nat} (h : t.can = s.can) (hl : k < s.can.length) (f : CanCtl → CanCtl) :
    canAt (setCan k f t) k = f (canAt s k) := by
  show ((t.can.modify k f).getD k _) = f (s.can.getD k _)
  rw [h]; simp [List.getD, hl]

/-- Two changes of a controller are one. -/
theorem setCan_setCan (k : Nat) (f g : CanCtl → CanCtl) (s : State) : setCan k f (setCan k g s) = setCan k (fun x => f (g x)) s := by
  simp only [setCan, List.modify_modify_eq]; rfl

/-- No offending byte, no failure. -/
theorem badP_bind (c : Cmd) {o : Option Nat} (h : o = none) : (o.bind fun i => badP true c (4 + i)) = none := by rw [h]; rfl

end Sys2Proof.Machine
end

