-- ==== Sys2Proof/Laws/Tab.lean ====
section
/-! SUPPORT. Tables and memory: reading after writing, and the canonical form that every operation keeps. -/

namespace Sys2Proof.Machine

set_option Elab.async false

variable {α : Type}

/-! ### Reading after writing -/

theorem tabGet_above (d : α) {t : Tab α} {m n : Nat} (h : tabAbove (some m) t = true) (hn : n ≤ m) : tabGet d t n = d := by
  induction t generalizing m with
  | nil => rfl
  | cons e t ih =>
    obtain ⟨k, v⟩ := e
    simp only [tabAbove, Bool.and_eq_true, decide_eq_true_eq] at h
    rw [tabGet, if_neg (by omega), ih h.2 (by omega)]

theorem tabAbove_none {t : Tab α} {m : Nat} (h : tabAbove (some m) t = true) : tabAbove none t = true := by
  cases t with
  | nil => rfl
  | cons e t => simp only [tabAbove, Bool.and_eq_true] at h; exact h.2

theorem tabAbove_mono {t : Tab α} {m n : Nat} (h : tabAbove (some m) t = true) (hn : n ≤ m) : tabAbove (some n) t = true := by
  cases t with
  | nil => rfl
  | cons e t =>
    simp only [tabAbove, Bool.and_eq_true, decide_eq_true_eq] at h ⊢
    exact ⟨by omega, h.2⟩

theorem tabAbove_filter {t : Tab α} (p : Nat × α → Bool) {b : Nat} (h : tabAbove (some b) t = true) :
    tabAbove (some b) (t.filter p) = true := by
  induction t generalizing b with
  | nil => rfl
  | cons e t ih =>
    simp only [tabAbove, Bool.and_eq_true, decide_eq_true_eq] at h
    rw [List.filter_cons]
    split
    · simp only [tabAbove, Bool.and_eq_true, decide_eq_true_eq]; exact ⟨h.1, ih h.2⟩
    · exact ih (tabAbove_mono h.2 (by omega))

variable [DecidableEq α]

/-- Reading the entry that was written gives the value written; every other entry reads as before. -/
theorem tabGet_tabSet (d : α) {t : Tab α} (h : tabAbove none t = true) (n m : Nat) (x : α) :
    tabGet d (tabSet d t n x) m = if m = n then x else tabGet d t m := by
  induction t with
  | nil =>
    by_cases hx : x = d <;> by_cases hm : m = n <;> simp [tabSet, tabGet, hx, hm, eq_comm]
    intro hh; exact absurd hh.symm hm
  | cons e t ih =>
    obtain ⟨k, v⟩ := e
    have ht : tabAbove (some k) t = true := h
    rw [tabSet]
    by_cases h1 : n < k
    · rw [if_pos h1]
      by_cases hx : x = d
      · rw [if_pos hx]
        by_cases hm : m = n
        · subst hm
          rw [if_pos rfl, tabGet, if_neg (by omega), tabGet_above d ht (by omega), hx]
        · rw [if_neg hm]
      · rw [if_neg hx, tabGet]
        by_cases hm : m = n
        · simp [hm]
        · rw [if_neg (fun h => hm h.symm), if_neg hm]
    · rw [if_neg h1]
      by_cases h2 : n = k
      · subst h2
        rw [if_pos rfl]
        by_cases hx : x = d
        · rw [if_pos hx]
          by_cases hm : m = n
          · subst hm; rw [if_pos rfl, tabGet_above d ht (Nat.le_refl _), hx]
          · rw [if_neg hm, tabGet, if_neg (fun h => hm h.symm)]
        · rw [if_neg hx, tabGet]
          by_cases hm : m = n
          · simp [hm]
          · rw [if_neg (fun h => hm h.symm), if_neg hm, tabGet, if_neg (fun h => hm h.symm)]
      · rw [if_neg h2, tabGet, tabGet]
        by_cases hk : k = m
        · rw [if_pos hk, if_pos hk, if_neg (by omega)]
        · rw [if_neg hk, if_neg hk, ih (tabAbove_none ht)]

/-! ### The canonical form -/

theorem tabAbove_tabSet (d : α) {t : Tab α} {b : Nat} (h : tabAbove (some b) t = true) (n : Nat) (hn : b < n) (x : α) :
    tabAbove (some b) (tabSet d t n x) = true := by
  induction t generalizing b with
  | nil => by_cases hx : x = d <;> simp [tabSet, tabAbove, hx, hn]
  | cons e t ih =>
    obtain ⟨k, v⟩ := e
    simp only [tabAbove, Bool.and_eq_true, decide_eq_true_eq] at h
    rw [tabSet]
    by_cases h1 : n < k
    · by_cases hx : x = d <;> simp [h1, hx, tabAbove, h.1, h.2, hn]
    · rw [if_neg h1]
      by_cases h2 : n = k
      · subst h2
        by_cases hx : x = d
        · simp only [if_true, hx]; exact tabAbove_mono h.2 (by omega)
        · simp [hx, tabAbove, hn, h.2]
      · rw [if_neg h2]
        simp only [tabAbove, Bool.and_eq_true, decide_eq_true_eq]
        exact ⟨h.1, ih h.2 (by omega)⟩

theorem tabAbove_tabSet_none (d : α) {t : Tab α} (h : tabAbove none t = true) (n : Nat) (x : α) :
    tabAbove none (tabSet d t n x) = true := by
  cases t with
  | nil => by_cases hx : x = d <;> simp [tabSet, tabAbove, hx]
  | cons e t =>
    obtain ⟨k, v⟩ := e
    have ht : tabAbove (some k) t = true := h
    rw [tabSet]
    by_cases h1 : n < k
    · by_cases hx : x = d <;> simp [h1, hx, tabAbove, ht]
    · rw [if_neg h1]
      by_cases h2 : n = k
      · subst h2
        by_cases hx : x = d
        · simp only [if_true, hx]; exact tabAbove_none ht
        · simp [hx, tabAbove, ht]
      · rw [if_neg h2]
        exact tabAbove_tabSet d ht n (by omega) x

theorem tabAll_tabSet (d : α) {t : Tab α} (h : (t.all fun e => decide (e.2 ≠ d)) = true) (n : Nat) (x : α) :
    ((tabSet d t n x).all fun e => decide (e.2 ≠ d)) = true := by
  induction t with
  | nil => by_cases hx : x = d <;> simp [tabSet, hx]
  | cons e t ih =>
    obtain ⟨k, v⟩ := e
    simp only [List.all_cons, Bool.and_eq_true] at h
    rw [tabSet]
    by_cases h1 : n < k
    · by_cases hx : x = d
      · rw [if_pos h1, if_pos hx, List.all_cons, h.1, h.2]; rfl
      · rw [if_pos h1, if_neg hx, List.all_cons, List.all_cons, h.1, h.2]; simp [hx]
    · rw [if_neg h1]
      by_cases h2 : n = k
      · by_cases hx : x = d
        · rw [if_pos h2, if_pos hx]; exact h.2
        · rw [if_pos h2, if_neg hx, List.all_cons, h.2]; simp [hx]
      · rw [if_neg h2, List.all_cons, h.1, ih h.2]; rfl

/-- Writing one entry keeps the canonical form. -/
theorem tabWf_tabSet (d : α) {t : Tab α} (h : tabWf d t = true) (n : Nat) (x : α) : tabWf d (tabSet d t n x) = true := by
  simp only [tabWf, Bool.and_eq_true] at h ⊢
  exact ⟨tabAbove_tabSet_none d h.1 n x, tabAll_tabSet d h.2 n x⟩

/-- Changing one entry keeps the canonical form. -/
theorem tabWf_tabUpd (d : α) {t : Tab α} (h : tabWf d t = true) (n : Nat) (f : α → α) : tabWf d (tabUpd d t n f) = true :=
  tabWf_tabSet d h n _

/-- Leaving entries out keeps the canonical form. -/
theorem tabWf_filter (d : α) {t : Tab α} (p : Nat × α → Bool) (h : tabWf d t = true) : tabWf d (t.filter p) = true := by
  simp only [tabWf, Bool.and_eq_true] at h ⊢
  refine ⟨?_, ?_⟩
  · cases t with
    | nil => rfl
    | cons e t =>
      have ht : tabAbove (some e.1) t = true := h.1
      rw [List.filter_cons]
      split
      · exact tabAbove_filter p ht
      · exact tabAbove_none (tabAbove_filter p ht)
  · rw [List.all_eq_true] at h ⊢
    exact fun e he => h.2 e (List.mem_filter.mp he).1

/-! ### Node memory -/

theorem memWf_above {m : Memory} (h : m.wf = true) : tabAbove none m = true := by
  simp only [Memory.wf, tabWf, Bool.and_eq_true] at h; exact h.1

/-- Every write keeps the canonical form of memory. -/
theorem memWrite_wf {m : Memory} (h : m.wf = true) (a : Nat) (bs : List Byte) : (memWrite m a bs).wf = true := by
  induction bs generalizing m a with
  | nil => exact h
  | cons b bs ih => exact ih (tabWf_tabSet 0 h a b) (a + 1)

/-- Clearing a range keeps the canonical form of memory. -/
theorem memZero_wf {m : Memory} (h : m.wf = true) (a n : Nat) : (memZero m a n).wf = true := tabWf_filter 0 _ h

theorem memByte_set {m : Memory} (h : m.wf = true) (a x : Nat) (b : Byte) :
    memByte (tabSet 0 m a b) x = if x = a then b else memByte m x := tabGet_tabSet 0 (memWf_above h) a x b

/-- Reading after a write: the bytes written, and every other byte as before. -/
theorem memByte_memWrite {m : Memory} (h : m.wf = true) (a : Nat) (bs : List Byte) (x : Nat) :
    memByte (memWrite m a bs) x = if a ≤ x ∧ x < a + bs.length then bs.getD (x - a) 0 else memByte m x := by
  induction bs generalizing m a with
  | nil => rw [if_neg (by simp only [List.length_nil]; omega)]; rfl
  | cons b bs ih =>
    rw [memWrite, ih (tabWf_tabSet 0 h a b) (a + 1), memByte_set h]
    simp only [List.length_cons]
    by_cases hx : x = a
    · subst hx
      rw [if_neg (by omega), if_pos rfl, if_pos (by omega)]; simp
    · rw [if_neg hx]
      by_cases h2 : a + 1 ≤ x ∧ x < a + 1 + bs.length
      · rw [if_pos h2, if_pos (by omega)]
        have : x - a = (x - (a + 1)) + 1 := by omega
        rw [this]; simp
      · rw [if_neg h2, if_neg (by omega)]

/-- The memory after reset is in canonical form. -/
theorem reset_ram_wf : State.reset.ram.wf = true := rfl

end Sys2Proof.Machine
end

