-- ==== Sys2Proof/Laws/Line.lean ====
section
/-! SUPPORT. Lemmas of the ports and the line: a frame that is handed to its effect, segments, controllers, and writes in several parts. -/

open Sys2Proof Sys2Proof.Machine

namespace Sys2Proof.Machine

set_option Elab.async false

theorem handed_fields (rx : MgRx) (m : MgMsg) (s : State) :
    (handed rx m s).survey = s.survey ∧ (handed rx m s).twin = s.twin ∧ (handed rx m s).reform = s.reform ∧ (handed rx m s).planner = s.planner ∧
    (handed rx m s).power = s.power ∧ (handed rx m s).time = s.time ∧ (handed rx m s).store = s.store ∧ (handed rx m s).test = s.test ∧
    (handed rx m s).cmdq = s.cmdq ∧ (handed rx m s).echo = s.echo ∧ (handed rx m s).part = s.part := by
  unfold handed
  split
  · simp [arrived]
  · have hw : ∀ u : State, (mgWindow rx u).1.survey = u.survey ∧ (mgWindow rx u).1.twin = u.twin ∧ (mgWindow rx u).1.reform = u.reform ∧ (mgWindow rx u).1.planner = u.planner ∧
        (mgWindow rx u).1.power = u.power ∧ (mgWindow rx u).1.time = u.time ∧ (mgWindow rx u).1.store = u.store ∧ (mgWindow rx u).1.test = u.test ∧
        (mgWindow rx u).1.cmdq = u.cmdq ∧ (mgWindow rx u).1.echo = u.echo ∧ (mgWindow rx u).1.part = u.part := by
      intro u; unfold mgWindow; split <;> exact ⟨rfl, rfl, rfl, rfl, rfl, rfl, rfl, rfl, rfl, rfl, rfl⟩
    have := hw (arrived rx s)
    simp only []
    obtain ⟨a1, a2, a3, a4, a5, a6, a7, a8, a9, a10, a11⟩ := this
    split <;> simp only [queueMg_survey, queueMg_twin, queueMg_reform, queueMg_planner, queueMg_power, queueMg_time, queueMg_store, queueMg_test, queueMg_cmdq, queueMg_echo, queueMg_part, a1, a2, a3, a4, a5, a6, a7, a8, a9, a10, a11] <;> simp [arrived]

theorem mgWindow_verdict (rx : MgRx) {u v : State} (h : u.gallery = v.gallery) : (mgWindow rx u).2 = (mgWindow rx v).2 := by
  unfold mgWindow; rw [h]; split <;> rfl

theorem mgWindow_twin (rx : MgRx) (u : State) : (mgWindow rx u).1.twin = u.twin := by unfold mgWindow; split <;> rfl

theorem ownRank_congr {u v : State} (h : u.twin = v.twin) : ownRank u = ownRank v := by unfold ownRank isStandby; rw [h]

theorem arrived_open (rx : MgRx) (s : State) : bbOpen (arrived rx (begin_ s)) rx.port = bbOpen s rx.port := by
  have h1 : neighAt (arrived rx (begin_ s)) rx.port = neighAt s rx.port := by
    unfold neighAt; rw [show (arrived rx (begin_ s)).survey = s.survey by simp [arrived]]
  have h2 : (bbAt (arrived rx (begin_ s)) rx.port).up = (bbAt s rx.port).up := by
    unfold arrived countBb setBb bbAt
    simp only [List.getD, List.getElem?_modify, if_true, toLt_bb, begin_]
    cases s.bb[rx.port.idx]? <;> rfl
  unfold bbOpen; rw [h1, h2]

theorem mgIn_handed {rx : MgRx} {m : MgMsg} {s : State} (act : State → State) (h1 : Whole rx s) (h2 : ForMe rx s) :
    mgIn rx m act (begin_ s) = act (handed rx m (begin_ s)) := by
  obtain ⟨a1, a2, a3, a4, a5, a6, a7, a8, a9⟩ := h1
  have t : bbTakes (begin_ s) rx.port = true := by
    show (running s && inService s (8 + rx.port.idx)) = true; rw [a1, a2]; rfl
  have up : (bbAt (begin_ s) rx.port).up = true := by
    have : bbOpen s rx.port = true := a3
    unfold bbOpen at this; simp only [Bool.and_eq_true] at this; exact this.1.1
  have o' : bbOpen (countBb rx.port 0x00 (toLt (rxEnd rx) (begin_ s))) rx.port = true := by
    rw [← a3]; exact (arrived_open rx s)
  have hm : mgIn rx m act (begin_ s) = mgResolve rx m act (arrived rx (begin_ s)) := by
    unfold mgIn
    rw [t, up, if_neg (by simp)]
    simp only []
    rw [if_neg (by omega), a6]
    simp only []
    rw [o', if_neg (by simp), if_neg (by simp [a7]), if_neg (by simp [a8]), if_neg (by omega)]; rfl
  rw [hm]; unfold mgResolve handed
  rcases h2 with h2 | ⟨h2, h3⟩
  · rw [if_pos h2, if_pos h2]
  · have h3' : (mgWindow rx (arrived rx (begin_ s))).2 = .accept := by
      exact (mgWindow_verdict rx (by simp [arrived])).trans h3
    by_cases hl : rx.da = linkLocal
    · rw [if_pos hl, if_pos hl]
    · rw [if_neg hl, if_neg hl]
      by_cases ha : rx.da = allNodes
      · rw [if_pos ha]; simp only [if_pos ha, windowed]
        generalize hw : mgWindow rx (arrived rx (begin_ s)) = w at h3' ⊢
        obtain ⟨u, v⟩ := w
        simp only at h3'; subst h3'; rfl
      · rw [if_neg ha]; simp only [if_neg ha]
        obtain ⟨h4, h5⟩ := h2.resolve_left ha
        have hp : ownPosition (arrived rx (begin_ s)) rx.da = true := by
          unfold ownPosition numbered at h4 ⊢; simpa [arrived] using h4
        have hr : ownRank (arrived rx (begin_ s)) = ownRank s := by unfold ownRank isStandby; simp [arrived]
        have hle : ¬ 2 ≤ macRank rx.da := by rw [h5]; unfold ownRank b2n; split <;> omega
        rw [if_pos hp, if_neg hle, if_pos (h5.trans hr.symm)]
        unfold windowed
        generalize hw : mgWindow rx (arrived rx (begin_ s)) = w at h3' ⊢
        obtain ⟨u, v⟩ := w
        simp only at h3'; subst h3'; rfl

theorem jnIn_handed {rx : MgRx} {h : JnHead} {m : MgMsg} {s : State} (act : State → State) (h1 : Whole rx s) (h2 : ForMe rx s) (h3 : FirstCopy h m s) :
    jnIn rx h m act (begin_ s) = act (handedJn rx h m (begin_ s)) := by
  unfold jnIn
  rw [mgIn_handed _ h1 h2]
  obtain ⟨f1, _⟩ := handed_fields rx m (begin_ s)
  have : (numbered (handed rx m (begin_ s)) && relayOnce { mtype := mgType m, origin := h.origin, round := h.serial } (handed rx m (begin_ s))) = true := by
    unfold numbered relayOnce; rw [f1]
    have a := h3.1; have b := h3.2
    unfold numbered at a; unfold relayOnce at b
    rw [Bool.and_eq_true]; exact ⟨a, b⟩
  simp only []
  rw [if_pos this]; rfl

theorem memWrite_append (m : Memory) (a : Nat) (x y : List Byte) : memWrite m a (x ++ y) = memWrite (memWrite m a x) (a + x.length) y := by
  induction x generalizing m a with
  | nil => rfl
  | cons b t ih => simp only [List.cons_append, memWrite, List.length_cons]; rw [ih]; congr 1; omega

theorem spiPutAll_ram (n a : Nat) (bs : List Byte) (s : State) (h1 : 0x02000000 ≤ a) (h2 : a + bs.length ≤ 0x02040000) (hn : bs.length ≤ n) :
    (spiPutAll n a bs s).ram = memWrite s.ram a (bs.take (bs.length / 4 * 4)) := by
  induction n generalizing a bs s with
  | zero => have : bs = [] := by simpa using hn
            subst this; rfl
  | succ n ih =>
    rw [spiPutAll]
    split
    · rename_i h
      have : bs.length / 4 = 0 := by omega
      rw [this]; simp [memWrite]
    · rename_i h
      have hp : spiPut a (bs.take 4) s = { s with ram := memWrite s.ram a (bs.take 4) } := by
        unfold spiPut
        rw [if_neg (by omega)]
        rw [if_pos]
        unfold spiHolds
        simp; right; omega
      rw [hp, ih (a + 4) (bs.drop 4) _ (by omega) (by simp; omega) (by simp; omega)]
      have e : bs.take (bs.length / 4 * 4) = bs.take 4 ++ (bs.drop 4).take ((bs.drop 4).length / 4 * 4) := by
        rw [List.length_drop]
        have : bs.length / 4 * 4 = 4 + (bs.length - 4) / 4 * 4 := by omega
        rw [this, List.take_add]
      rw [e, memWrite_append]
      have : (bs.take 4).length = 4 := by simp; omega
      rw [this]

theorem mdAt_setMd {g : Nat} {f : MdSeg → MdSeg} {s : State} (h : g < s.md.length) : mdAt (setMd g f s) g = f (mdAt s g) := by
  simp [mdAt, setMd, List.getD, h]

theorem mdSent_idle {g : Nat} {s : State} (h : (mdAt s g).onPair = false) : mdSent g s = s := by simp [mdSent, h]

theorem mdCommit_none {g : Nat} {s : State} (h : (mdAt s g).due = none) : mdCommit g s = s := by simp [mdCommit, h]

theorem foldl_md (f : State → Nat → State) (hf : ∀ s n, (f s n).md = s.md) (l : List Nat) (s : State) : (l.foldl f s).md = s.md := by
  induction l generalizing s with
  | nil => rfl
  | cons a t ih => rw [List.foldl_cons, ih, hf]

theorem mdNotice_md (b s : State) : (mdNotice b s).md = s.md := by
  unfold mdNotice; apply foldl_md
  intro s n; split
  · rfl
  · simp

theorem canAt_setCan' {n : Nat} {f : CanCtl → CanCtl} {s : State} (h : n < s.can.length) : canAt (setCan n f s) n = f (canAt s n) := by
  simp [canAt, setCan, List.getD, h]

theorem later_self (s : State) : laterRound s s.survey.round = false := by
  unfold laterRound; simp

theorem adopt_self {r : BitVec 16} {s : State} (h : r = s.survey.round) : adoptRound r s = s := by
  unfold adoptRound; rw [h, later_self]; simp

theorem jnMg_frame (ps : List BPort) (m : MgMsg) (s : State) :
    (jnMg ps m s).survey = s.survey ∧ (jnMg ps m s).reform = s.reform := by
  exact ⟨jnMg_survey .., jnMg_reform ..⟩

theorem toLt_neighAt (n : Nat) (s : State) (p : BPort) : neighAt (toLt n s) p = neighAt s p := by unfold neighAt; simp

theorem toLt_accepted (n : Nat) (s : State) : (toLt n s).gallery = s.gallery := by simp

theorem toLt_ingress (n : Nat) (s : State) (p : EPort) : ingressAt (toLt n s) p = ingressAt s p := by unfold ingressAt; simp

theorem ringLog2_pow {n : Nat} (h1 : 4 ≤ n) (h2 : n ≤ 12) : ringLog2 (2 ^ n) = some n := by
  have : n = 4 ∨ n = 5 ∨ n = 6 ∨ n = 7 ∨ n = 8 ∨ n = 9 ∨ n = 10 ∨ n = 11 ∨ n = 12 := by omega
  rcases this with h | h | h | h | h | h | h | h | h <;> subst h <;> rfl


end Sys2Proof.Machine
end

