-- ==== Sys2Proof/Laws/Queues.lean ====
section
/-! SUPPORT. Lemmas of the queues: exclusive commands, the parameter step, completion queues, entries and their fields, queue resets,
and the registers that no command of a queue touches. -/

open Sys2Proof Sys2Proof.Machine

namespace Sys2Proof.Machine

set_option Elab.async false

theorem not_standby {s : State} (h : s.twin.role ≠ .standby) : isStandby s = false := by simp [isStandby, h]

/-- The first command of its opcode in flight (R76). -/
theorem exclusive_ok {c : Cmd} {s : State} {tag : BitVec 8} {op : Nat} (hr : Ready op tag c s)
    (h : ∀ e ∈ s.cmdq.inflight, e.opcode = op → e.tag ≠ tag → c.acc ≤ e.acc ∧ e.phase = .fetched) : exclusiveFail c s = none := by
  rw [exclusiveFail, failIf_of]
  rw [List.any_eq_false]
  intro e he
  unfold firstInFlight
  rw [ready_tag hr, hr.2.2.1]
  by_cases a : e.opcode = op <;> by_cases b : e.tag = tag <;> simp [a, b]
  exact h e he a b

theorem plainBegin {op n : Nat} {tag : BitVec 8} {c : Cmd} {s : State} {b : Option Nat} {rest : List Fail} {refuse : Bool}
    (h : Plain op n tag c s) (hr : refuse = false) (hb : ∀ n, b = some n → BlockFree s n) (hf : firstFail rest = none) :
    firstFail ([lenCheck c n false] ++ stateChecks c (begin_ s) b refuse ++ rest) = none := by
  obtain ⟨_, hl, hbf, he⟩ := h
  rw [hr, firstFail_append (len_state (s := begin_ s) hl hbf he hb), hf]

theorem plainBegin0 {op n : Nat} {tag : BitVec 8} {c : Cmd} {s : State} {b : Option Nat} {refuse : Bool}
    (h : Plain op n tag c s) (hr : refuse = false) (hb : ∀ n, b = some n → BlockFree s n) :
    firstFail ([lenCheck c n false] ++ stateChecks c (begin_ s) b refuse) = none := by
  have := plainBegin (rest := []) h hr hb rfl
  rwa [List.append_nil] at this

theorem modify_congr {α : Type} {l : List α} {n : Nat} {f g : α → α} (h : ∀ x, l[n]? = some x → f x = g x) : l.modify n f = l.modify n g := by
  apply List.ext_getElem?
  intro i
  rw [List.getElem?_modify, List.getElem?_modify]
  by_cases hi : n = i
  · subst hi; simp only [if_true]; cases hx : l[n]? with
    | none => rfl
    | some x => simp [h x hx]
  · simp [hi]

theorem setCq_congr {m : Nat} {f g : Cq → Cq} {s : State} (h : f (cqAt s m) = g (cqAt s m)) : setCq m f s = setCq m g s := by
  unfold setCq; rw [modify_congr]
  intro x hx
  have : cqAt s m = x := by simp [cqAt, List.getD, hx]
  rw [← this]; exact h

theorem setCq_setCq (m : Nat) (f g : Cq → Cq) (s : State) : setCq m f (setCq m g s) = setCq m (fun x => f (g x)) s := by
  simp only [setCq, List.modify_modify_eq]; rfl

theorem cqAt_setCq {m : Nat} {f : Cq → Cq} {s : State} (h : m < s.cmdq.cqs.length) : cqAt (setCq m f s) m = f (cqAt s m) := by
  simp [cqAt, setCq, List.getD, h]

theorem log2_of (val : Word) : bits val.toNat 3 0 = val.toNat % 16 := by simp [bits]

theorem endUndefined_none {s : State} (h : ∀ c ∈ s.cmdq.inflight, c.opcode ∈ opcodes) : endUndefined s = s := by
  unfold endUndefined
  have : ∀ (l : List Cmd) (t : State), (∀ c ∈ l, c.opcode ∈ opcodes) →
      l.foldl (fun s c => if !opcodes.contains c.opcode && mayStart s c then finish c 0x10 0 s else s) t = t := by
    intro l
    induction l with
    | nil => intro t _; rfl
    | cons c l ih =>
      intro t ht
      have hc : opcodes.contains c.opcode = true := by rw [List.contains_iff_mem]; exact ht c (by simp)
      rw [List.foldl_cons, hc]
      exact ih t fun c hc => ht c (by simp [hc])
  exact this _ _ h

theorem le_length (n x : Nat) : (le n x).length = n := by
  induction n generalizing x with
  | zero => rfl
  | succ n ih => simp [le, ih]

theorem unle_le (n x : Nat) (h : x < 256 ^ n) : unle (le n x) = x := by
  induction n generalizing x with
  | zero => simp at h; subst h; rfl
  | succ n ih =>
    have : x / 256 < 256 ^ n := by rw [Nat.pow_succ] at h; omega
    simp only [le, unle, ih _ this, BitVec.toNat_ofNat]; omega

theorem fld_append_left {a b : List Byte} {i n : Nat} (h : i + n ≤ a.length) : fld (a ++ b) i n = fld a i n := by
  unfold fld slice
  rw [List.drop_append_of_le_length (by omega), List.take_append_of_le_length (by simp; omega)]

theorem fld_append_right {a b : List Byte} {i n : Nat} (h : a.length ≤ i) : fld (a ++ b) i n = fld b (i - a.length) n := by
  unfold fld slice
  rw [List.drop_append, List.drop_eq_nil_of_le h, List.nil_append]

theorem fld_le (n x : Nat) (h : x < 256 ^ n) : fld (le n x) 0 n = x := by
  unfold fld slice
  rw [List.drop_zero, List.take_of_length_le (Nat.le_of_eq (le_length n x)), unle_le n x h]

theorem checked_fail {l : List Fail} {st r : Nat} (h : firstFail l = some (st, r)) (c : Cmd) (f : State → State) (s : State) :
    checked c l f s = finish c st r s := by simp [checked, h]

theorem resetSq_idle (q cause : Nat) (s : State) (h : ∀ c ∈ s.cmdq.inflight, c.sq ≠ q) :
    resetSq q cause s = setSq q (fun x => { x with state := .resetting, enable := false, resetCause := cause }) s := by
  unfold resetSq
  have : ((setSq q (fun x => { x with state := QState.resetting, enable := false, resetCause := cause }) s).cmdq.inflight.filter
      fun c => c.sq == q && beforeCommit c) = [] := by
    rw [List.filter_eq_nil_iff]; intro c hc
    have := h c hc
    simp [this]
  simp only [this]; rfl

theorem entryBytes_length (x : Completion) (h : Nat) (p : Bool) : (entryBytes x h p).length = 16 := by
  unfold entryBytes; simp [le]

/-! ### Stopping a command touches no register of the window -/

theorem foldl_regs {α : Type} (f : State → α → State) (hf : ∀ s a, (f s a).regs = s.regs) (l : List α) (s : State) :
    (l.foldl f s).regs = s.regs := by
  induction l generalizing s with
  | nil => rfl
  | cons a t ih => rw [List.foldl_cons, ih, hf]

@[simp] theorem dropUnits_regs (tag : BitVec 8) (s : State) : (dropUnits tag s).regs = s.regs := rfl

@[simp] theorem endSleep_regs (s : State) : (endSleep s).regs = s.regs := by simp [endSleep]

@[simp] theorem cancelSleep_regs (cause : Nat) (s : State) : (cancelSleep cause s).regs = s.regs := by
  unfold cancelSleep; split
  · rfl
  · simp [cancelRecord]

@[simp] theorem dropHandover_regs (s : State) : (dropHandover s).regs = s.regs := by
  unfold dropHandover; simp only []; split <;> simp

@[simp] theorem dropNode_regs (tag : BitVec 8) (cause : Nat) (s : State) : (dropNode tag cause s).regs = s.regs := by
  unfold dropNode; simp only []; split <;> split <;> simp

@[simp] theorem setLink_regs (n : Nat) (l : LinkState) (s : State) : (setLink n l s).regs = s.regs := by
  simp only [setLink]; (repeat' split) <;> simp

@[simp] theorem retrain_regs (t : Test) (s : State) : (retrain t s).regs = s.regs := by
  unfold retrain trainLink; split <;> simp

@[simp] theorem cutTest_regs (cause : Nat) (t : Test) (s : State) : (cutTest cause t s).regs = s.regs := by
  unfold cutTest; simp only []; split <;> simp [setResult, dropTest]

@[simp] theorem stopTest_regs (tag : BitVec 8) (cause : Nat) (s : State) : (stopTest tag cause s).regs = s.regs := by
  unfold stopTest; split
  · split
    · rfl
    · simp
  · rfl

@[simp] theorem stopCmd_regs (cause : Nat) (s : State) (c : Cmd) : (stopCmd cause s c).regs = s.regs := by
  unfold stopCmd; simp only []; split <;> simp

@[simp] theorem resetSq_regs (q cause : Nat) (s : State) : (resetSq q cause s).regs = s.regs := by
  unfold resetSq; rw [foldl_regs _ (fun s c => stopCmd_regs _ s c)]; rfl

end Sys2Proof.Machine
end

