-- ==== Sys2Proof/Laws/Router.lean ====
section
/-! SUPPORT. Lemmas of the event router: the bit words, the routing table, candidates, the winner and the request. -/

open Sys2Proof Sys2Proof.Machine

namespace Sys2Proof.Machine

set_option Elab.async false

theorem bit_set (i : Nat) (x : BitVec 641) (j : Nat) (h : j ≤ 640) : (x ||| BitVec.twoPow 641 i).getLsbD j = (x.getLsbD j || decide (j = i)) := by
  simp [show j < 641 by omega]

theorem bit_clr (i : Nat) (x : BitVec 641) (j : Nat) (h : j ≤ 640) : (x &&& ~~~(BitVec.twoPow 641 i)).getLsbD j = (x.getLsbD j && !decide (j = i)) := by
  simp [show j < 641 by omega]

theorem getLsbD_setBits (ids : List Nat) (x : BitVec 641) (j : Nat) (h : j ≤ 640) :
    (setBits ids x).getLsbD j = (x.getLsbD j || ids.contains j) := by
  unfold setBits
  induction ids generalizing x with
  | nil => simp
  | cons i t ih =>
    rw [List.foldl_cons, ih, bit_set i x j h, List.contains_cons, Bool.or_assoc]
    rfl

theorem getLsbD_clrBits (ids : List Nat) (x : BitVec 641) (j : Nat) (h : j ≤ 640) :
    (clrBits ids x).getLsbD j = (x.getLsbD j && !ids.contains j) := by
  unfold clrBits
  induction ids generalizing x with
  | nil => simp
  | cons i t ih =>
    rw [List.foldl_cons, ih, bit_clr i x j h, List.contains_cons, Bool.not_or, Bool.and_assoc]
    rfl

theorem wordIds_contains (h : HostId) (n : Nat) (val : Word) (s : State) (j : Nat) :
    (wordIds h n val s).contains j = (decide (j / 32 = n) && val.getLsbD (j % 32) && bitsOf h s j) := by
  rw [Bool.eq_iff_iff, List.contains_iff_mem]
  simp only [wordIds, List.mem_map, List.mem_filter, List.mem_range, Bool.and_eq_true, decide_eq_true_eq]
  constructor
  · rintro ⟨b, ⟨hb, h1, h2⟩, rfl⟩
    have e1 : (32 * n + b) / 32 = n := by omega
    have e2 : (32 * n + b) % 32 = b := by omega
    exact ⟨⟨e1, by rw [e2]; exact h1⟩, h2⟩
  · rintro ⟨⟨h1, h2⟩, h3⟩
    refine ⟨j % 32, ⟨by omega, h2, ?_⟩, by omega⟩
    have : 32 * n + j % 32 = j := by omega
    rw [this]; exact h3

theorem filter_contains (p : Nat → Bool) (l : List Nat) (j : Nat) : (l.filter p).contains j = (l.contains j && p j) := by
  rw [Bool.eq_iff_iff]; simp [List.mem_filter]

theorem tabSet_mem {α : Type} [DecidableEq α] (d : α) (t : Tab α) (n : Nat) (x : α) (e : Nat × α) (h : e ∈ tabSet d t n x) : e ∈ t ∨ e.1 = n := by
  induction t with
  | nil =>
    unfold tabSet at h; split at h
    · cases h
    · rw [List.mem_singleton] at h; right; rw [h]
  | cons a t ih =>
    obtain ⟨k, v⟩ := a
    rw [tabSet] at h
    split at h
    · split at h
      · exact .inl h
      · rcases List.mem_cons.1 h with h | h
        · right; rw [h]
        · exact .inl h
    · split at h
      · split at h
        · left; exact List.mem_cons_of_mem _ h
        · rcases List.mem_cons.1 h with h | h
          · right; rw [h]
          · left; exact List.mem_cons_of_mem _ h
      · rcases List.mem_cons.1 h with h | h
        · left; rw [h]; exact List.mem_cons_self
        · rcases ih h with h | h
          · left; exact List.mem_cons_of_mem _ h
          · exact .inr h

theorem wf_above {α : Type} [DecidableEq α] {d : α} {t : Tab α} (h : tabWf d t = true) : tabAbove none t = true := by
  unfold tabWf at h; rw [Bool.and_eq_true] at h; exact h.1

theorem routing_keeps {s : State} {id : Nat} {x : SrcCfg} (h : RoutingOk s) (h1 : 1 ≤ id) (h2 : id ≤ 640) (t : State)
    (ht : t.router.cfg = tabSet {} s.router.cfg id x) : RoutingOk t := by
  refine ⟨?_, ?_⟩
  · rw [ht]; exact tabWf_tabSet _ h.1 _ _
  · intro e he
    rw [ht] at he
    rcases tabSet_mem _ _ _ _ _ he with h9 | h9
    · exact h.2 e h9
    · omega

theorem foldl_or_bit (l : List Nat) (p : Nat → Bool) (x : BitVec 10) (j : Nat) (h1 : x.getLsbD j = false) (h2 : p j = false) :
    (l.foldl (fun a v => if p v then a ||| BitVec.twoPow 10 v else a) x).getLsbD j = false := by
  induction l generalizing x with
  | nil => exact h1
  | cons v t ih =>
    rw [List.foldl_cons]; apply ih
    by_cases hv : p v = true
    · have : v ≠ j := by intro h; rw [h, h2] at hv; cases hv
      rw [if_pos hv, BitVec.getLsbD_or, h1, BitVec.getLsbD_twoPow]
      simp; intro _ h; exact this h
    · rw [if_neg hv]; exact h1

theorem foldl_clr_bit (l : List Nat) (x : BitVec 10) (j : Nat) (hj : j < 10) (h : x.getLsbD j = false ∨ j ∈ l) :
    (l.foldl (fun a v => a &&& ~~~(BitVec.twoPow 10 v)) x).getLsbD j = false := by
  induction l generalizing x with
  | nil => rcases h with h | h; exact h; cases h
  | cons v t ih =>
    rw [List.foldl_cons]; apply ih
    by_cases hv : v = j
    · left; subst hv; simp [BitVec.getLsbD_twoPow]
    · rcases h with h | h
      · left; simp [h]
      · right; rcases List.mem_cons.1 h with h | h
        · exact absurd h.symm hv
        · exact h

theorem cand_iff {s : State} {t : Nat} {e : Nat × SrcCfg} : Candidate s t e ↔ e ∈ s.router.cfg.filter (isCandidate s t) := by
  rw [List.mem_filter]
  simp only [isCandidate, Bool.and_eq_true, decide_eq_true_eq, beq_iff_eq, Bool.not_eq_true']
  constructor
  · rintro ⟨h1, h2, h3, h4, h5, h6, h7, h8⟩; exact ⟨h1, ⟨⟨⟨⟨⟨⟨h2, h3⟩, h4⟩, h5⟩, h6⟩, h7⟩, h8⟩⟩
  · rintro ⟨h1, ⟨⟨⟨⟨⟨⟨h2, h3⟩, h4⟩, h5⟩, h6⟩, h7⟩, h8⟩⟩; exact ⟨h1, h2, h3, h4, h5, h6, h7, h8⟩

theorem fold_better (l : List (Nat × SrcCfg)) (b : Nat × Nat) (hl : tabAbove none l = true) (hb : ∀ e ∈ l, b.1 ≤ e.1 ∨ b.2 < e.2.prio) :
    let w := l.foldl better b
    (w = b ∨ ∃ e ∈ l, b.2 < e.2.prio ∧ w = (e.1, e.2.prio)) ∧ b.2 ≤ w.2 ∧ (∀ e ∈ l, e.2.prio ≤ w.2) ∧ (∀ e ∈ l, e.2.prio = w.2 → w.1 ≤ e.1) := by
  induction l generalizing b with
  | nil => simp
  | cons a t ih =>
    intro w
    have hab : ∀ e ∈ t, a.1 < e.1 := by
      clear ih hb w
      obtain ⟨k, v⟩ := a
      have : tabAbove (some k) t = true := hl
      clear hl
      induction t generalizing k with
      | nil => intro e he; cases he
      | cons c t ih =>
        obtain ⟨k', v'⟩ := c
        simp only [tabAbove, Bool.and_eq_true, decide_eq_true_eq] at this
        intro e he
        rcases List.mem_cons.1 he with h | h
        · rw [h]; exact this.1
        · exact Nat.lt_trans this.1 (ih k' this.2 e h)
    have hstep : w = t.foldl better (better b a) := rfl
    have ht : tabAbove none t = true := by obtain ⟨k, v⟩ := a; exact tabAbove_none hl
    have h0 := hb a List.mem_cons_self
    by_cases hlt : b.2 < a.2.prio
    · have hbe : better b a = (a.1, a.2.prio) := by simp [better, hlt]
      have := ih (a.1, a.2.prio) ht (fun e he => .inl (Nat.le_of_lt (hab e he)))
      rw [hstep, hbe]
      obtain ⟨i1, i2, i3, i4⟩ := this
      simp only at i2
      refine ⟨.inr ?_, by omega, ?_, ?_⟩
      · rcases i1 with h | ⟨e, he, h8, h⟩
        · exact ⟨a, List.mem_cons_self, hlt, h⟩
        · exact ⟨e, List.mem_cons_of_mem _ he, by simp only at h8; omega, h⟩
      · intro e he; rcases List.mem_cons.1 he with h | h
        · rw [h]; exact i2
        · exact i3 e h
      · intro e he hp; rcases List.mem_cons.1 he with h | h
        · rw [h] at hp ⊢
          rcases i1 with h9 | ⟨e', he', h8, h9⟩
          · rw [h9] <;> exact Nat.le_refl _
          · rw [h9] at hp; simp only at hp h8; omega
        · exact i4 e h hp
    · have hbe : better b a = b := by simp [better, hlt]
      have := ih b ht (fun e he => hb e (List.mem_cons_of_mem _ he))
      rw [hstep, hbe]
      obtain ⟨i1, i2, i3, i4⟩ := this
      refine ⟨?_, i2, ?_, ?_⟩
      · rcases i1 with h | ⟨e, he, h8, h⟩
        · exact .inl h
        · exact .inr ⟨e, List.mem_cons_of_mem _ he, h8, h⟩
      · intro e he; rcases List.mem_cons.1 he with h | h
        · rw [h]; omega
        · exact i3 e h
      · intro e he hp; rcases List.mem_cons.1 he with h | h
        · rw [h] at hp ⊢
          rcases i1 with h9 | ⟨e', he', h8, h9⟩
          · rw [h9] at hp ⊢
            rcases h0 with h0 | h0
            · exact h0
            · omega
          · rw [h9] at hp; simp only at hp; omega
        · exact i4 e h hp

theorem tabAbove_filter_none {α : Type} {t : Tab α} (p : Nat × α → Bool) (h : tabAbove none t = true) : tabAbove none (t.filter p) = true := by
  cases t with
  | nil => rfl
  | cons e t =>
    obtain ⟨k, v⟩ := e
    have h' : tabAbove (some k) t = true := h
    rw [List.filter_cons]; split
    · exact tabAbove_filter p h'
    · exact tabAbove_none (tabAbove_filter p h')

theorem winner_none {s : State} {t : Nat} (h : ∀ e, ¬ Candidate s t e) : winner s t = (0, 0) := by
  unfold winner
  split
  · rfl
  · have : s.router.cfg.filter (isCandidate s t) = [] := by
      rw [List.eq_nil_iff_forall_not_mem]; intro e he; exact h e (cand_iff.2 he)
    rw [this]; rfl

theorem targetAt_settle (s : State) (t : Nat) : (targetAt (settle s) t).stack = (targetAt s t).stack ∧
    (targetAt (settle s) t).threshold = (targetAt s t).threshold := by
  show ((requestsNow s).getD t {}).stack = _ ∧ ((requestsNow s).getD t {}).threshold = _
  simp only [requestsNow, List.getD, List.getElem?_mapIdx, targetAt]
  cases s.router.targets[t]? <;> exact ⟨rfl, rfl⟩

theorem targetAt_setTarget {s : State} {t : Nat} (f : Target → Target) (h : t < s.router.targets.length) :
    targetAt (setTarget t f s) t = f (targetAt s t) := by
  simp [targetAt, setTarget, List.getD, h]

theorem exec_next {i : Instr} {s t : State} (h : exec i s = .next t) : ∃ u p, t = { settle u with pending := p } := by
  cases i <;> first
    | (cases h; exact ⟨_, _, rfl⟩)
    | skip
  rename_i j
  cases j with
  | production code =>
    simp only [exec, execJtagInstruction] at h
    split at h
    · cases h
    · cases h; exact ⟨_, _, rfl⟩
  | bypass => cases h; exact ⟨_, _, rfl⟩
  | boundaryScan => cases h; exact ⟨_, _, rfl⟩

theorem better_pos (l : List (Nat × SrcCfg)) (b : Nat × Nat) : b.2 ≤ (l.foldl better b).2 ∧ (∀ e ∈ l, e.2.prio ≤ (l.foldl better b).2) ∧
    ((l.foldl better b) = b ∨ ∃ e ∈ l, l.foldl better b = (e.1, e.2.prio)) := by
  induction l generalizing b with
  | nil => simp
  | cons a t ih =>
    rw [List.foldl_cons]
    obtain ⟨h1, h2, h3⟩ := ih (better b a)
    have hb : b.2 ≤ (better b a).2 ∧ a.2.prio ≤ (better b a).2 := by
      unfold better; split <;> (constructor <;> (try simp only []) <;> omega)
    refine ⟨by omega, ?_, ?_⟩
    · intro e he; rcases List.mem_cons.1 he with h | h
      · rw [h]; omega
      · exact h2 e h
    · rcases h3 with h3 | ⟨e, he, h3⟩
      · unfold better at h3 ⊢; split at h3
        · right; exact ⟨a, List.mem_cons_self, by rw [← h3]; simp [*]⟩
        · left; simp [*]
      · right; exact ⟨e, List.mem_cons_of_mem _ he, h3⟩

theorem request_iff (s : State) (t : Nat) : request s t = true ↔ quarantined s 7 = false ∧ ∃ e, Candidate s t e := by
  unfold request winner
  by_cases hq : quarantined s 7 = true
  · simp [hq]
  · rw [if_neg hq]
    have hq' : quarantined s 7 = false := by simpa using hq
    obtain ⟨_, h2, h3⟩ := better_pos (s.router.cfg.filter (isCandidate s t)) (0, 0)
    simp only [bne_iff_ne]
    constructor
    · intro h; refine ⟨hq', ?_⟩
      rcases h3 with h3 | ⟨e, he, _⟩
      · rw [h3] at h; exact absurd rfl h
      · exact ⟨e, cand_iff.2 he⟩
    · rintro ⟨_, e, he⟩
      have := h2 e (cand_iff.1 he); have := he.2.2.1; omega

theorem edge9 (s : State) : (isEdge s.part 9 && canAssert s 9) = true := by
  have : absentId s.part 9 = false := by unfold absentId; simp
  unfold isEdge canAssert; rw [this]; rfl

theorem noteBad_pend (h : HostId) (w : Bool) (o : Nat) (s : State) : (noteBad h w o s).router.pend.getLsbD 9 = true := by
  unfold noteBad assertEdge
  rw [if_pos (edge9 _)]
  exact (bit_set 9 _ 9 (by omega)).trans (by simp)

theorem noteBad_regs (h : HostId) (w : Bool) (o : Nat) (s : State) : (noteBad h w o s).regs =
    (if s.regs.badValid then { s.regs with badOverrun := true } else { s.regs with badValid := true, badWrite := w, badSpi := h == .spi, badOff := o % 2 ^ 22 }) := by
  unfold noteBad; rw [assertEdge_regs]; rfl


end Sys2Proof.Machine
end

