-- ==== Sys2Proof/Tests/Slice0.lean ====
section
/-! SUPPORT. Tests: ill-formed commands, witnesses for the hypotheses of every statement, and single steps against values worked out by
hand from the spec. -/

open Sys2Proof Sys2Proof.Machine

namespace Sys2Proof.Tests

set_option Elab.async false

/-! ### States to start from -/

/-- A unit in service after its boot. -/
def live : State := { State.reset with
  clk := { State.reset.clk with running := true }
  store := { State.reset.store with released := true, service := true, step := 9 } }

/-- A numbered unit at a position. -/
def numberedAt (n : Nat) : State := { live with survey := { live.survey with position := n, epoch := 1, state := .numbered } }

/-- A command of a submission queue under tag 1, with no epoch check; `bytes` are its inline parameters. -/
def cmd (op : Nat) (bytes : List Byte) (sq : Nat := 0) : Cmd :=
  { acc := 0, sq := sq, tag := 1, opcode := op, fence := false, buffer := false, plen := bytes.length, epoch := 0xFF, timeout := 0,
    bufAddr := 0, bufLen := 0, inl := bytes, raw := [], atPs := 0, atLt := 0, phase := .fetched, ref := 0, ref2 := 0 }

/-- The same with a buffer of a length. -/
def bufCmd (op : Nat) (bytes : List Byte) (len : Nat) : Cmd := { cmd op bytes with buffer := true, bufLen := len, bufAddr := 0x1000 }

/-- The same of the SPI host, with a buffer at an address of its area. -/
def spiCmd (op : Nat) (bytes : List Byte) (addr len : Nat) : Cmd := { cmd op bytes 6 with buffer := true, bufLen := len, bufAddr := addr, cq := 3 }

/-- Commands in flight. -/
def holding (cs : List Cmd) (s : State) : State := { s with cmdq := { s.cmdq with inflight := cs } }

/-- A state with a command in flight. -/
def on (c : Cmd) (s : State := live) : State := holding [c] s

/-- CodeOk in a form that can be evaluated. -/
theorem codeOk_iff (c : Cmd) (n lo hi : Nat) (s : State) : CodeOk c n lo hi s ↔
    (lo ≤ pB c n ∧ pB c n < hi ∧ codeAbsent s (pB c n) = false ∧ codeOff s (pB c n) = false ∧
      ∀ b ∈ (blockOf (pB c n)).toList, quarantined s b = false ∧ ∀ t ∈ s.test.tests, t.block = b → t.running = false) := by
  unfold CodeOk BlockFree; simp

/-! ### Witnesses: states and operands that meet the hypotheses of the statements

One theorem for each statement that has hypotheses, with the ends of the ranges of its clauses. -/


theorem test_witness_StepRunsTheFrontCommand : { live with pending := [.nop 1, .nop 2] }.pending = .nop 1 :: [.nop 2] := rfl

theorem test_witness_CommandsRunFirstInFirstOut :
    (∀ code, Instr.jtagInstruction (.production 0x85) = .jtagInstruction (.production code) → ({ live with test := { live.test with lc := 3 } }).test.lc ≠ 1) ∧
    (steps 2 { State.reset with pending := [.nop 1, .settle, .nop 2] }).isSome = true := by
  refine ⟨fun _ _ => by decide, by decide⟩

theorem test_witness_IdleIsOneTick : State.reset.pending = [] ∧ live.pending = [] ∧ State.reset.clk.running = false := by decide

/-- The queries. -/
theorem test_witness_QueriesReport :
    (∀ op ∈ [0x0101, 0x0102, 0x0103, 0x0204, 0x0301, 0x0302, 0x0307, 0x0405, 0x0B05, 0x0C02], Plain op 0 1 (cmd op []) (on (cmd op []))) ∧
    BlockFree (on (cmd 0x0C02 [])) 32 := by
  unfold Plain Ready EpochOk BlockFree; (and_intros <;> decide +kernel)

theorem test_witness_ObjectQueriesReport :
    (Plain 0x0801 0 1 (cmd 0x0801 []) (on (cmd 0x0801 [])) ∧ hasTwin live.part = true ∧ powered live 12 = true) ∧
    (∀ g ∈ [0x20, 0x21], Plain 0x0602 1 1 (cmd 0x0602 [g]) (on (cmd 0x0602 [g])) ∧ BlockFree live (24 + (pB (cmd 0x0602 [g]) 0 - 0x20))) ∧
    (∀ n ∈ [0, 11], Plain 0x0502 1 1 (cmd 0x0502 [n]) (on (cmd 0x0502 [n])) ∧ CodeOk (cmd 0x0502 [n]) 0 0 0x0C (on (cmd 0x0502 [n]))) ∧
    (∀ p ∈ [BPort.laf, BPort.lbr], Plain 0x0502 1 1 (cmd 0x0502 [BitVec.ofNat 8 p.code]) (on (cmd 0x0502 [BitVec.ofNat 8 p.code])) ∧
      pB (cmd 0x0502 [BitVec.ofNat 8 p.code]) 0 = p.code ∧ BlockFree live (8 + p.idx)) ∧
    (∀ k ∈ [0x30, 0x33], Plain 0x0708 1 1 (cmd 0x0708 [k]) (on (cmd 0x0708 [k])) ∧ CodeOk (cmd 0x0708 [k]) 0 0x30 0x34 (on (cmd 0x0708 [k]))) ∧
    (Plain 0x0411 1 1 (cmd 0x0411 [255]) (on (cmd 0x0411 [255])) ∧ hasVsu live.part = true ∧ powered live 11 = true ∧ BlockFree live 30) := by
  simp only [codeOk_iff]; unfold Plain Ready EpochOk BlockFree; (and_intros <;> decide +kernel)

/-- The reading commands, from the PCIe host whose memory takes them and from the SPI host at the end of its area. -/
theorem test_witness_ReadingCommandsDeliver :
    Takes (bufCmd 0x0201 [] 1024) true ∧ Takes (spiCmd 0x0201 [] 0x0203FC00 1024) false ∧
    Buffered 0x0201 0 1024 1 (bufCmd 0x0201 [] 1024) (on (bufCmd 0x0201 [] 1024)) ∧
    Buffered 0x0201 0 1024 1 (spiCmd 0x0201 [] 0x0203FC00 1024) (on (spiCmd 0x0201 [] 0x0203FC00 1024)) ∧
    Buffered 0x0306 0 256 1 (bufCmd 0x0306 [] 256) (on (bufCmd 0x0306 [] 256)) ∧
    Buffered 0x0403 1 64 1 (bufCmd 0x0403 [255] 64) (on (bufCmd 0x0403 [255] 64)) ∧
    (∀ n ∈ [0, 11], Buffered 0x0507 1 256 1 (bufCmd 0x0507 [n] 256) (on (bufCmd 0x0507 [n] 256)) ∧
      CodeOk (bufCmd 0x0507 [n] 256) 0 0 0x0C (on (bufCmd 0x0507 [n] 256))) ∧
    (Buffered 0x0507 1 256 1 (bufCmd 0x0507 [0x13] 256) (on (bufCmd 0x0507 [0x13] 256)) ∧ BlockFree live 11) ∧
    (∀ g ∈ [0x20, 0x21], Buffered 0x0603 1 128 1 (bufCmd 0x0603 [g] 128) (on (bufCmd 0x0603 [g] 128)) ∧
      CodeOk (bufCmd 0x0603 [g] 128) 0 0x20 0x22 (on (bufCmd 0x0603 [g] 128))) ∧
    (Buffered 0x0A02 1 64 1 (bufCmd 0x0A02 [33] 64) (on (bufCmd 0x0A02 [33] 64)) ∧ ∀ t ∈ live.test.tests, t.block = 33 → t.running = false) ∧
    (Buffered 0x0901 8 4 1 (bufCmd 0x0901 (zeros 8) 32) (on (bufCmd 0x0901 (zeros 8) 32)) ∧ (bufCmd 0x0901 (zeros 8) 32).bufLen % 32 = 0) := by
  simp only [codeOk_iff]; unfold Takes Buffered Ready EpochOk DescOk BlockFree; (and_intros <;> decide +kernel)

theorem test_witness_ChallengesIssueANonce :
    Plain 0x0902 0 1 (cmd 0x0902 []) (on (cmd 0x0902 [])) ∧ Plain 0x0A03 0 1 (cmd 0x0A03 []) (on (cmd 0x0A03 [])) := by
  unfold Plain Ready EpochOk; (and_intros <;> decide +kernel)

/-- The settings, on a unit with no partner. -/
theorem test_witness_CarPortSettingsTakeEffect :
    Solo live ∧
    (∀ n ∈ ([0, 11] : List Byte), ∀ i ∈ ([0, 31] : List Byte), ∀ e ∈ ([0, 1] : List Byte), let c := cmd 0x0503 [n, i, e, 0, 2, 0, 0, 0, 0, 1]
      pB c 0 = n.toNat ∧ CodeOk c 0 0 0x0C (on c) ∧ Plain 0x0503 10 1 c (on c) ∧ pB c 1 ≤ 31 ∧
      (bitOf (pB c 2) 0 = true → isGroup (macOf (slice c.inl 4 6)) = false)) ∧
    (∀ n ∈ ([0, 11] : List Byte), ∀ i ∈ ([0, 15] : List Byte), let c := cmd 0x0504 ([n, i] ++ List.replicate 18 0xFF)
      CodeOk c 0 0 0x0C (on c) ∧ Plain 0x0504 20 1 c (on c) ∧ pB c 1 ≤ 15) ∧
    (∀ n ∈ ([0, 11] : List Byte), let c := cmd 0x0508 [n, 1]; CodeOk c 0 0 0x0C (on c) ∧ Plain 0x0508 2 1 c (on c)) ∧
    (let c := bufCmd 0x0505 [11, 0, 1, 0] 8
     let l := [0xFF, 0, 0, 0] ++ le 4 1000
     CodeOk c 0 0 0x0C (on c) ∧ Buffered 0x0505 4 4 1 c (on c) ∧ inBuffer c (some l) (on c) = some l ∧ 1 ≤ pF c 2 2 ∧ pF c 2 2 ≤ 1024 ∧
      8 * pF c 2 2 ≤ l.length ∧ (∀ g ∈ gateEntries l (pF c 2 2), g.interval ≠ 0) ∧
      (∀ e ∈ (on c).cmdq.inflight, e.opcode = 0x0505 → pB e 0 = pB c 0 → e.acc ≤ c.acc) ∧
      (let e := { c with tag := 2, acc := 1 }
       let s := holding [c, e] live
       e ∈ s.cmdq.inflight ∧ e.opcode = 0x0505 ∧ pB e 0 = pB c 0 ∧ c.acc < e.acc ∧ Buffered 0x0505 4 4 1 c s)) := by
  simp only [codeOk_iff]; unfold Plain Buffered Ready EpochOk DescOk Solo; (and_intros <;> decide +kernel)

theorem test_witness_PortConfigSetsThePort :
    (∀ m ∈ ([0, 4] : List Byte), ∀ r ∈ ([0, 2] : List Byte), let c := cmd 0x0501 [11, m, 7, r]
      Solo (on c) ∧ CodeOk c 0 0 0x0C (on c) ∧ Plain 0x0501 4 1 c (on c) ∧ pB c 1 ≤ 5 ∧ (bitOf (pB c 2) 1 = true → pB c 1 ≠ 5) ∧ pB c 3 ≤ 2) ∧
    (let c := cmd 0x0501 [0, 5, 5, 0]
     CodeOk c 0 0 0x0C (on c) ∧ Plain 0x0501 4 1 c (on c) ∧ pB c 1 ≤ 5 ∧ (bitOf (pB c 2) 1 = true → pB c 1 ≠ 5)) := by
  simp only [codeOk_iff]; unfold Plain Ready EpochOk Solo; (and_intros <;> decide +kernel)

/-- A stream from position 1, port 0, and a planner that holds it as context 3. -/
def stream : Contract :=
  { srcPos := 1, srcPort := 0, flags := 0, destCount := 1, maxlen := 1000, fph := 1, deadline := 1000000, dests := [(2, 1)] }
def context : Ctx := {
  canon := { context := 3, state := .placed, contract := stream, serial := 1, cycOffset := 0, nSrc := 1, lines := 0, served := 0, srcIndex := [0] }
  cause := 0, intake := 0, phase := 0 }
def sourcing : State := { numberedAt 1 with planner := { live.planner with ctxs := [(3, context)] } }

theorem test_witness_GenlockSliceAndSegmentSettings :
    (∀ g ∈ ([0x40, 0x4B] : List Byte), let c := cmd 0x0305 ([g, 1, 0, 0] ++ le 4 8 ++ le 4 25000 ++ le 4 10)
      Solo (on c) ∧ Plain 0x0305 16 1 c (on c) ∧ glkAbsent c (on c) = false ∧ ∀ e ∈ glkChecks c (on c), e = none) ∧
    (let c := cmd 0x0407 [3, 0x4B]
     Solo (on c sourcing) ∧ Plain 0x0407 2 1 c (on c sourcing) ∧ pB c 1 < 0x40 + glkOuts live.part.code ∧ pB c 1 < 0x4C ∧
     sourcedHere (on c sourcing) (pB c 0) = true) ∧
    (let c := cmd 0x0410 [3, 2, 1]
     Plain 0x0410 3 1 c (on c sourcing) ∧ hasVsu live.part = true ∧ powered live 11 = true ∧ BlockFree (on c sourcing) 30 ∧
     (ctxAt (on c sourcing) (pB c 0)).isSome = true ∧ pB c 1 ≤ 2 ∧ pB c 2 ≤ 1) ∧
    (∀ g ∈ ([0, 1] : List Byte), ∀ n ∈ ([0, 31] : List Byte), let c := cmd 0x0601 [0x20 + g, 1, n, 32, 255]
      Plain 0x0601 5 1 c (on c) ∧ pB c 0 = 0x20 + g.toNat ∧ CodeOk c 0 0x20 0x22 (on c) ∧ pB c 1 ≤ 1 ∧ pB c 2 ≤ 31 ∧ pB c 2 < pB c 3 ∧
      pB c 3 ≤ 32 ∧ (mdAt (on c) g.toNat).due = none ∧ (mdAt (on c) g.toNat).onPair = false ∧
      mdCoordinates (mdAt (on c) g.toNat) = false ∧ g.toNat < (on c).md.length) ∧
    (let s := setMd 1 (fun m => { m with onPair := true }) live
     (mdAt s 1).onPair = true ∧ (mdAt s 1).due = none ∧ 1 < s.md.length) := by
  simp only [codeOk_iff]; unfold Plain Ready EpochOk BlockFree Solo; (and_intros <;> decide +kernel)

/-- A frame on its way. -/
def anyFrame : CanFrame :=
  { format := .classical, ide := false, ident := 5, rtr := false, brs := false, esi := false, sec := false, sdt := 0, vcid := 0, af := 0, data := [] }

/-- A CAN controller in a mode, with one buffer defined. -/
theorem test_witness_CanSettingsTakeEffect :
    (∀ k ∈ ([0, 3] : List Byte), let c := cmd 0x0701 ([0x30 + k, 0x80, 0, 0, 32, 6, 1, 1, 32, 6, 1, 1] ++ zeros 4)
      Solo (on c) ∧ Plain 0x0701 16 1 c (on c) ∧ pB c 0 = 0x30 + k.toNat ∧ CodeOk c 0 0x30 0x34 (on c) ∧
      txAtInFlight (on c) k.toNat = false ∧ bits (pB c 1) 6 2 = 0 ∧ timingBad (pB c 1 % 4) (slice c.inl 4 12) = none ∧ k.toNat < (on c).can.length ∧
      canInFrame (on c) k.toNat = false) ∧
    (let c := cmd 0x0701 ([0x30, 1, 0, 0, 32, 6, 1, 1] ++ zeros 8)
     Plain 0x0701 16 1 c (on c) ∧ txAtInFlight (on c) 0 = false ∧ bits (pB c 1) 6 2 = 0 ∧ timingBad (pB c 1 % 4) (slice c.inl 4 12) = none ∧
       canInFrame (setCan 0 (fun x => { x with sending := some (0, 0, anyFrame) }) (on c)) 0 = true) ∧
    (∀ b ∈ ([0, 127] : List Byte), let c := bufCmd 0x0702 [0x33, b] 32; let d := [(1 : Byte)] ++ zeros 31
      CodeOk c 0 0x30 0x34 (on c) ∧ Buffered 0x0702 2 4 1 c (on c) ∧ inBuffer c (some d) (on c) = some d ∧ pB c 1 ≤ 127 ∧ 32 ≤ d.length ∧
      bufferBad (canAt (on c) 3).mode d = none ∧ d.length = bufferLen d ∧ matrixNames (canAt (on c) 3) (pB c 1) = false ∧
      (bufAt (canAt (on c) 3) (pB c 1)).txTag = none) ∧
    (∀ i ∈ ([0, 7] : List Byte), ∀ n ∈ ([0, 8] : List Byte), let c := cmd 0x0707 ([0x31, i, n, 7] ++ [255, 255, 255, 31] ++ zeros 12)
      CodeOk c 0 0x30 0x34 (on c) ∧ Plain 0x0707 20 1 c (on c) ∧ pB c 1 ≤ 7 ∧ pB c 2 ≤ 8 ∧ pB c 3 < 8 ∧ pF c 4 4 < 2 ^ 29) := by
  simp only [codeOk_iff]; unfold Plain Buffered Ready EpochOk DescOk Solo; (and_intros <;> decide +kernel)

/-- A matrix buffer of zeros has no entries (R398). -/
theorem test_emptyMatrix : matrixCells (zeros 8192) = [] := by
  unfold matrixCells
  rw [List.filterMap_eq_nil_iff]; intro i _
  have h : fld (slice (zeros 8192) (8 * i) 8) 5 1 = 0 := by
    unfold fld slice zeros
    simp only [List.drop_replicate, List.take_replicate]
    have e : ∀ n, unle (List.replicate n (0 : Byte)) = 0 := by
      intro n; induction n with
      | zero => rfl
      | succ n ih => rw [List.replicate_succ, unle, ih]; rfl
    exact e _
  simp only []; rw [if_pos h]

theorem test_emptyMatrix_good (x : CanCtl) (l : Nat) : matrixBad x l (zeros 8192) = none := by
  unfold matrixBad; simp only [test_emptyMatrix]; rfl

theorem test_witness_CanSettingsTakeEffect_matrix :
    let c := bufCmd 0x0706 [0x30] 8192
    Buffered 0x0706 1 4 1 c (on c) ∧ inBuffer c (some (zeros 8192)) (on c) = some (zeros 8192) ∧ (zeros 8192).length = 8192 ∧
    matrixBad (canAt (on c) 0) live.time.l (zeros 8192) = none := by
  refine ⟨by unfold Buffered Ready EpochOk DescOk; decide, ?_, List.length_replicate, test_emptyMatrix_good _ _⟩
  show some (padTo 8192 0 (zeros 8192)) = _
  unfold padTo zeros
  rw [List.length_replicate, Nat.sub_self, List.replicate_zero, List.append_nil, List.take_of_length_le (Nat.le_of_eq List.length_replicate)]

/-- A setting that an active unit passes across the lane. -/
def pairHeartbeat : Heartbeat :=
  { origin := 7, part := 0x9640, hbSeq := 1, health := 0, cycle := 0, handover := 0, epoch := 0xFF, position := 0, orient := false, handoverAck := false,
    open_ := false, gen := 0, round := 0, nonce := 0 }
def paired : State := { live with twin := { live.twin with role := .active, partner := some pairHeartbeat, laneFault := false } }

theorem test_witness_SettingsPassTheLaneFirst :
    isActive (on (cmd 0x0305 []) paired) = true ∧ laneUp (on (cmd 0x0305 []) paired) = true ∧
    (let c := cmd 0x0305 ([0x4B, 1, 0, 0] ++ le 4 8 ++ le 4 25000 ++ le 4 10)
     Ready 0x0305 1 c (on c paired) ∧ firstFail (glkConfigChecks false c none (on c paired)) = none) ∧
    (let s := { sourcing with twin := paired.twin }
     let c := cmd 0x0407 [3, 0x4B]
     isActive (on c s) = true ∧ laneUp (on c s) = true ∧ Ready 0x0407 1 c (on c s) ∧ firstFail (cameraBindChecks false c none (on c s)) = none) ∧
    (let s := { sourcing with twin := paired.twin }
     let c := cmd 0x0410 [3, 2, 1]
     Ready 0x0410 1 c (on c s) ∧ firstFail (vsuConfigChecks false c none (on c s)) = none) ∧
    (let c := cmd 0x0501 [11, 4, 7, 2]
     Ready 0x0501 1 c (on c paired) ∧ firstFail (portConfigChecks false c none (on c paired)) = none) ∧
    (let c := cmd 0x0503 [11, 31, 1, 0, 2, 0, 0, 0, 0, 1]
     Ready 0x0503 1 c (on c paired) ∧ firstFail (ucastFilterChecks false c none (on c paired)) = none) ∧
    (let c := cmd 0x0504 ([11, 15] ++ zeros 18)
     Ready 0x0504 1 c (on c paired) ∧ firstFail (wakePatternChecks false c none (on c paired)) = none) ∧
    (let c := bufCmd 0x0505 [11, 0, 1, 0] 8
     let l := [0xFF, 0, 0, 0] ++ le 4 1000
     inBuffer c (some l) (on c paired) = some l ∧ Ready 0x0505 1 c (on c paired) ∧
     firstFail (gateListChecks false c (some l) (on c paired)) = none) ∧
    (let c := cmd 0x0508 [11, 1]
     Ready 0x0508 1 c (on c paired) ∧ firstFail (asConfigChecks false c none (on c paired)) = none) ∧
    (let c := cmd 0x0601 [0x21, 1, 31, 32, 0]
     Ready 0x0601 1 c (on c paired) ∧ firstFail (mdConfigChecks false c none (on c paired)) = none) ∧
    (let c := cmd 0x0701 ([0x33, 0x80, 0, 0, 32, 6, 1, 1, 32, 6, 1, 1] ++ zeros 4)
     Ready 0x0701 1 c (on c paired) ∧ firstFail (canConfigChecks false c none (on c paired)) = none) ∧
    (let c := bufCmd 0x0702 [0x33, 127] 32
     let d := [(1 : Byte)] ++ zeros 31
     Ready 0x0702 1 c (on c paired) ∧ firstFail (canBufferChecks false c (some d) (on c paired)) = none) ∧
    (let c := cmd 0x0707 ([0x31, 7, 8, 7] ++ zeros 16)
     Ready 0x0707 1 c (on c paired) ∧ firstFail (canWakeChecks false c none (on c paired)) = none) := by
  unfold Ready; (and_intros <;> decide +kernel)

theorem test_witness_SettingsPassTheLaneFirst_matrix :
    let c := bufCmd 0x0706 [0x33] 8192
    Ready 0x0706 1 c (on c paired) ∧ firstFail (canScheduleChecks false c (some (zeros 8192)) (on c paired)) = none := by
  refine ⟨by unfold Ready; decide, ?_⟩
  unfold canScheduleChecks
  have h : (zeros 8192).length = 8192 := List.length_replicate
  simp only [Option.getD_some, test_emptyMatrix_good, h]; decide

/-- Records and timed frames of a controller. -/
def canWith (b : CanBuffer) (c : Cmd) : State := on c (setCan 3 (fun x => { x with mode := 2, state := .errorActive, buffers := [(127, b)] }) live)

theorem test_witness_CanRecordsAndTimedFrames :
    (let c := bufCmd 0x0703 [0x33, 127] 80
     let s := canWith { kind := 1 } c
     s.twin.role ≠ .standby ∧ pB c 0 = 0x33 ∧ CodeOk c 0 0x30 0x34 s ∧ Buffered 0x0703 2 80 1 c s ∧ Takes c true ∧
     readable (canAt s 3) (pB c 1) = true) ∧
    (let c := bufCmd 0x0703 [0x30, 0x83] 80
     CodeOk c 0 0x30 0x34 (on c) ∧ Buffered 0x0703 2 80 1 c (on c) ∧ readable (canAt (on c) 0) (pB c 1) = true) ∧
    (let c := cmd 0x0704 [0x33, 127]
     let s := canWith { kind := 1 } c
     CodeOk c 0 0x30 0x34 s ∧ Plain 0x0704 2 1 c s ∧ pB c 1 ≤ 127 ∧ (bufAt (canAt s 3) (pB c 1)).kind = 1) ∧
    (∀ b ∈ ([0x80, 0x83] : List Byte), let c := cmd 0x0704 [0x33, b]; CodeOk c 0 0x30 0x34 (on c) ∧ Plain 0x0704 2 1 c (on c) ∧ 0x80 ≤ pB c 1 ∧ pB c 1 ≤ 0x83) ∧
    (∀ late ∈ [0, 1000000000], ∀ atLt ∈ [0, 2000000000 * 65536],
      let c := { cmd 0x0705 ([0x33, 127] ++ zeros 6 ++ le 8 60000000000 ++ le 4 late) with atLt := atLt }
      let s := canWith { kind := 2 } c
      CodeOk c 0 0x30 0x34 s ∧ Plain 0x0705 20 1 c s ∧ pB c 1 ≤ 127 ∧ (canAt s 3).state ≠ .listenOnly ∧ (canAt s 3).listenOnly = false ∧
      matrixNames (canAt s 3) (pB c 1) = false ∧ (bufAt (canAt s 3) (pB c 1)).kind = 2 ∧ (bufAt (canAt s 3) (pB c 1)).suspended = false ∧
      (bufAt (canAt s 3) (pB c 1)).pending = false ∧ (bufAt (canAt s 3) (pB c 1)).txTag = none ∧ pF c 16 4 ≤ 1000000000 ∧
      txTarget c ≤ c.atLt / 65536 + 60000000000 ∧ c.atLt / 65536 ≤ txTarget c + pF c 16 4) ∧
    (let c := { cmd 0x0705 ([0x33, 127] ++ zeros 6 ++ le 8 5 ++ le 4 4) with atLt := 10 * 65536 }
     Plain 0x0705 20 1 c (canWith { kind := 2 } c) ∧ txTarget c + pF c 16 4 < c.atLt / 65536) := by
  simp only [codeOk_iff]; unfold Plain Buffered Ready EpochOk DescOk Takes; (and_intros <;> decide +kernel)

/-- Rings of both directions. -/
def ringed (g : Ring) (c : Cmd) : State := on c { live with rings := { live.rings with rx := [(63, g)], tx := [(63, g)] } }

theorem test_witness_RingSetBindsAndUnbinds :
    (∀ n ∈ [4, 12], ∀ d ∈ ([0, 1] : List Byte), let c := cmd 0x0506 ([63, d, 11, 0] ++ le 2 (2 ^ n) ++ [0, 0] ++ le 8 0x1000)
      (on c).twin.role ≠ .standby ∧ Plain 0x0506 16 1 c (on c) ∧ pB c 0 ≤ 63 ∧ pB c 1 ≤ 1 ∧ CodeOk c 2 0 0x0C (on c) ∧
      pF c 4 2 = 2 ^ n ∧ ringBaseOk c n = true ∧ (rxRing (on c) (pB c 0)).port = none ∧ (txRing (on c) (pB c 0)).port = none ∧
      boundAt (on c) (pB c 1) (pB c 2) = none) ∧
    (let c := cmd 0x0506 ([63, 1, 0x80, 0] ++ zeros 12)
     let s := ringed { port := some 0x80 } c
     Plain 0x0506 16 1 c s ∧ pB c 2 = 0x80 ∧ pF c 4 2 = 0 ∧ (txRing s (pB c 0)).port ≠ none ∧ (txRing s (pB c 0)).host = sqHost c.sq ∧
     (rxRing (on c) (pB c 0)).port = none) := by
  simp only [codeOk_iff]; unfold Plain Ready EpochOk; (and_intros <;> decide +kernel)

theorem test_witness_PlannerCommandsAskPositionOne :
    (let c := cmd 0x0401 ([63, 11, 0, 1] ++ le 2 1522 ++ le 2 2048 ++ le 4 3000000 ++ zeros 4 ++ [63, 0] ++ zeros 14)
     let s := on c (numberedAt 63)
     s.twin.role ≠ .standby ∧ s.survey.position ≠ 0 ∧ Plain 0x0401 32 1 c s ∧ factorySafe s = false ∧ contractBad c.inl = none) ∧
    (let c := cmd 0x0402 [255]; Plain 0x0402 1 1 c (on c (numberedAt 1))) ∧
    (let c := cmd 0x0404 []
     Plain 0x0404 0 1 c (on c (numberedAt 1)) ∧
     ∀ e ∈ (on c (numberedAt 1)).cmdq.inflight ++ [{ c with tag := 2, acc := 1 }], e.opcode = 0x0404 → e.tag ≠ 1 → c.acc ≤ e.acc ∧ e.phase = .fetched) ∧
    (let c := cmd 0x0406 (zeros 32); Plain 0x0406 32 1 c (on c (numberedAt 1)) ∧ factorySafe (on c (numberedAt 1)) = false) := by
  unfold Plain Ready EpochOk; (and_intros <;> decide +kernel)

/-- A unit in COMMISSION. -/
def commission (s : State) : State := { s with test := { s.test with lc := 2 } }

theorem test_witness_TimeConsistAndHandoverCommands :
    (∀ l ∈ [0x186A00000, 0xF42400000], ∀ h ∈ ([1, 128] : List Byte), ∀ q ∈ [40, 400],
      let c := cmd 0x0304 (le 8 l ++ [h, 0] ++ le 2 q)
      let s := on c (commission (numberedAt 1))
      Plain 0x0304 12 1 c s ∧ s.survey.position = 1 ∧ s.test.lc = 2 ∧ 0x186A00000 ≤ pF c 0 8 ∧ pF c 0 8 ≤ 0xF42400000 ∧ 1 ≤ pB c 8 ∧
      pB c 8 ≤ 128 ∧ 40 ≤ pF c 10 2 ∧ pF c 10 2 ≤ 400) ∧
    (let c := cmd 0x0202 [0xFF]
     Plain 0x0202 1 1 c (on c (numberedAt 1)) ∧ (on c (numberedAt 1)).survey.epoch ≠ pB c 0 ∧
     Plain 0x0202 1 1 c (on c) ∧ (on c).survey.epoch = pB c 0) ∧
    (let c := cmd 0x0203 []
     let s := on c (commission (numberedAt 63))
     Plain 0x0203 0 1 c s ∧ s.twin.role ≠ .standby ∧ s.survey.position ≠ 0 ∧ s.test.lc = 2 ∧
     (let t := on c (commission { live with survey := { live.survey with state := .listen } })
      Plain 0x0203 0 1 c t ∧ t.twin.role ≠ .standby ∧ t.survey.position = 0 ∧ surveying t = true ∧ t.test.lc = 2)) ∧
    (let c := cmd 0x0303 ([1] ++ zeros 15)
     let s := on c { numberedAt 1 with survey := { (numberedAt 1).survey with jumper := some .front }, bb := live.bb.map fun b => { b with up := true } }
     Plain 0x0303 16 1 c s ∧ s.survey.position = 1 ∧ pB c 0 ≤ 1 ∧ mgReaches s .laf = true) ∧
    (let c := cmd 0x0802 []
     let s := on c paired
     Plain 0x0802 0 1 c s ∧ hasTwin s.part = true ∧ powered s 12 = true ∧ s.twin.role = .active ∧ mayHandOver s = true) := by
  unfold Plain Ready EpochOk; (and_intros <;> decide +kernel)

theorem test_witness_PowerCommands :
    (let c := cmd 0x0B01 []
     let s := on c { numberedAt 1 with twin := { live.twin with role := .active } }
     Plain 0x0B01 0 1 c s ∧ s.survey.position = 1 ∧ s.twin.role = .active ∧ s.reform.phase = 0 ∧
     ∀ e ∈ s.cmdq.inflight, e.opcode = 0x0B01 → e.tag ≠ 1 → c.acc ≤ e.acc ∧ e.phase = .fetched) ∧
    (∀ m ∈ ([0, 1, 2, 3] : List Byte), let c := cmd 0x0B02 [m]; Plain 0x0B02 1 1 c (on c) ∧ pB c 0 = m.toNat ∧ modeRefused m.toNat (on c) = false) ∧
    (∀ d ∈ ([7, 12] : List Byte), ∀ x ∈ ([0, 1] : List Byte), let c := cmd 0x0B03 [d, x]
      Plain 0x0B03 2 1 c (on c) ∧ 7 ≤ pB c 0 ∧ pB c 0 ≤ 12 ∧ (populated (on c).part).getLsbD (pB c 0) = true ∧ pB c 1 ≤ 1 ∧
      domainRefused (pB c 0) (pB c 1 == 1) (on c) = false) ∧
    (let s := { live with power := { live.power with switching := some (12, true, none) } }
     serving s = true ∧ s.power.switching = some (12, true, none)) ∧
    (∀ v ∈ [1, 2047], let c := cmd 0x0B04 (le 4 v); Plain 0x0B04 4 1 c (on c) ∧ pF c 0 4 % 2 = 1 ∧ pF c 0 4 ≤ 2047) := by
  unfold Plain Ready EpochOk; (and_intros <;> decide +kernel)

/-- A unit whose keys are sealed, with a nonce of each pair. -/
def keyed : State := { live with
  test := { live.test with keys := some (zeros 32, zeros 32), lc := 3 }
  cmdq := { live.cmdq with logNonce := some { value := 0x0102030405060708, atPs := 0 }, lcNonce := some { value := 0x0102030405060708, atPs := 0 } } }

/-- The codes under a maintenance key of zeros, worked out with another implementation of HMAC-SHA-256 (R469, R480). -/
def clearCode : List Byte := [0xe2, 0x9c, 0xeb, 0x2e, 0x03, 0x16, 0xc3, 0x04, 0xd9, 0xa7, 0xb2, 0x8d, 0xfb, 0x11, 0x7b, 0x63]
def maintenanceCode : List Byte := [0x12, 0x20, 0x5e, 0xbf, 0x40, 0x5a, 0x51, 0xe2, 0x91, 0xf2, 0x35, 0x68, 0xfc, 0xa0, 0xc3, 0xf7]

theorem test_logClearCode : authFail keyed keyed.cmdq.logNonce 0x09 0x03 [] clearCode = none := by decide +kernel
theorem test_lcSetCode : authFail keyed keyed.cmdq.lcNonce 0x0A 0x04 ([4] ++ zeros 3) maintenanceCode = none := by decide +kernel

/-- The least image: a header, one entry, NODE, its CRC-32 worked out with another implementation, no signature (R535, R536). -/
def image : List Byte :=
  le 4 0x4643595A ++ le 2 1 ++ le 2 0x9640 ++ le 4 1 ++ le 4 144 ++ le 2 1 ++ zeros 14 ++ le 2 1 ++ le 2 0 ++ le 4 44 ++ le 4 32
    ++ le 8 0x3D0900000 ++ [1, 0] ++ le 2 100 ++ le 4 1 ++ le 2 0 ++ zeros 14 ++ le 4 0x1f0d94e6 ++ zeros 64

/-- Its CRC-32, in four parts. -/
theorem test_imageCrc1 : (slice image 0 19).foldl crc32Byte 0xffffffff = 0xb1a6c149 := by decide +kernel
theorem test_imageCrc2 : (slice image 19 19).foldl crc32Byte 0xb1a6c149 = 0xaa049e62 := by decide +kernel
theorem test_imageCrc3 : (slice image 38 19).foldl crc32Byte 0xaa049e62 = 0xde35354f := by decide +kernel
theorem test_imageCrc4 : (slice image 57 19).foldl crc32Byte 0xde35354f = 0xe0f26b19 := by decide +kernel

theorem test_imageCrc : crc32 (image.take 76) = 0x1f0d94e6 := by
  have h : image.take 76 = slice image 0 19 ++ (slice image 19 19 ++ (slice image 38 19 ++ slice image 57 19)) := by decide +kernel
  unfold crc32
  rw [h, List.foldl_append, List.foldl_append, List.foldl_append, test_imageCrc1, test_imageCrc2, test_imageCrc3, test_imageCrc4]
  decide

theorem test_imageCrcOk : imageCrcOk image = true := by
  have e : imageLen image - 68 = 76 := by decide +kernel
  unfold imageCrcOk; rw [e, test_imageCrc]; decide +kernel

/-- A unit with that image sealed in slot 0: the seal record's CHECK is worked out with another implementation (R534). -/
def sealed : State := { live with store := { live.store with
  slots := [{ image := image, sealRec := some { sealWord := 0x5EA1C0DE, generation := 1, imageCrc := 0x1f0d94e6, check := 0x6ef98a08 }, readable := true }, {}, {}] } }

theorem test_sealedSlotValid : slotValid sealed 0 = true := by
  unfold slotValid slotReason
  have e : (slotAt sealed 0).image = image := rfl
  simp only [e, test_imageCrcOk]
  decide +kernel

theorem test_witness_ReadingCommandsDeliver_image :
    let c := bufCmd 0x0C03 [0] 4
    Buffered 0x0C03 1 4 1 c (on c sealed) ∧ pB c 0 ≤ 2 ∧ slotValid sealed 0 = true ∧ BlockFree (on c sealed) 32 :=
  ⟨by unfold Buffered Ready EpochOk DescOk; decide, by decide, test_sealedSlotValid, by unfold BlockFree; decide⟩

theorem test_imageAccepted : ∀ e ∈ commitChecks live image, e = none := by
  unfold commitChecks
  rw [test_imageCrcOk]
  decide +kernel

theorem test_witness_LogStoreAndTestCommands :
    (let c := cmd 0x0903 clearCode
     let s := on c keyed
     Ready 0x0903 1 c s ∧ c.plen = 16 ∧ c.buffer = false ∧ EpochOk c s ∧ s.test.lc ≠ 5 ∧ BlockFree s 32 ∧ s.flow.degraded = false) ∧
    (∀ b ∈ ([0, 33] : List Byte), let c := cmd 0x0A01 [b, if b = 33 then 2 else 0]
      Plain 0x0A01 2 1 c (on c) ∧ pB c 0 < 34 ∧ blockPresent live.part (pB c 0) = true ∧ live.test.lc ≠ 3 ∧ live.test.lc ≠ 5 ∧
      blockOff (on c) (pB c 0) = false ∧ (∀ t ∈ live.test.tests, t.block = pB c 0 → t.running = false) ∧
      (kindOf (pB c 1)).any (admits (pB c 0)) = true ∧ ∀ e ∈ (on c).cmdq.inflight, e.opcode = 0x0A01 → e.tag ≠ 1 → c.acc ≤ e.acc ∧ e.phase = .fetched) ∧
    (let c := cmd 0x0A04 ([2] ++ zeros 31)
     Plain 0x0A04 32 1 c (on c) ∧ transition live.test.lc (pB c 0) = some (false, true) ∧ (live.test.lc = 2 → pB c 0 = 3 → False) ∧
     slice c.inl 16 16 = zeros 16) ∧
    (let c := cmd 0x0A04 ([4] ++ zeros 15 ++ maintenanceCode)
     Plain 0x0A04 32 1 c (on c keyed) ∧ transition keyed.test.lc (pB c 0) = some (true, false)) ∧
    (let c := bufCmd 0x0C01 [] 144
     Buffered 0x0C01 0 4 1 c (on c) ∧ live.test.lc ≠ 5 ∧ BlockFree (on c) 32 ∧
     ∀ e ∈ (on c).cmdq.inflight, e.opcode = 0x0C01 → e.tag ≠ 1 → c.acc ≤ e.acc ∧ e.phase = .fetched) ∧
    (let c := { bufCmd 0x0C01 [] 144 with phase := .started }
     let s := { on c with store := { live.store with commit := some (1, 0, image) } }
     serving s = true ∧ s.store.commit = some (1, 0, image) ∧ cmdOf s 1 = some c ∧ c.phase = .started ∧ EpochOk c s) := by
  unfold Plain Buffered Ready EpochOk DescOk BlockFree; (and_intros <;> decide +kernel)

/-- Queues: SQ7 of the SPI host and CQ2, of 2^4 entries, running, with 3 entries between head and tail. -/
def queued : State := { live with cmdq := { live.cmdq with
  sqs := (live.cmdq.sqs.modify 7 fun x => { x with enable := true, state := .running, head := 15, tail := 2, cq := 3 })
  cqs := live.cmdq.cqs.map fun x => { x with enable := true, state := .running, head := 15, tail := 2 } } }

theorem test_witness_DoorbellsMoveTheQueue :
    queued.store.service = true ∧ sqHost 7 = .spi ∧ (sqAt queued 7).state ≠ .disabled ∧ (sqAt queued 7).state ≠ .resetting ∧
    (let x := sqAt queued 7
     (∀ i ∈ [2, 14], i < 2 ^ x.log2 ∧ (x.tail + 16 - x.head) % 16 ≤ (i + 16 - x.head) % 16) ∧
     2 ^ x.log2 ≤ 16 ∧ (1 + 16 - x.head) % 16 < (x.tail + 16 - x.head) % 16) ∧
    (sqAt live 0).state = .disabled ∧ (sqAt { live with cmdq := { live.cmdq with sqs := [{ state := .resetting }] } } 0).state = .resetting ∧
    (cqAt live 3).state = .disabled ∧
    (cqHost 2 = .pcie ∧ (cqAt queued 2).state ≠ .disabled ∧ (cqAt queued 2).held = [] ∧ 2 < queued.cmdq.cqs.length ∧
      (let x := cqAt queued 2
       (∀ i ∈ [15, 2], i < 2 ^ x.log2 ∧ (i + 16 - x.head) % 16 ≤ (x.tail + 16 - x.head) % 16) ∧
       2 ^ x.log2 ≤ 16 ∧ (x.tail + 16 - x.head) % 16 < (3 + 16 - x.head) % 16)) := by
  and_intros <;> decide +kernel

theorem test_witness_QueuesAreEnabledAndDisabled :
    live.store.service = true ∧
    (sqHost 0 = .pcie ∧ (sqAt live 0).state ≠ .resetting ∧ (sqAt live 0).enable = false ∧
      sqEnableOk 0 (setSq 0 (sqFields 0x4) { live with cmdq := { live.cmdq with cqs := live.cmdq.cqs.map fun x => { x with enable := true, state := .running } } }) = true ∧
      sqEnableOk 0 (setSq 0 (sqFields 0x3) live) = false) ∧
    (sqHost 7 = .spi ∧ (sqAt queued 7).enable = true ∧ (sqAt queued 7).state ≠ .resetting ∧ 7 < queued.cmdq.sqs.length) ∧
    (let s := { live with cmdq := { live.cmdq with sqs := [{ state := .resetting }] } }
     (sqAt s 0).state = .resetting ∧ ∀ c ∈ s.cmdq.inflight, c.sq ≠ 0) ∧
    (∀ v ∈ [4, 10], cqHost 3 = .spi ∧ (cqAt live 3).enable = false ∧ 4 ≤ (BitVec.ofNat 32 v).toNat % 16 ∧ (BitVec.ofNat 32 v).toNat % 16 ≤ 10 ∧
      quarantined live 7 = false ∧ 3 < live.cmdq.cqs.length) ∧
    (cqHost 2 = .pcie ∧ (cqAt queued 2).enable = true ∧ owes queued 2 = false ∧
      owes (holding [{ cmd 0x0101 [] with cq := 2 }] queued) 2 = true) := by
  and_intros <;> decide +kernel

/-- An entry of the ring of SQ0, under a tag (R68). -/
def entry (op : Nat) (tag : Nat) : List Byte := le 2 op ++ le 2 tag ++ zeros 60
def ready0 : State := { live with cmdq := { live.cmdq with
  sqs := (live.cmdq.sqs.modify 0 fun x => { x with enable := true, state := .running, head := 15, tail := 0 })
  cqs := live.cmdq.cqs.map fun x => { x with enable := true, state := .running } } }

theorem test_witness_FetchingTakesOneEntry :
    serving ready0 = true ∧ nextQueue ready0 = some 0 ∧ (∀ c ∈ ready0.cmdq.inflight, c.opcode ∈ opcodes) ∧
    (∀ t ∈ [0, 0xBF], ringEntry 0 (some (entry 0x0101 t)) ready0 = some (entry 0x0101 t) ∧
      cmdOf ready0 (BitVec.ofNat 8 (fld (entry 0x0101 t) 2 1)) = none ∧ goodTag 0 (fld (entry 0x0101 t) 2 2) = true ∧
      fld (entry 0x0101 t) 0 2 ∈ opcodes) ∧
    ((cmdOf (on (cmd 0x0101 []) ready0) (BitVec.ofNat 8 (fld (entry 0x0101 1) 2 1))).isSome = true ∧
      ∀ c ∈ (on (cmd 0x0101 []) ready0).cmdq.inflight, c.opcode ∈ opcodes) ∧
    (cmdOf ready0 (BitVec.ofNat 8 (fld (entry 0x0101 0xC0) 2 1)) = none ∧ goodTag 0 (fld (entry 0x0101 0xC0) 2 2) = false) ∧
    ringEntry 0 none ready0 = none ∧ fld (entry 0x0101 0) 0 2 ≠ 0x0505 ∧
    (let s := setCar 11 (fun p => { p with gateDue := some (some 9, (0, [])) }) ready0
     let e := le 2 0x0505 ++ le 2 1 ++ [0, 0, 4] ++ zeros 9 ++ [11] ++ zeros 47
     let c := { parseCmd s.cmdq.accepted 0 s.clk.ps s.clk.lt e with cq := (sqAt s 0).cq }
     serving s = true ∧ nextQueue s = some 0 ∧ ringEntry 0 (some e) s = some e ∧ fld e 0 2 = 0x0505 ∧ pB c 0 = 11 ∧
     (carAt s (pB c 0)).gateDue = some (some 9, (0, [])) ∧ goodTag 0 (fld e 2 2) = true ∧ cmdOf s (BitVec.ofNat 8 (fld e 2 1)) = none) := by
  and_intros <;> decide +kernel

theorem test_witness_ACompletionIsWrittenAndCounted :
    (let c := { cmd 0x0101 [] with cq := 2 }
     Plain 0x0101 0 1 c (on c queued) ∧ c.cq < 3 ∧ Room c (on c queued) ∧ c.cq < (on c queued).cmdq.cqs.length) ∧
    (on (cmd 0x0101 []) queued).ram.wf = true := by
  unfold Plain Ready EpochOk Room; (and_intros <;> decide +kernel)

theorem test_witness_TheFirstFailedCheckDecides :
    (let c := cmd 0x0304 (zeros 11); Ready 0x0304 1 c (on c) ∧ c.plen ≠ 12) ∧
    (let c := { cmd 0x0304 (zeros 12) with epoch := 5 }
     Ready 0x0304 1 c (on c) ∧ c.plen = 12 ∧ c.buffer = false ∧ c.epoch ≠ 0xFF ∧ c.epoch ≠ (on c).survey.epoch) ∧
    (let c := cmd 0x0304 (zeros 12); Ready 0x0304 1 c (on c) ∧ EpochOk c (on c) ∧ (on c).survey.position ≠ 1) ∧
    (let c := cmd 0x0304 (zeros 12)
     let s := on c (numberedAt 1)
     Ready 0x0304 1 c s ∧ EpochOk c s ∧ s.survey.position = 1 ∧ s.test.lc ≠ 2 ∧ s.test.lc ≠ 4) ∧
    (∀ l ∈ [0x186A00000 - 1, 0xF42400000 + 1], let c := cmd 0x0304 (le 8 l ++ zeros 4)
     let s := on c (commission (numberedAt 1))
     Ready 0x0304 1 c s ∧ c.plen = 12 ∧ c.buffer = false ∧ EpochOk c s ∧ s.survey.position = 1 ∧ s.test.lc = 2 ∧
     (pF c 0 8 < 0x186A00000 ∨ 0xF42400000 < pF c 0 8)) := by
  unfold Ready EpochOk; (and_intros <;> decide +kernel)

theorem test_witness_ACommandWaitsItsTurn :
    (∀ c ∈ (cmdOf (on (cmd 0x0101 [])) 1).toList, c.opcode ≠ 0x0202) ∧
    (let s := holding [{ cmd 0x0101 [] with tag := 2 }, { cmd 0x0202 [1] with acc := 1, fence := true }] live
     ∀ c ∈ (cmdOf s 1).toList, mayStart s c = false) := by
  and_intros <;> decide +kernel

theorem test_witness_AbortStopsOneCommand :
    (∀ ph ∈ [CmdPhase.fetched, .started], let c := cmd 0x0104 [2]
     let x := { cmd 0x0202 [1] with tag := 2, phase := ph }
     let s := holding [c, x] live
     Plain 0x0104 1 1 c s ∧ cmdOf s (BitVec.ofNat 8 (pB c 0)) = some x ∧ x.tag ≠ 1 ∧ (x.phase = .fetched ∨ x.phase = .started)) ∧
    (let c := cmd 0x0104 [2]
     let x := { cmd 0x0303 [1] with tag := 2, phase := .committed }
     let s := holding [c, x] live
     Plain 0x0104 1 1 c s ∧ cmdOf s (BitVec.ofNat 8 (pB c 0)) = some x ∧ x.phase ≠ .fetched ∧ x.phase ≠ .started) ∧
    (let c := cmd 0x0104 [255]; Plain 0x0104 1 1 c (on c) ∧ cmdOf (on c) (BitVec.ofNat 8 (pB c 0)) = none) := by
  unfold Plain Ready EpochOk; (and_intros <;> decide +kernel)

theorem test_witness_WaitsAndNoncesExpire :
    (let c := { cmd 0x0202 [1] with phase := .started, timeout := 1 }
     let s := on c
     serving s = true ∧ cmdOf s 1 = some c ∧ c.opcode = 0x0202 ∧ c.timeout ≠ 0 ∧ c.phase = .started ∧ s.power.sleepTag ≠ some 1 ∧
     s.twin.yieldTag ≠ some 1) ∧
    (keyed.cmdq.lcNonce.isSome = true ∧ keyed.cmdq.logNonce.isSome = true) := by
  and_intros <;> decide +kernel

theorem test_witness_PcieResetClearsTheHostsPart :
    live.clk.running = true ∧ (∀ c ∈ (on (cmd 0x0101 [] 6)).cmdq.inflight, 6 ≤ c.sq) ∧ 2 < live.cmdq.cqs.length ∧
    live.router.targets[4]?.isSome = true ∧ live.router.targets[13]?.isSome = true ∧ State.reset.clk.running = false := by
  and_intros <;> decide +kernel

/-! ### The router and the window -/

/-- A unit with source 68 routed to T15 under the highest priority and pending, unmasked. -/
def routed : State := { live with router := { live.router with
  cfg := [(68, { prio := 15, target := 15 })], pend := BitVec.twoPow 641 68, mask := 0 } }

theorem test_witness_PendingAndMaskWords : live.store.service = true := rfl

theorem test_witness_RoutingObeysOwnership :
    routed.store.service = true ∧ RoutingOk routed ∧ unrouted routed 1 = true ∧ unrouted routed 640 = true ∧
    targetHost (srcCfg routed 68).target = some .spi ∧ bits (0xF0F : Word).toNat 3 0 ≠ 0 ∧ targetHost (bits (0xF0F : Word).toNat 11 8) = some .spi ∧
    bits (0xF00 : Word).toNat 3 0 = 0 ∧ targetHost (bits (0xD0F : Word).toNat 11 8) ≠ some .spi ∧
    (unrouted routed 68 = false ∧ targetHost (srcCfg routed 68).target ≠ none ∧ targetHost (srcCfg routed 68).target ≠ some .pcie) := by
  unfold RoutingOk; (and_intros <;> decide +kernel)

theorem test_witness_ThresholdAckAndUnmask :
    targetHost 14 = some .spi ∧ targetHost 4 = some .pcie ∧ targetHost 0 ≠ some .pcie ∧ targetHost 3 ≠ some .spi ∧
    (let s := { live with router := { live.router with
       cfg := [(68, { prio := 15, target := 13 })], pend := BitVec.twoPow 641 68, mask := 0, d0 := true, busMaster := true, functionMask := false,
       pba := BitVec.twoPow 10 9 } }
     s.store.service = true ∧ 9 < s.router.msix.length ∧ s.router.functionMask = false ∧ s.router.d0 = true ∧ s.router.busMaster = true ∧
     s.router.pba.getLsbD 9 = true ∧ request s 13 = true) := by
  and_intros <;> decide +kernel

/-- Candidate in a form that can be evaluated. -/
theorem candidate_iff (s : State) (t : Nat) : (∃ e, Candidate s t e) ↔ (∃ e ∈ s.router.cfg, e.2.target = t ∧ 0 < e.2.prio ∧ isPending s e.1 = true ∧
    s.router.mask.getLsbD e.1 = false ∧ s.router.service.getLsbD e.1 = false ∧ (targetAt s t).threshold < e.2.prio ∧
    topPrio (targetAt s t) < e.2.prio) := by
  constructor
  · rintro ⟨e, h, r⟩; exact ⟨e, h, r⟩
  · rintro ⟨e, h, r⟩; exact ⟨e, h, r⟩

theorem test_witness_ClaimAndComplete :
    (15 < routed.router.targets.length ∧ quarantined routed 7 = false ∧ targetHost 15 = some .spi ∧ RoutingOk routed ∧ ∃ e, Candidate routed 15 e) ∧
    (¬ ∃ e, Candidate routed 4 e) ∧ targetHost 15 ≠ some .pcie ∧
    (let s := setTarget 15 (fun x => { x with stack := [(68, 15), (7, 3)] }) routed
     s.store.service = true ∧ (targetAt s 15).stack = (bits (68 : Word).toNat 9 0, 15) :: [(7, 3)] ∧ topId (targetAt s 15) ≠ bits (7 : Word).toNat 9 0) ∧
    (targetAt routed 15).stack = [] ∧ topId (targetAt routed 15) = 0 ∧
    (routed.router.faultValid = false ∧ { routed with router := { routed.router with faultValid := true } }.router.faultValid = true) ∧
    (∀ e ∈ routed.router.cfg, e = (68, { prio := 15, target := 15 })) := by
  simp only [candidate_iff]; unfold RoutingOk; (and_intros <;> decide +kernel)

/-- The one candidate of T15, which none precedes. -/
theorem test_witness_ClaimAndComplete_best : ∃ e : Nat × SrcCfg, Candidate routed 15 e ∧
    ∀ e', Candidate routed 15 e' → e'.2.prio < e.2.prio ∨ (e'.2.prio = e.2.prio ∧ e.1 ≤ e'.1) := by
  refine ⟨(68, { prio := 15, target := 15 }), ?_, ?_⟩
  · unfold Candidate; decide +kernel
  · rintro e ⟨h, -⟩
    have : e = (68, { prio := 15, target := 15 }) := by simpa [routed] using h
    subst this; exact .inr ⟨rfl, Nat.le_refl _⟩

theorem test_witness_EveryStepKeepsTheRequests : ∃ t, step { routed with pending := [.nop 1] } = .next t := ⟨_, rfl⟩

theorem test_witness_WindowAccessesAct :
    windowUp live = true ∧ live.store.service = true ∧ live.regs.badValid = false ∧
    { live with regs := { live.regs with badValid := true } }.regs.badValid = true ∧ (0x3FFFFF : Nat) % 4 ≠ 0 ∧ (0x3FFFFF : Nat) < 0x400000 ∧
    { live with power := { live.power with mode := .unpowered } }.power.mode = .unpowered ∧
    live.store.rstLow = false ∧ live.power.mode = .run ∧ { live with power := { live.power with mode := .parking } }.power.mode = .parking ∧
    (let s := { live with store := { live.store with rstLow := true }, power := { live.power with mode := .deepPark } }
     s.store.rstLow = true ∧ s.power.mode = .deepPark) ∧ live.clk.running = true := by
  and_intros <;> decide +kernel

/-- Two records of the log, and one between them loaded. -/
def logRec (n : Nat) : LogRec := { seq := BitVec.ofNat 32 n, ltUs := 0, calUs := 0, code := 0, source := 0, repeats := 0, last := 0, data := [] }
def logged : State := { live with flow := { live.flow with log := [logRec 0xFFFFFFFE, logRec 2], loaded := some (logRec 0xFFFFFFFE) } }

theorem test_witness_FlowstoneWindowLoadsRecords :
    windowUp logged = true ∧ windowOpen logged = true ∧ oldest logged.flow = some (logRec 0xFFFFFFFE) ∧ newest logged.flow = some (logRec 2) ∧
    ((2 : Word) ≠ 0xFFFFFFFF ∧ (logRec 2).seq = 2 ∧ logged.flow.log.find? (fun x => x.seq == (2 : Word)) = some (logRec 2)) ∧
    ((1 : Word) ≠ 0xFFFFFFFF ∧ (∀ x ∈ logged.flow.log, x.seq ≠ (3 : Word)) ∧ ((3 : Word) - (logRec 2).seq).toNat < 2 ^ 31) ∧
    ((∀ x ∈ logged.flow.log, x.seq ≠ (0xFFFFFFFD : Word)) ∧ 2 ^ 31 ≤ ((0xFFFFFFFD : Word) - (logRec 2).seq).toNat ∧
      ((logRec 0xFFFFFFFE).seq - (0xFFFFFFFD : Word)).toNat < 2 ^ 31) ∧
    (logged.flow.loaded = some (logRec 0xFFFFFFFE) ∧
      logged.flow.log.find? (fun x => decide (0 < (x.seq - (0xFFFFFFFE : Word)).toNat) && decide ((x.seq - (0xFFFFFFFE : Word)).toNat < 2 ^ 31)) = some (logRec 2)) ∧
    (let s := { logged with flow := { logged.flow with loaded := some (logRec 2) } }
     s.flow.log.find? (fun x => decide (0 < (x.seq - (2 : Word)).toNat) && decide ((x.seq - (2 : Word)).toNat < 2 ^ 31)) = none) := by
  and_intros <;> decide +kernel

theorem test_witness_RingDoorbellsAndPowerHold :
    (∀ i ∈ [2, 15], let g : Ring := { port := some 0x80, host := .spi, log2 := 4, head := 0, tail := 2 }
     let s := ringed g (cmd 0x0101 [])
     s.store.service = true ∧ rxRing s 63 = g ∧ txRing s 63 = g ∧ g.port ≠ none ∧ i < 2 ^ g.log2 ∧
     (g.tail + 2 ^ g.log2 - g.head) % 2 ^ g.log2 ≤ (i + 2 ^ g.log2 - g.head) % 2 ^ g.log2) ∧
    (rxRing live 0).port = none ∧ (txRing live 63).port = none ∧
    (rxRing (ringed { port := some 0 } (cmd 0x0101 [])) 63).host ≠ .spi := by
  and_intros <;> decide +kernel

theorem test_witness_SpiWritesStoreWholeWords :
    windowUp live = true ∧ live.ram.wf = true ∧ 0x0203FFF8 % 4 = 0 ∧ 0x02000000 ≤ 0x0203FFF8 ∧ 0x0203FFF8 + (zeros 8).length ≤ 0x02040000 := by
  and_intros <;> decide +kernel

theorem test_witness_SpiReadsAndJtagInstructions :
    windowUp live = true ∧ (∀ a ∈ [0x02000000, 0x0203FFFC], a % 4 = 0 ∧ 0x02000000 ≤ a ∧ a < 0x02040000) ∧ keyed.test.lc ≠ 1 ∧
    State.reset.test.lc = 1 := by
  and_intros <;> decide +kernel

/-! ### Ports, segments and controllers -/

/-- A car port with its fields. -/
def carred (n : Nat) (f : CarPort → CarPort) : State := setCar n f live
/-- All backbone links up, as members of the consist. -/
def linked (s : State) : State := { s with
  bb := s.bb.map fun b => { b with up := true }
  survey := { s.survey with ports := s.survey.ports.map fun p => { p with member := true } } }

theorem test_witness_LinksComeAndGo :
    (∀ n ∈ [0, 11], let s := carred n fun p => { p with mode := 1, link := .training }; carWorks s n = true ∧ (carAt s n).link = .training ∧ s.clk.ps ≤ (carAt s n).linkPs + 1000 * 10 ^ 9) ∧
    (let s := carred 11 fun p => { p with mode := 1, link := .failed }; carWorks s 11 = true ∧ (carAt s 11).link = .failed) ∧
    (let s := carred 0 fun p => { p with mode := 1, link := .upLpi }; running s = true ∧ carUp (carAt s 0) = true) ∧
    (∀ p ∈ [BPort.laf, .lbr], running live = true ∧ quarantined live (8 + p.idx) = false ∧ underTest live (8 + p.idx) = false ∧ (bbAt live p).up = false ∧
      live.power.cancelled = none ∧ (bbAt (linked live) p).up = true) := by
  and_intros <;> decide +kernel

/-- Frames of 64 bytes: with the right FCS, worked out with another implementation, and with a wrong one. -/
def good64 : List Byte := [2, 0, 0, 0, 0, 1, 2, 0, 0, 0, 0, 2, 8, 0] ++ zeros 46 ++ le 4 0x98b34aed
def bad64 : List Byte := [2, 0, 0, 0, 0, 1, 2, 0, 0, 0, 0, 2, 8, 0] ++ zeros 50
def upPort : State := carred 11 fun p => { p with mode := 4, link := .up }

/-- One from a group address. -/
def groupFrame : List Byte := [2, 0, 0, 0, 0, 1, 3, 0, 0, 0, 0, 2, 8, 0] ++ zeros 46 ++ le 4 0x9916e35b

theorem test_goodFrame : fcsOf good64 = .good := by decide +kernel
theorem test_badFrame : fcsOf bad64 ≠ .good := by decide +kernel

theorem test_witness_CarPortsReceive :
    carWorks upPort 11 = true ∧ carUp (carAt upPort 11) = true ∧ lengthOk (zeros 63) = false ∧ (carAt upPort 11).flags.getLsbD 0 = false ∧
    lengthOk bad64 = true ∧ lengthOk good64 = true ∧ isLinkLocalDa (frDa (stripFcs good64)) = false ∧ isActive upPort = false ∧
    (let s := { upPort with twin := { upPort.twin with role := .active } }
     carWorks s 11 = true ∧ carUp (carAt s 11) = true ∧ isActive s = true) := by
  and_intros <;> decide +kernel

/-- A frame that waits in queue 5 of CP11. -/
def waitingFrame : TxFrame := { bytes := good64.take 60, joined := 0 }
def busyPort : State := { carred 11 (fun p => { p with mode := 4, link := .up, queues := p.queues.set 5 [waitingFrame] }) with
  twin := { live.twin with role := .active } }

/-- A port in low-power idle whose gate for TT frames opens 1,000 ns into its list. -/
def idlePort : State := carred 11 fun p => { p with
  mode := 4, link := .upLpi, partnerTw := some 5, gates := [{ gates := 0, interval := 1000 }, { gates := 0x1FF, interval := 1000 }] }

theorem test_witness_CarPortsTransmit :
    (carWorks busyPort 11 = true ∧ (carAt busyPort 11).link = .up ∧ (carAt busyPort 11).sending = none ∧ isActive busyPort = true ∧
     (let u := dropOversize 11 (toLt (carAt busyPort 11).freeAt (begin_ busyPort)); nextCar u (carAt u 11) = some (5, waitingFrame))) ∧
    (let s := carred 11 (fun p => { p with mode := 4, link := .up, sending := some waitingFrame, sendingQ := 7 })
     running s = true ∧ (carAt s 11).sending = some waitingFrame ∧ waitingFrame.slice = none ∧ waitingFrame.tx = none ∧ (carAt s 11).sendingQ < 8) ∧
    (let s := carred 0 (fun p => { p with mode := 1, gates := [{ gates := 0xFF, interval := 1000 }, { gates := 1, interval := 1000 }], gateNext := 65536000 })
     running s = true ∧ (carAt s 0).gates[(carAt s 0).gateIdx + 1]? = some { gates := 1, interval := 1000 } ∧
     (carAt s 0).gateNext < boundary s ((cycleOf s (carAt s 0).gateNext / s.time.hyper + 1) * s.time.hyper)) ∧
    (running idlePort = true ∧ (carAt idlePort 11).link = .upLpi ∧ (carAt idlePort 11).queues.flatten = [] ∧
     nextDue idlePort 11 = some (1000 * 65536)) ∧
    (let s := setCar 11 (fun p => { p with queues := p.queues.set 0 [waitingFrame], gates := [] }) idlePort
     running s = true ∧ (carAt s 11).link = .upLpi ∧ (carAt s 11).queues.flatten = [waitingFrame] ∧ nextDue s 11 = none) := by
  and_intros <;> decide +kernel

/-- A port that holds 33 frames of 1,500 bytes, with every function on. -/
def fullPort : State := { (carred 11 fun p => { p with
  mode := 4, link := .up, flags := 7, asOn := true, pausing := true
  queues := p.queues.set 0 (List.replicate 33 { waitingFrame with src := some (11, 1500) }) }) with twin := { live.twin with role := .active } }

theorem test_witness_CarPortsOriginate :
    mayOriginate fullPort 11 = true ∧ (carAt fullPort 11).flags.getLsbD 1 = true ∧ (carAt fullPort 11).asOn = true ∧
    (carAt fullPort 11).flags.getLsbD 2 = true ∧ (carAt fullPort 11).pausing = true ∧ 49152 < heldBytes fullPort 11 ∧ running fullPort = true ∧
    (carAt fullPort 11).asNoPeer = false ∧
    (let s := carred 0 (fun p => { p with pausedUntil := p.pausedUntil.set 7 5 })
     running s = true ∧ ((carAt s 0).pausedUntil.filter fun x => decide (s.clk.ps < x)) = [5]) := by
  and_intros <;> decide +kernel

/-- A transmit ring bound to a port, with entries posted. -/
def sendRing (port : Nat) : State := { live with
  car := live.car.map fun p => { p with mode := 4, link := .up }
  rings := { live.rings with tx := [(63, { port := some port, log2 := 4, head := 15, tail := 1 })], rx := [(63, { port := some port, unbinding := some 1 })] } }
def desc (n : Nat) : TxDesc := { data := zeros n, first := true, last := true, stamp := true }

theorem test_witness_TransmitRingsAreRead :
    (∀ port ∈ [11, 0x80], serving (sendRing port) = true ∧ (txRing (sendRing port) 63).port = some port ∧ (txRing (sendRing port) 63).unbinding = none ∧
      wholeFrame [desc 60] = true ∧ [desc 60].length ≤ posted (txRing (sendRing port) 63) ∧ txTooLong (txData [desc 60]) = false) ∧
    txTooLong (txData [desc 1515]) = true ∧ (txRing (sendRing 0x80) 63).port = some 0x80 ∧ 12 ≤ 0x80 ∧ wholeFrame [desc 1515] = true ∧
    [desc 1515].length ≤ posted (txRing (sendRing 0x80) 63) ∧
    (running (sendRing 0) = true ∧ (rxRing (sendRing 0) 63).unbinding = some 1 ∧ (rxRing (sendRing 0) 63).port = some 0) ∧
    (let s := { live with rings := { live.rings with tx := [(63, { port := some 0x80, unbinding := some 1 })] } }
     running s = true ∧ (txRing s 63).unbinding = some 1 ∧ (txRing s 63).port = some 0x80 ∧ 12 ≤ 0x80 ∧ ∀ o ∈ s.rings.owed, o.ring ≠ 63) := by
  and_intros <;> decide +kernel

/-- A segment with its fields, on an active unit. -/
def segment (g : Nat) (f : MdSeg → MdSeg) : State := { setMd g f live with twin := { live.twin with role := .active } }

/-- Frames of 64 bytes for a segment: to a link-local group, of PCP 6 and of PCP 4; their FCS are worked out with another
implementation. -/
def localFrame : List Byte := [1, 0x80, 0xC2, 0, 0, 0xE, 2, 0, 0, 0, 0, 2, 8, 0] ++ zeros 46 ++ le 4 0x6efa9ee8
def pcp6Frame : List Byte := [2, 0, 0, 0, 0, 1, 2, 0, 0, 0, 0, 2, 0x81, 0, 0xC0, 0, 8, 0] ++ zeros 42 ++ le 4 0xb9e69b66
def pcp4Frame : List Byte := [2, 0, 0, 0, 0, 1, 2, 0, 0, 0, 0, 2, 0x81, 0, 0x80, 0, 8, 0] ++ zeros 42 ++ le 4 0x91031175

/-- A segment that knows the sender of those frames as its station 31, with a full or an empty policer. -/
def knowing (level : Nat) : State := segment 1 fun m => { m with
  stations := [(31, { addr := some 0x020000000002, pinned := false })], bucket := { m.bucket with level := level } }

theorem test_witness_SegmentsFollowCsmaAndPlca_frames :
    (∀ f ∈ [localFrame, good64, pcp6Frame, pcp4Frame], lengthOk f = true ∧ fcsOf f = .good ∧ isGroup (frSa (stripFcs f)) = false ∧
      stationOf (knowing 0) 1 (frSa (stripFcs f)) = some 31) ∧
    isLinkLocalDa (frDa (stripFcs localFrame)) = true ∧ (∀ f ∈ [good64, pcp6Frame, pcp4Frame], isLinkLocalDa (frDa (stripFcs f)) = false) ∧
    (mdWorks (knowing 0) 1 = true ∧ isActive (knowing 0) = true ∧ mdWorks live 1 = true ∧ isActive live = false) ∧
    (isRc (stripFcs good64) = false ∧ (isTagged (stripFcs good64) && frPcp (stripFcs good64) == 6) = false) ∧
    (isRc (stripFcs pcp6Frame) = false ∧ (isTagged (stripFcs pcp6Frame) && frPcp (stripFcs pcp6Frame) == 6) = true) ∧
    isRc (stripFcs pcp4Frame) = true ∧
    (∀ g ∈ [(64 * 10 ^ 12, true), (64 * 10 ^ 12 - 1, false)], (police 0 64 (mdAt (knowing g.1) 1).bucket).2 = g.2) ∧
    (let s := segment 0 (fun m => { m with learn := true })
     stationOf s 0 0x020000000002 = none ∧ (mdAt s 0).learn = true ∧ emptyStation s 0 = some 0 ∧ isActive s = true ∧
     (mdAt live 0).learn = false ∧ stationOf live 0 0x020000000002 = none) := by
  and_intros <;> decide +kernel

theorem test_witness_SegmentsFollowCsmaAndPlca :
    (∀ g ∈ [0, 1], mdWorks live g = true) ∧ lengthOk (zeros 63) = false ∧ (lengthOk bad64 = true ∧ fcsOf bad64 ≠ .good) ∧
    (lengthOk groupFrame = true ∧ fcsOf groupFrame = .good ∧ isLinkLocalDa (frDa (stripFcs groupFrame)) = false ∧
      isGroup (frSa (stripFcs groupFrame)) = true) ∧
    (let s := segment 1 (fun m => { m with mode := 1, nodeId := 0, credit := 1, queues := m.queues.set 7 [zeros 60] })
     mdWorks s 1 = true ∧ isActive s = true ∧ (mdAt s 1).onPair = false ∧ (mdAt s 1).due = none ∧ mdNext (mdAt s 1) = some (7, zeros 60) ∧
     (mdCsma (mdAt s 1) = true → (mdAt s 1).backoffPs = none) ∧ (mdCsma (mdAt s 1) = false → 0 < (mdAt s 1).credit) ∧
     (mdAt s 1).mode = 1 ∧ (mdAt s 1).nodeId = 0 ∧ (mdAt s 1).fallback = false) ∧
    (let s := segment 0 (fun m => { m with queues := m.queues.set 0 [zeros 60] })
     mdWorks s 0 = true ∧ mdNext (mdAt s 0) = some (0, zeros 60) ∧ mdCsma (mdAt s 0) = true ∧ (mdAt s 0).backoffPs = none) ∧
    (let s := segment 0 (fun m => { m with onPair := true, backoffPs := some 5 })
     isActive s = true ∧ (mdAt s 0).onPair = true ∧ (mdAt s 0).backoffPs = some 5) ∧
    (let s := segment 1 (fun m => { m with mode := 1, nodeId := 31 })
     mdWorks s 1 = true ∧ (mdAt s 1).mode = 1 ∧ (mdAt s 1).nodeId ≠ 0 ∧ (mdAt s 1).fallback = false ∧ 1 < s.md.length) ∧
    ((mdAt live 0).mode = 0 ∧ (mdAt live 0).due = none ∧ 0 < live.md.length) ∧
    (let s := segment 0 (fun m => { m with due := some (none, 1, 0, 32, 255) })
     (mdAt s 0).due = some (none, 1, 0, 32, 255) ∧ (mdAt s 0).onPair = false ∧ mdCoordinates (mdAt s 0) = false) := by
  and_intros <;> decide +kernel

/-- A controller with its fields. -/
def controller (k : Nat) (f : CanCtl → CanCtl) : State := setCan k f live
def canFrame : CanFrame := anyFrame

theorem test_witness_CanControllersReceive :
    (∀ k ∈ [0, 3], ∀ st ∈ [CanState.listenOnly, .errorActive], let s := controller k (fun c => { c with mode := 1, state := st, recv := 127 })
      canWorks s k = true ∧ canHears (canAt s k) = true ∧ (canAt s k).state = st ∧ (canAt s k).recv ≤ 127 ∧ canAccepts (canAt s k).mode .classical = true) ∧
    (∀ lo ∈ [true, false], let s := controller 3 (fun c => { c with mode := 3, state := .integrating, listenOnly := lo })
      canWorks s 3 = true ∧ (canAt s 3).state = .integrating ∧ (canAt s 3).listenOnly = lo) ∧
    (let s := controller 0 (fun c => { c with mode := 1, state := .busOff }); canWorks s 0 = true ∧ (canAt s 0).state = .busOff) ∧
    (∀ m ∈ [1, 2], ∀ t ∈ [zeros 12, zeros 9 ++ [4, 0, 0]], let s := controller 0 (fun c => { c with mode := m, state := .errorActive, timing := t })
     canHears (canAt s 0) = true ∧ (canAt s 0).mode = m ∧ (canAt s 0).state ≠ .integrating) ∧
    (bitOf (fld (zeros 12) 9 1) 2 = false ∧ bitOf (fld (zeros 9 ++ [4, 0, 0]) 9 1) 2 = true) ∧
    (let s := controller 0 (fun c => { c with buffers := [(127, { kind := 1, locked := some 0 })] }); (bufAt (canAt s 0) 127).locked = some 0) := by
  and_intros <;> decide +kernel

theorem test_witness_CanControllersTransmit :
    (let s := controller 0 (fun c => { c with mode := 1, state := .errorActive, buffers := [(127, { kind := 2, pending := true, length := 8, data := zeros 8 })] })
     canWorks s 0 = true ∧ canMaySend (canAt s 0) = true ∧ (txBest (txCandidates s 0)).isSome = true ∧ (canAt s 0).state = .errorActive ∧
     canHears (canAt s 0) = true ∧ (canAt s 0).sending = none) ∧
    (let s := controller 0 (fun c => { c with mode := 1, state := .errorActive, sending := some (127, 5, canFrame) })
     canHears (canAt s 0) = true ∧ (canAt s 0).state = .errorActive ∧ (canAt s 0).sending = some (127, 5, canFrame) ∧ (bufAt (canAt s 0) 127).ctrl.getLsbD 0 = false) ∧
    (let s := on (cmd 0x0705 []) (controller 0 (fun c => { c with mode := 1, buffers := [(127, { kind := 2, txTag := some 1 })] }))
     canWorks s 0 = true ∧ (bufAt (canAt s 0) 127).txTag = some 1 ∧ (bufAt (canAt s 0) 127).pending = false ∧ (cmdOf s 1).isSome = true ∧
     (canAt s 0).sending = none) ∧
    (let s := controller 3 (fun c => { c with mode := 1, matrix := some { bc := 1, cells := [{ row := 0, col := 63, start := 5, buffer := 0, kind := 1 }] }, column := some 63 })
     (canAt s 3).matrix.isSome = true ∧ (canAt s 3).column = some 63) ∧
    (let s := { controller 3 (fun c => { c with mode := 1, state := .errorActive, matrix := some { bc := 1, cells := [{ row := 0, col := 63, start := 5, buffer := 0, kind := 1 }] } })
       with twin := { live.twin with role := .active } }
     (canAt s 3).matrix.isSome = true ∧ matrixRuns s 3 = true ∧ (canAt s 3).column = none ∧ 3 < s.can.length ∧
     ((canAt s 3).matrix.bind fun m => (usedColumns s.time.l m).find? fun x => decide (s.clk.lt ≤ rowStart s (canAt s 3) + x.2 * 65536)) = some (63, 5)) := by
  and_intros <;> decide +kernel

/-! ### Messages of the backbone -/

/-- A frame from a neighbour, at the ends of the lengths and hops of R105. -/
def rxAt (p : BPort) (len : Nat := 64) : MgRx :=
  { port := p, sfd := 0, fcs := .good, length := len, version := 1, line := p.line.code, epoch := 1, hops := 126, seq := 1, da := linkLocal, sa := trainMac 2 0 }

/-- Whole and ForMe of that frame, in a running unit whose links are up. -/
def up : State := linked live
theorem test_witness_whole : (∀ p ∈ BPort.all, ∀ n ∈ [64, 1528], Whole (rxAt p n) up) ∧ (∀ p ∈ BPort.all, ForMe (rxAt p) up) := by
  unfold Whole ForMe; (and_intros <;> decide +kernel)

/-- A frame to every node that passes its window. -/
def flooded (p : BPort) : MgRx := { rxAt p with da := allNodes }
def member (n : Nat) : State := linked (numberedAt n)
theorem test_witness_flooded : Whole (flooded .laf) (member 63) ∧ ForMe (flooded .laf) (member 63) := by
  unfold Whole ForMe; (and_intros <;> decide +kernel)

/-- A unit in the Survey. -/
def inState (st : SurveyState) : State := { up with survey := { up.survey with state := st, round := 1 } }
def record1 : Record := { epoch := 1, headRule := 0, truncated := false, lineAWhole := true, lineBWhole := true, innerSeen := false, crc := 9, cutover := 0, entries := [] }
def commit1 : SvCommit := { headOrigin := 5, round := 1, epoch := 1, hyper := 1, cutover := 100, cycle := 0x3D0900000, squeeze := 100, crc := 9 }
def claim1 : SvClaim := { origin := 5, round := 1, part := 0x9640, key := { active := true, present := true, nonce := 1, front := true }, units := 255 }

theorem test_witness_SurveyMessagesHaveTheirEffect :
    (surveying (inState .claim) = true ∧ claim1.round = (inState .claim).survey.round) ∧
    ((inState .settled).survey.state = .settled ∧ (inState .claim).survey.state = .claim) ∧
    (∀ b ∈ [true, false], let s := { inState .counted with survey := { (inState .counted).survey with isHead := b } }
      s.survey.state = .counted ∧ s.survey.stored = none ∧ s.survey.isHead = b ∧ relayOnce { mtype := 0x0104, origin := 5, round := 1 } s = true) ∧
    (let s := { inState .counted with survey := { (inState .counted).survey with stored := some record1, pendingPos := some 1 } }
     commit1.round = s.survey.round ∧ s.survey.commit = none ∧ commitMatches commit1 s = true ∧ commitMatches { commit1 with crc := 8 } s = false) ∧
    (numbered (member 63) = true ∧ (rxAt .laf).epoch = (member 63).survey.epoch ∧ Whole (rxAt .laf) (member 63) ∧ ForMe (rxAt .laf) (member 63)) := by
  unfold Whole ForMe; (and_intros <;> decide +kernel)

/-- A unit of the middle whose headward links have come back, with echo on them. -/
def regained : State := { member 2 with
  survey := { (member 2).survey with headSide := some .front, ports := (member 2).survey.ports.map fun p => { p with member := false, regain := 16 } }
  echo := live.echo.map fun e => { e with dValid := true, dry := 4 } }

theorem test_witness_SurveyStepsInTime :
    running up = true ∧ (bbOpen (inState .listen) .lbr = true ∧ (inState .listen).survey.state ≠ .boot ∧
      phaseOf (inState .listen) (inState .listen).clk.lt ≤ 3200 * 65536 ∧ (neighAt (inState .listen) .lbr).helloLt = none) ∧
    (let f : MgFrame := { da := linkLocal, sa := trainMac 1 0, epoch := 0xFF, hops := 0, seq := 0, msg := .svRestart 1 }
     let s := setBb .lbr (fun b => { b with mg := [f] }) up
     (bbAt s .lbr).mg = [f] ∧ bbOpen s .lbr = true ∧ numbered s = false ∧ f.epoch = 0xFF) ∧
    (let s := { inState .listen with survey := { (inState .listen).survey with settleCycles := 16, cabActiveKnown := true, cabPresentKnown := true } }
     s.survey.state = .listen ∧ 16 ≤ s.survey.settleCycles ∧ isEnd s = true ∧ s.survey.cabActiveKnown = true ∧ s.survey.cabPresentKnown = true ∧
     isEnd { s with echo := s.echo.map fun e => { e with dValid := true } } = false) ∧
    ((inState .settled).survey.noEndPs = none) ∧
    (let s := { inState .counted with survey := { (inState .counted).survey with countedCycles := 64 } }
     s.survey.state = .counted ∧ s.survey.commit = none ∧ 64 ≤ s.survey.countedCycles) ∧
    (innerPort regained .laf = true ∧ (neighAt regained .laf).member = false ∧ bbOpen regained .laf = true ∧ (echoAt regained .laf).dValid = true ∧
     16 ≤ (neighAt regained .laf).regain ∧ 4 ≤ (echoAt regained .laf).dry) ∧
    (let s := { inState .counted with survey := { (inState .counted).survey with stored := some record1, pendingPos := some 1, commit := some commit1, headSide := some .front } }
     s.survey.commit = some commit1 ∧ s.survey.stored = some record1 ∧ s.survey.pendingPos = some 1 ∧ s.survey.headSide = some .front ∧
     s.survey.state = .counted ∧ record1.crc = commit1.crc) := by
  and_intros <;> decide +kernel

/-- An entry of a record, a plan that waits for its swap, and an announced cut-over. -/
def entry1 : Entry :=
  { position := 1, reversed := false, cabActive := true, cabPresent := true, twinned := false, sActive := false, innerCab := false, part := 0x9640
    linkA := true, linkB := true, jumperA := false, jumperB := false, delayA := 100, delayB := 100 }
def stage1 : Stage := { swap := 5, serial := 1, ctxs := [], sels := [] }

/-- A re-forming message of another unit. -/
def head1 : JnHead := { origin := 77, serial := 3, epochOf := 1, posOf := 1 }
def jn : MgMsg := .jnAbandon { head := head1, subject := 5 }
def merge1 : Pending := { record := record1, keeping := false, reverse := false, units := 1, cause := 1, subject := 5, couplerPos := 1 }

theorem test_witness_ReformMessagesHaveTheirEffect :
    Whole (rxAt .laf) (member 63) ∧ ForMe (rxAt .laf) (member 63) ∧ FirstCopy head1 jn (member 63) ∧ head1.epochOf = (member 63).survey.epoch ∧
    (hasSide (member 63) .front = false ∧ idleReform (member 63) = true ∧ (member 63).reform.refused = none) ∧
    (let s := { member 63 with reform := { live.reform with refused := some (.front, consistCount (member 63), 4) } }
     s.reform.refused = some (BPort.laf.side, consistCount s, 4) ∧ FirstCopy head1 jn s) ∧
    (let s := { member 63 with reform := { live.reform with phase := 2, pending := some merge1 } }
     isJoining s = true ∧ FirstCopy head1 jn s) ∧
    (∀ b ∈ [true, false], let s := { member 63 with reform := { live.reform with shadowDone := b } }; s.reform.shadowDone = b ∧ FirstCopy head1 jn s) ∧
    (let s := { member 1 with twin := { live.twin with role := .active } }
     isReference s = true ∧ isActive s = true ∧ FirstCopy head1 jn s) ∧ isReference (member 63) = false ∧
    (let s := { member 63 with reform := { live.reform with pending := some merge1 } }
     s.reform.pending = some merge1 ∧ merge1.subject = 5 ∧ merge1.cause ≠ 2 ∧ FirstCopy head1 jn s) := by
  unfold Whole ForMe FirstCopy; (and_intros <;> decide +kernel)

def cut1 : JnCutover :=
  { head := head1, cause := 1, epoch := 2, hyper := 1, first := 1, last := 2, squeeze := 100, cutover := 1000, cycle := 0x3D0900000, leap := 0, crc := 9
    calOffset := 0, calSlew := 0 }

theorem test_witness_ReformStepsInTime :
    running (member 2) = true ∧ numbered (member 2) = true ∧
    (let s := { member 1 with survey := { (member 1).survey with headSide := some .front, record := some { record1 with entries := [entry1] } } }
     endSides s ≠ []) ∧
    (let p := { merge1 with cause := 2 }
     let s := { member 2 with reform := { live.reform with pending := some p, shadowDone := false } }
     s.reform.pending = some p ∧ s.planner.staged = [] ∧ s.gallery.retiringHeld = false ∧ s.reform.shadowDone = false ∧
     (p.cause = 1 → s.reform.contractsHeld = true)) ∧
    (let s := { member 2 with planner := { live.planner with staged := [stage1] } }
     s.planner.staged = [stage1] ∧ beforeCut s stage1 = true ∧ s.gallery.retiringHeld = false ∧ s.gallery.shadowComplete = false) ∧
    (let s := { member 2 with reform := { live.reform with pending := some merge1, cutover := some cut1 } }
     s.reform.cutover = some cut1 ∧ s.reform.pending = some merge1 ∧ merge1.record.crc = cut1.crc ∧ merge1.cause = cut1.cause ∧
     ¬((merge1.record.crc = { cut1 with crc := 8 }.crc) ∧ merge1.cause = cut1.cause)) ∧
    (let s := { member 2 with survey := { (member 2).survey with prevEpoch := 0, aliasLeft := 1 } }
     s.survey.prevEpoch ≠ 0xFF ∧ s.survey.aliasLeft ≤ 1) := by
  and_intros <;> decide +kernel

/-- A frame to this unit by its position and rank. -/
theorem test_witness_PlannerMessagesAndSwaps :
    (Whole (rxAt .laf) (member 2) ∧ ForMe (rxAt .laf) (member 2) ∧ Whole (rxAt .laf) (member 1) ∧ ForMe (rxAt .laf) (member 1)) ∧
    (let s := { member 1 with twin := { live.twin with role := .active } }
     Whole (rxAt .laf) s ∧ ForMe (rxAt .laf) s ∧ numbered s = true ∧ isReference s = true ∧ isActive s = true) ∧
    (let s := { member 2 with planner := { live.planner with record := some { record1 with entries := [entry1, entry1] } }
                              survey := { (member 2).survey with record := some { record1 with entries := [entry1, entry1] } } }
     let m : PlChange := { serial := 1, op := .withdraw 3, epoch := 1, swap := 5, target := 3 }
     m.epoch = s.survey.epoch ∧ isReference s = false ∧ (m.serial + 65536 - s.planner.lastSerial) % 65536 = 1 ∧
     (let u := handed (rxAt .laf) (.plChange m) (begin_ s); u.clk.lt < boundary u (cycleAt u m.swap) ∧ (planEnv u).isSome = true)) ∧
    (∀ serial ∈ [2, 32767], let m : PlChange := { serial := serial, op := .repack, epoch := 1, swap := 5, target := 0 }
     m.epoch = (member 2).survey.epoch ∧ 2 ≤ (m.serial + 65536 - (member 2).planner.lastSerial) % 65536 ∧
     (m.serial + 65536 - (member 2).planner.lastSerial) % 65536 ≤ 32767) ∧
    ((0 + 65536 - (member 2).planner.lastSerial) % 65536 = 0 ∧ 32767 < (32768 + 65536 - (member 2).planner.lastSerial) % 65536) ∧
    (let m : PlContract := { epochOf := 1, item := .nothing, lastSerial := 0, index := 0, total := 2 }
     Whole (flooded .laf) (member 2) ∧ ForMe (flooded .laf) (member 2) ∧ (flooded .laf).da = allNodes ∧ m.epochOf = (member 2).survey.epoch ∧
     (member 2).planner.coldDone = false ∧ 0 < m.total ∧ (addTaken m (member 2).planner.taken).length < m.total) ∧
    (∀ b ∈ [true, false], let s := { member 2 with planner := { live.planner with staged := [stage1] }, gallery := { live.gallery with shadowComplete := b } }
     running s = true ∧ numbered s = true ∧ s.planner.staged = [stage1] ∧ s.gallery.waiting = false ∧ s.gallery.shadowComplete = b ∧ s.reform.shadowDone = false) ∧
    (let s := { live with gallery := { live.gallery with lastSwap := some 1, retiringHeld := true } }
     running s = true ∧ s.gallery.lastSwap = some 1 ∧ s.gallery.retiringHeld = true) := by
  unfold Whole ForMe; (and_intros <;> decide +kernel)
/-! ### The Gallery and time -/

/-- A chamber table entry of context 5 at 20,000 ns, used in every cycle. -/
def chamber1 (kind : ChKind) : Chamber :=
  { start := 20000 * unitsPerNs, kind := kind, lag := 0, context := 5, epoch := 1, maxlen := 1528, deliver := 1, intake := 0, mask := BitVec.allOnes 128 }
def planned (kind : ChKind) : State := { member 2 with
  gallery := { live.gallery with banks := List.replicate 4 { active := [chamber1 kind] } } }
/-- The line time of that chamber's start in the present cycle, and TT headers with a context and an epoch. -/
def atChamber : Nat := boundary (planned .terminal) (cycleNow (planned .terminal)) + 20000 * unitsPerNs
def ttHead (epoch context : Nat) : List Byte := [0x0B, 0x5A] ++ byte1 epoch ++ byte1 context ++ zeros 8 ++ [0x88, 0xB5]
def flight1 : TtFlight :=
  { port := .lbr, context := 5, seq := 0, epoch := 1, sourceCycle := 0, start := 0, cycle := 0, forward := false, deliver := 1, maxlen := 64, sfd := 0
    first := true, arriving := true, sent := false, cut := false, dropped := false, tied := false, body := none }

theorem test_witness_GuardianJudgesTtFrames :
    (∀ p ∈ BPort.all, bbTakes up p = true ∧ bbOpen up p = true ∧ (neighAt up p).member = true ∧
      (neighAt { up with survey := live.survey } p).member = false) ∧
    (fld (ttHead 0xFE 255) 2 1 ≠ 0xFF ∧ nfld (ttHead 0xFE 255) 12 2 = 0x88B5 ∧ nfld (ttHead 0xFE 255) 0 2 = 0x0B5A ∧ nfld (zeros 14) 12 2 ≠ 0x88B5) ∧
    (let s := planned .terminal
     let u := toLt atChamber (begin_ s)
     windowAt (toLt 0 (begin_ s)) .lbr 0 0 = none ∧
     windowAt u .lbr (cycleOf u atChamber) (phaseOf u atChamber) = some (chamber1 .terminal, 20000 * unitsPerNs, false) ∧
     (BPort.lbr.idx, 20000 * unitsPerNs, cycleTag u (cycleOf u atChamber)) ∉ s.gallery.accepted ∧
     fld (ttHead 1 6) 3 1 ≠ 5 ∧ fld (ttHead 1 5) 3 1 = 5 ∧ fld (ttHead 2 5) 2 1 ≠ 1 ∧ fld (ttHead 1 5) 2 1 = 1 ∧ (ingressAt s (.bb .lbr)).closed = false ∧
     (let t := { s with gallery := { s.gallery with accepted := [(BPort.lbr.idx, 20000 * unitsPerNs, cycleTag u (cycleOf u atChamber))] } }
      let v := toLt atChamber (begin_ t)
      windowAt v .lbr (cycleOf v atChamber) (phaseOf v atChamber) = some (chamber1 .terminal, 20000 * unitsPerNs, false) ∧
      (BPort.lbr.idx, 20000 * unitsPerNs, cycleTag v (cycleOf v atChamber)) ∈ t.gallery.accepted)) ∧
    (∀ b ∈ [true, false], let s := { up with gallery := { live.gallery with flights := [{ flight1 with dropped := b }] } }
     arrivingAt s .lbr = some { flight1 with dropped := b } ∧ flight1.cut = false ∧ good64.length ≤ flight1.maxlen ∧ 64 ≤ good64.length ∧
     fcsOf good64 = .good ∧ (zeros 63).length < 64) ∧
    (∀ v ∈ [none, some 3], let x : TtReject := { port := .lbr, counter := 0x80, kind := v }
     let s := { up with gallery := { live.gallery with rejects := [x] } }
     arrivingAt s .lbr = none ∧ rejectedAt s .lbr = some x ∧ x.kind = v) ∧
    (let s := setIngress (.bb .laf) (fun i => { i with closed := true, clean := 256 }) live
     256 ≤ (ingressAt s (.bb .laf)).clean ∧ (ingressAt s (.bb .laf)).closed = true) := by
  and_intros <;> decide +kernel

/-- General frames of 64 bytes: an RC frame of a line in epoch 1 from vehicle 1; the FCS is worked out with
another implementation. -/
def rcFrame (line : Nat) (fcs : Nat) : List Byte :=
  macBytes (trainMac 2 0) ++ macBytes (trainMac 1 0) ++ [0x88, 0xB6] ++ byte1 (0x14 + line) ++ [1, 0, 0] ++ zeros 42 ++ le 4 fcs
def bbQueued : BbFrame := { bytes := good64.take 60, pcp := 7, rc := false }

/-- A stream delivered at vehicle 2 that its cab serves. -/
def canon1 : Canon :=
  { context := 5, state := .placed, contract := { srcPos := 1, srcPort := 0, flags := 0, destCount := 1, maxlen := 64, fph := 1, deadline := 0, dests := [(2, 1)] },
    serial := 1, cycOffset := 0, nSrc := 1, lines := 1, served := 1, srcIndex := [0] }
def cab1 : State :=
  let s := member 2
  { s with
    planner := { s.planner with ctxs := [(5, { canon := canon1, cause := 0, intake := 0, phase := 0 })] }
    vsu := [(5, { configured := true, allotted := true, dues := [(0, 100), (1, 200)] })] }

theorem test_witness_ChambersAndGeneralFrames :
    running up = true ∧
    (∀ k ∈ [ChKind.source, .forward], let s := planned k
     numbered s = true ∧ running s = true ∧
     (let u := toPhase (20000 * unitsPerNs) (begin_ s)
      (entriesIn u .laf (cycleNow u)).find? (fun e => e.start == 20000 * unitsPerNs && e.kind != .terminal) = some (chamber1 k))) ∧
    (∀ p ∈ BPort.all, inService up (8 + p.idx) = true ∧ bbOpen up p = true) ∧ ((zeros 63).length < 64 ∧ 1528 < (zeros 1529).length) ∧
    (64 ≤ (rcFrame 1 0).length ∧ (rcFrame 1 0).length ≤ 1528 ∧ fcsOf (rcFrame 1 0) = .bad ∧
      nfld (stripFcs (rcFrame 1 0)) 12 2 = 0x88B6) ∧
    (∀ g ∈ [(BPort.laf, rcFrame 1 0x54a6a893), (.lbr, rcFrame 2 0xd4fc0426)],
      let b := stripFcs g.2
      64 ≤ g.2.length ∧ g.2.length ≤ 1528 ∧ fcsOf g.2 = .good ∧ nfld b 12 2 = 0x88B6 ∧ fld b 14 1 / 16 = 1 ∧ fld b 14 1 / 4 % 4 = 1 ∧
      fld b 14 1 % 4 = g.1.line.code ∧ fld b 14 1 % 4 ≠ 3 - g.1.line.code ∧ (neighAt (member 2) g.1).member = true ∧ fld b 16 1 < 127 ∧
      fld b 15 1 = (member 2).survey.epoch) ∧ fcsOf (rcFrame 1 0xab59576c) = .marked ∧
    nfld (stripFcs (rcFrame 1 0xab59576c)) 12 2 = 0x88B6 ∧
    (let s := member 2
     let t := setBb .lbr (fun b => { b with general := [bbQueued], freeAt := atChamber }) s
     let b := withFcs (overwrite bbQueued.bytes 14 (byte1 (fld bbQueued.bytes 14 1 / 4 * 4 + BPort.lbr.line.code)))
     let u := toLt (bbAt t .lbr).freeAt (begin_ t)
     running t = true ∧ numbered t = true ∧ (neighAt t .lbr).member = true ∧ bbOpen t .lbr = true ∧ nextGeneral (bbAt t .lbr) = some bbQueued ∧
     insideFootprint u .lbr = false ∧ phaseOf u u.clk.lt + wire10g (b.length + 20) ≤ nextBusy u .lbr) ∧
    (let s := cab1
     running s = true ∧ numbered s = true ∧ vsuCab s 5 = true ∧ (vsuAt s 5).dues = [(0, 100), (1, 200)]) := by
  and_intros <;> decide +kernel

/-- A question and answers of an Echo exchange of the present cycle: T1 is the cycle's start, T4 2,000 ns later. -/
def t1At : Nat := boundary (member 2) (cycleNow (member 2))
def t4At : Nat := t1At + 2000 * unitsPerNs
def resp1 (ahead : Nat) : EchoResp :=
  { probeId := 0, port := 0x10, sync := 0, position := 1, uncert := 0, t2 := t1At + ahead + 100 * unitsPerNs, t3 := t1At + ahead + 1900 * unitsPerNs, slew := 0 }
/-- A unit that has asked at T1 on every port, and its headward ports with samples. -/
def asked (s : State) : State := { s with echo := live.echo.map fun e => { e with t1 := some t1At } }
def sampled : State := { member 2 with
  survey := { (member 2).survey with headSide := some .front }
  echo := live.echo.map fun e => { e with dValid := true, sample := some (5, 0) } }
def apply1 (start : Nat) : CalApply := { start := start, step := true, change := 5, baseOffset := 0, changeId := 1 }

theorem test_witness_TimeUnitKeepsTime :
    running up = true ∧ (∀ p ∈ BPort.all, (bbAt up p).up = true ∧ echoDue up p = true) ∧
    (∀ p ∈ BPort.all, ∀ n ∈ [64, 1528], let rx := { rxAt p n with sfd := t4At }
      inService up (8 + p.idx) = true ∧ (bbAt up p).up = true ∧ 64 ≤ rx.length ∧ rx.length ≤ 1528 ∧ rx.fcs = .good ∧ rx.version = 1 ∧
      rx.line = rx.port.line.code ∧ rx.hops < 127) ∧
    (∀ ahead ∈ [0, 41 * unitsPerNs, 3 * unitsPerNs], ∀ s ∈ [asked (member 2), asked up], let m := resp1 ahead
      let rx := { rxAt .laf with sfd := t4At }
      (echoAt s rx.port).t1 = some t1At ∧ rx.port.idx < s.echo.length ∧
      (let v := setEcho rx.port (fun e => { e with neighPos := m.position, neighSync := m.sync }) (arrived rx (begin_ s))
       sampleValid v (echoAt v rx.port) m t1At rx.sfd = true ∧ sampleValid v (echoAt v rx.port) { m with probeId := 1 } t1At rx.sfd = false)) ∧
    (∀ g ∈ [(asked up, false), (setEcho .laf (fun e => { e with t1 := some t1At }) up, true)],
      let rx := { rxAt .laf with sfd := t4At }
      let m := resp1 0
      let v := setEcho rx.port (fun e => { e with neighPos := m.position, neighSync := m.sync }) (arrived rx (begin_ g.1))
      (echoAt g.1 .laf).t1 = some t1At ∧ sampleValid v (echoAt v rx.port) m t1At rx.sfd = true ∧
      samplesIn (takeSample rx.port m t1At rx.sfd (noteExchange rx.port m t1At rx.sfd v)) = g.2) ∧
    (isReference (member 1) = true ∧ isReference sampled = false ∧ numbered sampled = true ∧
      servoPorts (toPhase (8000 * unitsPerNs) (begin_ sampled)) ≠ [] ∧ servoPorts (toPhase (8000 * unitsPerNs) (begin_ (member 2))) = []) ∧
    (let s := { live with time := { live.time with silenced := true, quiet := 16 } }
     s.time.silenced = true ∧ 16 ≤ s.time.quiet ∧ s.time.timeLock = false) ∧
    (Whole (rxAt .laf) (member 2) ∧ ForMe (rxAt .laf) (member 2) ∧
      ltNs (handed (rxAt .laf) (.calApply (apply1 (2 ^ 63))) (begin_ (member 2))) ≤ 2 ^ 63 ∧
      (let s := { member 2 with clk := { (member 2).clk with lt := 2 ^ 40 } }
       0 < ltNs (handed (rxAt .laf) (.calApply (apply1 0)) (begin_ s)))) ∧
    firstCal [apply1 7, apply1 5] = some (apply1 5) ∧
    (∀ n ∈ [0, 11], ∀ b ∈ [true, false], let s := { live with
        time := { live.time with glk := live.time.glk.map fun g => { g with mode := 2, driven := true, level := b } }
        twin := { live.twin with role := .active } }
      (glkAt s n).mode ≠ 0 ∧ (glkAt s n).anchorDue = false ∧ (glkAt s n).level = b ∧ (glkAt s n).driven = true ∧ n < glkOuts s.part.code ∧ isActive s = true) ∧
    (∀ level ∈ [true, false], let s := { live with survey := { live.survey with cabActive := !level, cabPresent := !level } }
      s.survey.cabActive ≠ level ∧ s.survey.cabPresent ≠ level ∧ reasonOn { s with power := { s.power with wakeEn := 0 } } 7 = false) := by
  unfold Whole ForMe; (and_intros <;> decide +kernel)

/-! ### The twin -/

/-- A standby and an active unit of a pair, and the partner's heartbeat. -/
def beat1 : Heartbeat :=
  { origin := 9, part := 0x9640, hbSeq := 1, health := 0x80000000, cycle := 0, handover := 0, epoch := 1, position := 2, orient := false, handoverAck := false
    open_ := false, gen := 0, round := 0, nonce := 0 }
def inRole (r : Role) (f : Twin → Twin) : State := { member 2 with twin := f { live.twin with role := r, partner := some beat1 } }
def mirror1 : Mirror :=
  { cycle := 0, digest := 0, lastSerial := 0, epoch := 1, dout := 0, streams := [], learned := [], glkAnchor := [], canRow := [] }
def settings1 : Settings := { command := [1, 5] ++ byte1 3 ++ zeros 61, buffer := [] }

theorem test_witness_TheLaneCarriesTheTwin :
    (∀ r ∈ [Role.starting, .standby, .active], let s := inRole r id
      laneOn s = true ∧ s.twin.laneFault = false ∧ (s.twin.partner.map fun h => h.origin) = some beat1.origin ∧ s.twin.numbering = none) ∧
    live.twin.partner = none ∧ laneOn live = true ∧ isStandby (inRole .standby id) = true ∧ isStandby (inRole .active id) = false ∧
    (∀ tag ∈ [some 1, none], let s := inRole .active (fun t => { t with awaiting := [(tag, settings1, 0)] })
      running s = true ∧ isActive s = true ∧ s.twin.awaiting = [(tag, settings1, 0)] ∧
      (s.twin.awaiting.find? fun a => (settingsCmd a.2.1).tag == 3) = some (tag, settings1, 0)) ∧
    (let s := inRole .active id
     roleOn s = true ∧ s.twin.partner.isSome = true ∧ s.twin.laneFault = false ∧ isStandby s = false) ∧
    (let s := inRole .active (fun t => { t with drivesActl := true })
     running s = true ∧ hasTwin s.part = true ∧ s.twin.drivesActl = true) := by
  and_intros <;> decide +kernel

theorem test_witness_RolesAndNodeFaults :
    (let s := inRole .starting id; roleOn s = true ∧ s.twin.role = .starting ∧ s.twin.actlHigh = true ∧ barred s = false) ∧
    (let s := inRole .standby (fun t => { t with takeoverAt := some 5, handoverCycle := 9, handoverAck := true })
     roleOn s = true ∧ isStandby s = true ∧ eligible (cutForTakeover (updTwin (fun t => { t with actlHigh := true }) (begin_ s))) = true ∧
     s.twin.takeoverAt = some 5 ∧ barred s = false ∧ s.twin.handoverCycle ≠ 0 ∧ s.twin.handoverAck = true) ∧
    (∀ b ∈ [true, false], let s := inRole .active (fun t => { t with handover := true, handoverCycle := 9, handoverAck := b })
      roleOn s = true ∧ isActive s = true ∧ s.twin.handover = true ∧ s.twin.handoverCycle ≠ 0 ∧ s.twin.handoverAck = b) ∧
    (let s := inRole .active (fun t => { t with takeover := true, takeoverCycles := 64 })
     isActive s = true ∧ s.twin.takeover = true ∧ 64 ≤ s.twin.takeoverCycles) ∧
    (let s := { inRole .standby (fun t => { t with revertPs := some 5 }) with store := { live.store with pref := true } }
     mayRevert s = true ∧ s.twin.revertPs = some 5) ∧
    (let s := inRole .active (fun t => { t with drivesActl := true })
     running s = true ∧ hasTwin s.part = true ∧ isActive s = true ∧ s.twin.drivesActl = true) := by
  and_intros <;> decide +kernel

/-! ### Media, tests, sleep and resets -/

/-- A test on a block, and a unit that has it under way. -/
def test1 (b : Nat) (k : TestKind) : Test :=
  { block := b, kind := k, origin := 0, tag := none, slices := 0, patterns := 0, misr := 0, lost := 0, running := false, startPs := 0, endPs := 0
    loops := [], failed := 0, returned := 0 }
def testing (t : Test) : State := { live with test := { live.test with tests := [t] } }
def logRec1 : LogRec := newRec 0xE0 0 [] 0 live

theorem test_witness_LogWritesAndSelfTest :
    (let s := { live with flow := { live.flow with log := [logRec1], front := 1 } }; flowWrites s = true ∧ 0 < s.flow.front) ∧
    (let s := { live with flow := { live.flow with dirty := true } }
     flowWrites s = true ∧ s.flow.front = 0 ∧ s.flow.dirty = true ∧ s.flow.open_ = none) ∧
    (let s := { live with flow := { live.flow with open_ := some { createdNs := 0, latestNs := 0 } } }
     s.flow.open_ = some { createdNs := 0, latestNs := 0 } ∧ s.clk.running = true) ∧
    (∀ k ∈ [TestKind.logic, .loopback], let t := test1 8 k
     let s := testing t
     s.test.tests = [t] ∧ t.running = false ∧ t.origin ≠ 2 ∧ blockBusy s 8 = false ∧ running s = true ∧ t.kind = k) ∧
    (∀ n ∈ [0, 2032], ∀ c ∈ [none, some 3], let t := { test1 8 .logic with running := true, patterns := n, cut := c }
     let s := testing t
     runningTest s 8 = some t ∧ t.kind = .logic ∧ running s = true ∧ min (target 8) (0 + 16) < target 8 ∧ min (target 8) (2032 + 16) = target 8) ∧
    (let t := { test1 12 .loopback with running := true, loops := [0, 1] }
     runningTest (testing t) 12 = some t ∧ t.kind = .loopback ∧ running (testing t) = true) ∧
    (let e : PlanEntry := { block := 33, kind := 2, roles := 3, period := 60, duePs := 0, overdue := false }
     let s := { live with test := { live.test with lc := 3, plan := List.replicate 32 e } }
     s.test.plan[31]? = some e ∧ running s = true ∧ s.store.service = true ∧ e.block < 34 ∧ blockPresent s.part e.block = true ∧
     kindOf e.kind = some .reference ∧ s.test.tests = [] ∧
     (let u := nextDueAt 31 (toPs e.duePs (begin_ s))
      planRuns u = true ∧ entryRole u e = true ∧ eligibleTest u (!isStandby u) e.block .reference = true)) := by
  and_intros <;> decide +kernel

theorem test_witness_SleepAndWakes :
    (Whole (rxAt .laf) (member 2) ∧ ForMe (rxAt .laf) (member 2) ∧ numbered (member 2) = true ∧ (member 2).survey.epoch = 1 ∧
      (member 2).power.sleepTag = none ∧ (member 2).power.sleepPhase = 0 ∧ (5 : BitVec 16) ≠ (member 2).power.sleepId) ∧
    (let s := { member 1 with twin := { live.twin with role := .active }, power := { live.power with sleepTag := some 1, sleepId := 5, sleepPhase := 1 } }
     Whole (rxAt .laf) s ∧ ForMe (rxAt .laf) s ∧ isReference s = true ∧ isActive s = true ∧ s.power.sleepTag.isSome = true ∧ s.power.sleepId = 5) ∧
    (∀ phase ∈ [1, 2], let s := { member 2 with power := { live.power with sleepPhase := phase, sleepId := 5 } }
     Whole (rxAt .laf) s ∧ ForMe (rxAt .laf) s ∧ numbered s = true ∧ s.power.sleepId = 5 ∧ s.power.sleepPhase ≠ 0 ∧ running s = true) ∧
    (∀ n ∈ [2, 3], let s := { live with power := { live.power with mode := .parking, parkTarget := n } }
     s.power.mode = .parking ∧ s.power.wakeLatch.getLsbD 15 = false) ∧
    (let s := { live with power := { live.power with mode := .park, parkLimit := 60, islands := true } }
     s.power.mode = .park ∧ s.power.parkLimit ≠ 0 ∧ s.store.rstLow = false ∧ s.power.islands = true ∧
     ∀ b ∈ [0, 1, 2, 3, 4, 5, 6], reasonOn s b = true) ∧
    (let f : WakeFilter := { flags := 1, ident := 5, mask := 0x1FFFFFFF }
     let s := { controller 1 (fun c => { c with decoder := true, wakeArmed := [(31, f)] }) with power := { live.power with mode := .park } }
     (canAt s 1).decoder = true ∧ (31, f) ∈ (canAt s 1).wakeArmed ∧ wakeMatches canFrame f = true ∧ reasonOn s 4 = true ∧ s.store.rstLow = false ∧
     reasonOn { s with power := { s.power with wakeEn := 0 } } 6 = false) := by
  unfold Whole ForMe; (and_intros <;> decide +kernel)

theorem test_witness_ResetSourcesReset :
    State.reset.power.mode = .run ∧ State.reset.store.released = false ∧ State.reset.power.railHold = false ∧
    (let s := { live with power := { live.power with mode := .unpowered } }; s.power.mode = .unpowered) ∧
    (∀ m ∈ [Mode.run, .doze], let s := { live with power := { live.power with mode := m }, twin := { live.twin with watchdog := true } }
     s.store.released = true ∧ s.power.mode = m ∧ s.twin.watchdog = true ∧ s.store.rstLow = false) ∧
    (∀ m ∈ [Mode.park, .deepPark, .doze], let s := { live with power := { live.power with mode := m }, store := { live.store with rstLow := true } }
     s.store.rstLow = true ∧ s.power.mode = m) ∧
    (let s := { State.reset with power := { State.reset.power with railHold := true } }
     s.power.mode = .run ∧ s.store.released = false ∧ s.power.railHold = true) := by
  and_intros <;> decide +kernel

theorem test_witness_ResetsKeepMram :
    (storedLc [0xFD02, 0xFD02, 0x0000] = some 2 ∧ storedLc [0, 0, 0] = none) ∧
    State.reset.store.rstLow = false ∧ State.reset.store.released = false ∧ State.reset.power.railHold = false ∧ State.reset.power.mode = .run ∧
    (let straps : Straps := { pref := true, orient := false, clksel := false }
     let u (failed : BitVec 34) :=
       bootTests failed (readLifeCycle (readLog (quarantined (releaseReset straps (begin_ State.reset)) 32) (releaseReset straps (begin_ State.reset))))
     (u 0).test.dark = none ∧ (u (BitVec.allOnes 34)).test.dark ≠ none) ∧
    (let s := { live with store := { live.store with service := false, step := 8 } }
     running s = true ∧ s.store.service = false ∧ s.store.step = 8) := by
  and_intros <;> decide +kernel

/-! ### Ill-formed commands -/

/-- Ill-formed pieces: one for each check of a record, a contract and a re-forming header. -/
def badRecords : List Record :=
  [{ record1 with epoch := 256 }, { record1 with headRule := 8 }, { record1 with cutover := 2 ^ 64 }, { record1 with entries := List.replicate 64 entry1 },
   { record1 with entries := [{ entry1 with position := 0 }] }, { record1 with entries := [entry1, { entry1 with position := 64 }] },
   { record1 with entries := [{ entry1 with part := 0x10000 }] }, { record1 with entries := [{ entry1 with delayA := 2 ^ 32 }] },
   { record1 with entries := [{ entry1 with delayB := 2 ^ 32 }] }, { record1 with entries := [entry1, entry1] }]
def contract1 : Contract := canon1.contract
def badContracts : List Contract :=
  [{ contract1 with srcPos := 256 }, { contract1 with srcPort := 256 }, { contract1 with destCount := 256 }, { contract1 with maxlen := 2 ^ 16 },
   { contract1 with fph := 2 ^ 16 }, { contract1 with deadline := 2 ^ 32 }, { contract1 with dests := List.replicate 9 (1, 1) },
   { contract1 with dests := [(256, 1)] }, { contract1 with dests := [(1, 256)] }]
def badCanons : List Canon :=
  badContracts.map (fun c => { canon1 with contract := c }) ++
  [{ canon1 with context := 256 }, { canon1 with serial := 2 ^ 16 }, { canon1 with cycOffset := 256 }, { canon1 with nSrc := 256 },
   { canon1 with srcIndex := List.replicate 17 0 }, { canon1 with srcIndex := [256] }]
def badHeads : List JnHead := [{ head1 with epochOf := 256 }, { head1 with posOf := 256 }]
def badRx : List MgRx :=
  let r := rxAt .laf
  [{ r with sfd := 2 ^ 80 }, { r with length := 63 }, { r with length := 1529 }, { r with version := 8 }, { r with line := 4 }, { r with epoch := 256 },
   { r with hops := 256 }]

/-- A well-formed frame and message of each kind. -/
def hello1 : SvHello :=
  { origin := 5, round := 1, part := 0x9640, cabActive := false, cabPresent := false, orient := false, twin := false, active := false, pref := false
    settled := false, full := false, state := 1, port := 0x10, position := 0, peer := 0 }
def req1 : EchoReq := { probeId := 1, port := 0x10, sync := 0, position := 0 }
def offer1 : JnOffer :=
  { head := head1, units := 1, farKey := claim1.key, farLast := false, couplerIsHead := true, crc := 9, cplDelayA := 0, cplDelayB := 0, entries := [entry1] }
def track1 : JnTrack := { head := head1, at_ := 0, delta := -5, slope := -5, ready := 0 }
def plReq1 : PlRequest := { reqPos := 1, op := .declare contract1, reqId := 1, epoch := 1 }
def plRes1 : PlResult := { reqPos := 1, op := 1, reqId := 1, outcome := 0, code := 0, codePos := 0, context := 0, serial := 0, swap := 0 }
def plChg1 : PlChange := { serial := 1, op := .repack, epoch := 1, swap := 5, target := 0 }
def plDig1 : PlDigest := { position := 1, epoch := 1, lastSerial := 0, digest := 0, planSilenced := false, timeSilenced := false }
def plTal1 : PlTally := { epoch := 1, agree := 0, lastSerial := 0, digest := 0, agreeMap := 0, reportMap := 0 }
def plCon1 : PlContract := { epochOf := 1, item := .record canon1, lastSerial := 0, index := 0, total := 1 }
def vote1 : SlVote := { sleepId := 1, position := 1, rank := 0, ready := true, reasons := 0 }
def slIns1 : SlInstant := { sleepId := 1, epoch := 1, instant := 0 }
def veto1 : SlVeto := { sleepId := 1, position := 1, rank := 0, reasons := 0 }

theorem test_messages_well_formed : ∀ i ∈ ([
    .echoReqRx (rxAt .laf) req1 0, .echoRespRx (rxAt .laf) (resp1 0), .calApplyRx (rxAt .laf) (apply1 0), .svHelloRx (rxAt .laf) hello1,
    .svClaimRx (rxAt .laf) claim1, .svCommitRx (rxAt .laf) commit1, .jnOfferRx (rxAt .laf) offer1, .jnTrackRx (rxAt .laf) track1,
    .jnCutoverRx (rxAt .laf) cut1, .plRequestRx (rxAt .laf) plReq1, .plResultRx (rxAt .laf) plRes1, .plChangeRx (rxAt .laf) plChg1,
    .plDigestRx (rxAt .laf) plDig1, .plTallyRx (rxAt .laf) plTal1, .plContractRx (rxAt .laf) plCon1, .slVoteRx (rxAt .laf) vote1,
    .slInstantRx (rxAt .laf) slIns1, .slVetoRx (rxAt .laf) veto1, .heartbeatRx beat1, .cycleMirrorRx mirror1, .settingsRx settings1,
    .canFrameRx 0 0 canFrame] : List Instr), i.wellFormed = true := by decide

theorem test_headers_refused : ∀ r ∈ badRx, ∀ i ∈ ([
    .echoReqRx r req1 0, .echoRespRx r (resp1 0), .calApplyRx r (apply1 0), .svHelloRx r hello1, .svClaimRx r claim1, .svCommitRx r commit1,
    .svRestartRx r 1, .svRecordRx r { headOrigin := 5, round := 1, record := record1 }, .svLinkRx r { position := 1, links := 0 },
    .svCountRx r { headOrigin := 5, round := 1, next := 1, inVehicle := false, headRule := 0, entries := [] },
    .jnEndRx r { head := head1, key := claim1.key, last := false, count := 1 }, .jnOfferRx r offer1,
    .jnMergeRx r { head := head1, keeping := true, reverse := false, units := 1, record := record1 }, .jnTrackRx r track1, .jnReadyRx r track1,
    .jnCutoverRx r cut1, .jnBreakRx r { head := head1, headPos := 1, tailPos := 2 }, .jnAbandonRx r { head := head1, subject := 5 },
    .plRequestRx r plReq1, .plResultRx r plRes1, .plChangeRx r plChg1, .plDigestRx r plDig1, .plTallyRx r plTal1, .plContractRx r plCon1,
    .slProposeRx r 1 1, .slVoteRx r vote1, .slInstantRx r slIns1, .slVetoRx r veto1, .slCancelRx r 1 0] : List Instr), i.wellFormed = false := by
  decide +kernel

theorem test_time_messages_refused :
    (∀ m ∈ [{ req1 with port := 256 }, { req1 with position := 256 }], m.wellFormed = false) ∧ Instr.wellFormed (.echoReqRx (rxAt .laf) req1 (2 ^ 80)) = false ∧
    (∀ m ∈ [{ resp1 0 with port := 256 }, { resp1 0 with position := 256 }, { resp1 0 with uncert := 2 ^ 16 }, { resp1 0 with t2 := 2 ^ 80 },
      { resp1 0 with t3 := 2 ^ 80 }, { resp1 0 with slew := 2 ^ 31 }, { resp1 0 with slew := -(2 ^ 31) - 1 }], m.wellFormed = false) ∧
    (∀ m ∈ [apply1 (2 ^ 64), { apply1 0 with change := 2 ^ 63 }, { apply1 0 with baseOffset := 2 ^ 63 }, { apply1 0 with changeId := 2 ^ 32 }],
      m.wellFormed = false) := by decide

theorem test_survey_messages_refused :
    (∀ m ∈ [{ hello1 with part := 2 ^ 16 }, { hello1 with state := 256 }, { hello1 with port := 256 }, { hello1 with position := 256 }],
      m.wellFormed = false) ∧
    (∀ m ∈ [{ claim1 with part := 2 ^ 16 }, { claim1 with units := 256 }], m.wellFormed = false) ∧
    (let m : SvCount := { headOrigin := 5, round := 1, next := 1, inVehicle := false, headRule := 0, entries := [] }
     m.wellFormed = true ∧ { m with next := 256 }.wellFormed = false ∧ { m with headRule := 8 }.wellFormed = false ∧
     ∀ r ∈ badRecords.drop 3, { m with entries := r.entries }.wellFormed = false) ∧
    (∀ r ∈ badRecords, SvRecord.wellFormed { headOrigin := 5, round := 1, record := r } = false) ∧
    (∀ m ∈ [{ commit1 with epoch := 256 }, { commit1 with hyper := 256 }, { commit1 with hyper := 0 }, { commit1 with cutover := 2 ^ 64 },
      { commit1 with cycle := 2 ^ 64 }, { commit1 with cycle := 0 }, { commit1 with squeeze := 2 ^ 16 }], m.wellFormed = false) ∧
    SvLink.wellFormed { position := 256, links := 0 } = false := by decide +kernel

theorem test_reform_messages_refused :
    (∀ h ∈ badHeads, JnEnd.wellFormed { head := h, key := claim1.key, last := false, count := 1 } = false ∧ { offer1 with head := h }.wellFormed = false ∧
      JnMerge.wellFormed { head := h, keeping := true, reverse := false, units := 1, record := record1 } = false ∧
      { track1 with head := h }.wellFormed = false ∧ { cut1 with head := h }.wellFormed = false ∧
      JnBreak.wellFormed { head := h, headPos := 1, tailPos := 2 } = false ∧ JnAbandon.wellFormed { head := h, subject := 5 } = false) ∧
    JnEnd.wellFormed { head := head1, key := claim1.key, last := false, count := 256 } = false ∧
    (∀ m ∈ [{ offer1 with units := 256 }, { offer1 with cplDelayA := 2 ^ 32 }, { offer1 with cplDelayB := 2 ^ 32 }], m.wellFormed = false) ∧
    (∀ r ∈ badRecords.drop 3, { offer1 with entries := r.entries }.wellFormed = false) ∧
    JnMerge.wellFormed { head := head1, keeping := true, reverse := false, units := 256, record := record1 } = false ∧
    (∀ r ∈ badRecords, JnMerge.wellFormed { head := head1, keeping := true, reverse := false, units := 1, record := r } = false) ∧
    (∀ m ∈ [{ track1 with at_ := 2 ^ 64 }, { track1 with delta := 2 ^ 79 }, { track1 with slope := 2 ^ 31 }, { track1 with ready := 2 ^ 16 }],
      m.wellFormed = false) ∧
    (∀ m ∈ [{ cut1 with cause := 256 }, { cut1 with epoch := 256 }, { cut1 with hyper := 256 }, { cut1 with hyper := 0 }, { cut1 with first := 256 },
      { cut1 with last := 256 }, { cut1 with squeeze := 2 ^ 16 }, { cut1 with cutover := 2 ^ 64 }, { cut1 with cycle := 2 ^ 64 }, { cut1 with cycle := 0 },
      { cut1 with leap := 2 ^ 64 }, { cut1 with calOffset := 2 ^ 63 }, { cut1 with calSlew := 2 ^ 63 }], m.wellFormed = false) ∧
    (∀ m ∈ [JnBreak.mk head1 256 2, JnBreak.mk head1 1 256], m.wellFormed = false) := by decide +kernel

theorem test_planner_messages_refused :
    (∀ c ∈ badContracts, { plReq1 with op := .declare c }.wellFormed = false ∧ { plChg1 with op := .declare c }.wellFormed = false) ∧
    (∀ m ∈ [{ plReq1 with reqPos := 256 }, { plReq1 with op := .withdraw 256 }, { plReq1 with reqId := 2 ^ 16 }, { plReq1 with epoch := 256 }],
      m.wellFormed = false) ∧
    (∀ m ∈ [{ plRes1 with reqPos := 256 }, { plRes1 with op := 256 }, { plRes1 with reqId := 2 ^ 16 }, { plRes1 with outcome := 256 },
      { plRes1 with code := 256 }, { plRes1 with codePos := 256 }, { plRes1 with context := 256 }, { plRes1 with serial := 2 ^ 16 },
      { plRes1 with swap := 2 ^ 64 }], m.wellFormed = false) ∧
    (∀ m ∈ [{ plChg1 with serial := 2 ^ 16 }, { plChg1 with epoch := 256 }, { plChg1 with swap := 2 ^ 64 }, { plChg1 with target := 256 }],
      m.wellFormed = false) ∧
    (∀ m ∈ [{ plDig1 with position := 256 }, { plDig1 with epoch := 256 }, { plDig1 with lastSerial := 2 ^ 16 }], m.wellFormed = false) ∧
    (∀ m ∈ [{ plTal1 with epoch := 256 }, { plTal1 with agree := 256 }, { plTal1 with lastSerial := 2 ^ 16 }], m.wellFormed = false) ∧
    (∀ c ∈ badCanons, { plCon1 with item := .record c }.wellFormed = false) ∧
    (∀ m ∈ [{ plCon1 with epochOf := 256 }, { plCon1 with item := .selection 256 0 }, { plCon1 with lastSerial := 2 ^ 16 },
      { plCon1 with index := 2 ^ 16 }, { plCon1 with total := 2 ^ 16 }], m.wellFormed = false) := by decide +kernel

theorem test_other_messages_refused :
    (∀ m ∈ [{ vote1 with position := 256 }, { vote1 with rank := 256 }], m.wellFormed = false) ∧
    (∀ m ∈ [{ slIns1 with epoch := 256 }, { slIns1 with instant := 2 ^ 64 }], m.wellFormed = false) ∧
    (∀ m ∈ [{ veto1 with position := 256 }, { veto1 with rank := 256 }], m.wellFormed = false) ∧
    (∀ m ∈ [{ beat1 with part := 2 ^ 16 }, { beat1 with cycle := 2 ^ 64 }, { beat1 with handover := 2 ^ 64 }, { beat1 with epoch := 256 },
      { beat1 with position := 256 }], m.wellFormed = false) ∧
    (∀ m ∈ [{ mirror1 with cycle := 2 ^ 64 }, { mirror1 with lastSerial := 2 ^ 16 }, { mirror1 with epoch := 256 },
      { mirror1 with streams := List.replicate 13 { valid := false, context := 0, nextSeq := 0 } },
      { mirror1 with streams := [{ valid := true, context := 256, nextSeq := 0 }] }, { mirror1 with learned := List.replicate 13 none },
      { mirror1 with glkAnchor := List.replicate 13 0 }, { mirror1 with glkAnchor := [2 ^ 64] }, { mirror1 with canRow := List.replicate 5 (0, 0) }],
      m.wellFormed = false) ∧
    { settings1 with command := zeros 63 }.wellFormed = false ∧
    (∀ f ∈ [{ canFrame with ident := 0x800 }, { canFrame with data := zeros 9 }, { canFrame with format := .fd, data := zeros 65 },
      { canFrame with format := .fd, rtr := true }, { canFrame with format := .xl }, { canFrame with format := .xl, data := [0], ide := true },
      { canFrame with format := .xl, data := [0], rtr := true }], f.wellFormed = false) := by decide +kernel

theorem test_commands_refused : ∀ i ∈ ([
    .commandFetch (some (zeros 63)), .spiWrite (2 ^ 32) (zeros 4), .spiWrite 0 (zeros 3), .spiWrite 0 [], .spiRead (2 ^ 32) 1, .spiRead 0 0,
    .registerWrite .pcie (2 ^ 20) false 0, .registerWrite .pcie 2 false 0, .registerWrite .pcie 4 true 0, .registerWrite .pcie 4 false (2 ^ 32),
    .badAccess .spi true (2 ^ 20), .srcCfgWrite .spi 641 0, .chamberStart .laf (2 ^ 32), .ttIngressSfd .laf (2 ^ 80) (zeros 18),
    .ttIngressSfd .laf 0 (zeros 17), .ttMaxlenReached .laf [], .ttFrameEnd .laf [], .backboneGeneralRx .laf (2 ^ 80) (zeros 64),
    .backboneGeneralRx .laf 0 [], .carRxFrame 0 (2 ^ 80) (zeros 64), .carRxFrame 0 0 [], .carFrameSent 0 (2 ^ 80) false, .txFrameRead 0 [],
    .mdRxFrame 0 [], .settingsAckRx 1 256, .loopbackEnd 12 65, .slProposeRx (rxAt .laf) 1 256, .slCancelRx (rxAt .laf) 1 256,
    .canWakeMatch 0 { canFrame with data := zeros 9 }, .settingsRx { settings1 with command := [] }] : List Instr), i.wellFormed = false := by decide +kernel

/-- A buffer longer than any that R69 lets a host name, and frames longer than any, are refused. -/
theorem test_long_buffers_refused (b : List Byte) (h : 262144 < b.length) : ∀ i ∈ ([
    .gateListSet 1 (some b), .canBufferSet 1 (some b), .canScheduleSet 1 (some b), .configCommit 1 (some b)] : List Instr), i.wellFormed = false := by
  simp [Instr.wellFormed, bufferOk, h]

theorem test_long_frames_refused (b : List Byte) :
    (16383 < b.length → frameOk b = false) ∧ (65536 < b.length → { settings1 with buffer := b }.wellFormed = false) ∧
    (64 < b.length → { canFrame with format := .fd, data := b }.wellFormed = false) ∧
    (2048 < b.length → { canFrame with format := .xl, data := b }.wellFormed = false) := by
  refine ⟨fun h => ?_, fun h => ?_, fun h => ?_, fun h => ?_⟩ <;> simp [frameOk, Settings.wellFormed, CanFrame.wellFormed, h] <;>
    (intros; omega)

/-! ### Worked examples of the spec -/

/-- The four-car reference train of the spec: its record's links, and a camera contract with two 1,522-byte frames per cycle to CP8 of
position 1, dual-line. -/
def trainEntry (pos da db : Nat) : Entry :=
  { position := pos, reversed := false, cabActive := pos == 1, cabPresent := pos == 1, twinned := false, sActive := false, innerCab := false, part := 0x9640
    linkA := true, linkB := true, jumperA := false, jumperB := false, delayA := da, delayB := db }
def train : Record := { record1 with entries := [trainEntry 1 0 0, trainEntry 2 0x3D0000 0x3FCCCD, trainEntry 3 0x3D6666 0x408000, trainEntry 4 0x3C3333 0x3EE666] }
def trainEnv : PlanEnv := { record := train, l := 250000 * 65536, hyper := 1, squeeze := 100 }
def camera (pos port : Nat) : Contract :=
  { srcPos := pos, srcPort := port, flags := 1, destCount := 1, maxlen := 1522, fph := 2, deadline := 20000, dests := [(1, 8)] }
def status (pos : Nat) : Contract :=
  { srcPos := pos, srcPort := 5, flags := 1, destCount := 1, maxlen := 256, fph := 1, deadline := 10000, dests := [(1, 9)] }
def trainStreams : List Canon :=
  (([camera 1 0, camera 1 1, camera 1 2, camera 1 3, camera 2 0, camera 2 1, camera 2 2, camera 2 3, camera 3 0, camera 3 2, camera 3 3,
    camera 4 0, camera 4 1, camera 4 2, camera 4 3, status 2, status 3] : List Contract).mapIdx fun k c => newCanon k c 1)

/-- The cold-start plan's table (Stream contracts and planner, "Worked example"), as the spec lists it: context and SRC_INDEX. -/
def trainPlan : List (Nat × List Nat) :=
  [(4, [12, 13]), (5, [14, 15]), (6, [16, 17]), (7, [18, 19]), (8, [4, 5]), (9, [6, 7]), (10, [8, 9]), (11, [3, 4]), (12, [5, 6]), (13, [7, 8]),
   (14, [9, 10]), (15, [3]), (16, [3])]
def placed1 (k : Nat) (idx : List Nat) : Canon :=
  { trainStreams.getD k (freeCanon k) with state := .placed, nSrc := idx.length, lines := 3, srcIndex := idx }
/-- The plan without some contexts, as footprints. -/
def trainFeet (drop : List Nat) : List Foot := planFeet trainEnv ((trainPlan.filter fun e => !drop.contains e.1).map fun e => placed1 e.1 e.2)


/-- R281's order, and the search of R280 for the first frames of contexts 8, 4 and 17: every earlier index meets a footprint of the
plan, and the one found meets none. -/
def meets (drop : List Nat) (c : Contract) (g : Nat) : Bool :=
  match frameFeet trainEnv (width5 100 c.maxlen) 1 0 g (pathsOf trainEnv c.srcPos c.dests) with
  | some new => new.any fun f => (trainFeet drop).any fun x => clash 100 f x
  | none => true
theorem test_plan_order : trainStreams.all (fun c => (trainStreams.getD 16 c) == c || planBefore trainEnv (trainStreams.getD 16 c) c) = true ∧
    planBefore trainEnv (trainStreams.getD 15 (freeCanon 0)) (trainStreams.getD 11 (freeCanon 0)) = true ∧
    planBefore trainEnv (trainStreams.getD 14 (freeCanon 0)) (trainStreams.getD 8 (freeCanon 0)) = true ∧
    planBefore trainEnv (trainStreams.getD 10 (freeCanon 0)) (trainStreams.getD 4 (freeCanon 0)) = true := by decide +kernel
theorem test_plan_search :
    (meets [8, 9, 10, 4, 5, 6, 7] (camera 3 0) 3 = true ∧ meets [8, 9, 10, 4, 5, 6, 7] (camera 3 0) 4 = false) ∧
    ((∀ g ∈ [3, 4, 5, 6, 7, 8, 9, 10, 11], meets [4, 5, 6, 7] (camera 2 0) g = true) ∧ meets [4, 5, 6, 7] (camera 2 0) 12 = false) ∧
    ((∀ g ∈ [3, 4, 5, 6, 7, 8, 9], meets [] (camera 3 1) g = true) ∧ meets [] (camera 3 1) 10 = false ∧ meets [] (camera 3 1) 11 = false) := by
  decide +kernel
/-- The canonical form of context 17 (same example). -/
theorem test_canonical_form : canonBytes true { newCanon 17 (camera 3 1) 1 with state := .placed, serial := 1, nSrc := 2, lines := 3, srcIndex := [10, 11] } =
    [0x11, 1, 3, 1, 1, 1, 5, 0xF2, 0, 2, 0, 1, 0, 0, 0x4E, 0x20, 1, 8] ++ zeros 14 ++ [0, 2, 3, 1, 0xA, 0xB] ++ zeros 14 := by decide +kernel

/-- W of a 1,522-byte frame is 771 ticks of 1.6 ns (R237), here in fifths of a unit. -/
theorem test_width : width5 100 1522 = 771 * 8 * 65536 ∧ width5 100 256 * 10 = 2208 * 5 * 65536 := by decide

/-- Claim keys (Survey and numbering, "Worked example"). -/
theorem test_claim_keys : keyValue { active := true, present := true, nonce := 0x5D0E93A1, front := true } = 0x6BA1D2743 ∧
    keyValue { active := false, present := true, nonce := 0x5D0E93A1, front := true } = 0x2BA1D2743 ∧
    keyValue { active := false, present := false, nonce := 0xE41207C8, front := false } = 0x1C8240F90 := by decide

/-- Car 3's entry on the wire and in a buffer (same example). -/
theorem test_entry_bytes :
    consistEntry true (trainEntry 3 0x3D6666 0x408000) = [3, 0, 0x96, 0x40, 3, 0, 0, 0, 0, 0x3D, 0x66, 0x66, 0, 0x40, 0x80, 0] ∧
    consistEntry false (trainEntry 3 0x3D6666 0x408000) = [3, 0, 0x40, 0x96, 3, 0, 0, 0, 0x66, 0x66, 0x3D, 0, 0, 0x80, 0x40, 0] := by decide

/-- A TT frame's header on the backbone and at its destination (Parmond frames, "Worked example"), on a frame with no payload. -/
def carHead : List Byte := [0x0A, 0x5A, 0, 0, 1, 0x18, 2, 0x3E, 0x71, 0, 4, 0xC1, 0x81, 0, 0xC0, 0x64, 0x22, 0xF0]
def display : State := setCar 8 (fun c => { c with learned := some 0x023E710009D8 }) live
theorem test_tt_header :
    ttFrame 1 17 0x0C35 (overwrite carHead 6 [0x0A, 0x5A, 0, 0, 3, 0x11]) =
      [0x0B, 0x5A, 1, 0x11, 0x0C, 0x35, 0x0A, 0x5A, 0, 0, 3, 0x11, 0x88, 0xB5, 0xC0, 0x64, 0x22, 0xF0] ∧
    rebuildTt display 8 (ttFrame 1 17 0x0C35 (overwrite carHead 6 [0x0A, 0x5A, 0, 0, 3, 0x11])) =
      [2, 0x3E, 0x71, 0, 9, 0xD8, 0x0A, 0x5A, 0, 0, 3, 0x11, 0x81, 0, 0xC0, 0x64, 0x22, 0xF0] := by decide +kernel

/-- Entries of the submission ring (Commands, queues and completions, "Worked example"): STREAM_DECLARE and VIEW_SELECT. -/
def entryA : List Byte := [1, 4, 0x21, 0, 0, 0, 0x20, 0, 1] ++ zeros 7 ++ [3, 1, 1, 1, 0xF2, 5, 2, 0, 0x20, 0x4E] ++ zeros 6 ++ [1, 8] ++ zeros 30
def entryB : List Byte := [6, 4, 0x22, 0, 1, 0, 0x20, 0, 1] ++ zeros 7 ++ [0, 0, 2, 0] ++ zeros 44
theorem test_entries_parsed :
    (let c := parseCmd 0 1 0 0 entryA
     c.opcode = 0x0401 ∧ c.tag = 0x21 ∧ c.fence = false ∧ c.plen = 32 ∧ c.epoch = 1 ∧ contractOf c.inl = camera 3 1) ∧
    (let c := parseCmd 0 1 0 0 entryB
     c.opcode = 0x0406 ∧ c.tag = 0x22 ∧ c.fence = true ∧ c.plen = 32 ∧ unle (c.inl.take 32) = 2 ^ 17) := by decide +kernel

/-- NODE_INFO's result at position 1 in FIELD (same example), its entry, and NODE_ADDR of position 2 of four (Register window). -/
def infoState : State := { numberedAt 1 with test := { live.test with lc := 3 } }
theorem test_node_info : nodeInfo infoState = unle [0x40, 0x96, 1, 1, 0, 3, 0, 0] ∧
    entryBytes { tag := 0x23, status := 0, result := BitVec.ofNat 64 (nodeInfo infoState), sq := 1 } 7 true =
      [0x23, 0, 0, 0, 0x40, 0x96, 1, 1, 0, 3, 0, 0, 7, 0, 1, 1] ∧
    readReg { numberedAt 2 with survey := { (numberedAt 2).survey with record := some train } } 0x08 = 0x01040200 ∧
    readReg { live with survey := { live.survey with state := .listen } } 0x04 = 0x80000001 := by decide +kernel

/-- The event router ("Worked example"): T5 with THRESHOLD 2 claims CQ0_NOT_EMPTY at priority 4, then the pending RX_DONE of CP8 at 6. -/
def routing : State := { live with router := { live.router with
  cfg := [(16, { prio := 4, target := 5 }), (322, { prio := 6, target := 5 })], mask := 0
  targets := live.router.targets.modify 5 fun t => { t with threshold := 2 } } }
def notEmpty (s : State) : State := { s with cmdq := { s.cmdq with cqs := s.cmdq.cqs.modify 0 fun q => { q with enable := true, state := .running, tail := 1 } } }
theorem test_router_claims :
    (claimRead .pcie 5 false (notEmpty routing)).2 = 16 ∧
    (let s := (claimRead .pcie 5 false (notEmpty routing)).1
     (targetAt s 5).stack = [(16, 4)] ∧ (claimRead .pcie 5 false s).2 = 0 ∧
     (let u := assertEdge 322 s
      (claimRead .pcie 5 false u).2 = 322 ∧ (targetAt (claimRead .pcie 5 false u).1 5).stack = [(322, 6), (16, 4)] ∧
      (claimRead .pcie 5 false u).1.router.pend.getLsbD 322 = false)) := by decide +kernel

/-- φ and INTAKE of context 17 at 2.5GBASE-T1 with a camera lead of 23,200 ns: 44,000 − 800 − 4,934.4 − 4,870.4 − 1,000 − 23,200 is 9,195.2 ns by R285
(log 36: the example prints 9,194), and INTAKE is 20,000 ns. -/
def cameraPort : State := { (carred 1 fun p => { p with mode := 3, link := .up, lead := 23200 }) with
  time := { live.time with glk := live.time.glk.modify 1 fun g => { g with bound := some 17 } } }
theorem test_phase_and_intake :
    (let c := { newCanon 17 (camera 3 1) 1 with state := .placed, nSrc := 2, lines := 3, srcIndex := [10, 11] }
     phiOf cameraPort c = some 9195 ∧ intakeOf cameraPort c = 20000) := by decide +kernel

/-- M of a 50 Hz and of a 60 Hz camera (R162, "Worked example"). -/
theorem test_frame_periods : glkM 16000 1250 (250000 * 65536) = 80 ∧ glkM 14815 1125 (250000 * 65536 * 5 / 6) = 80 := by decide

/-- The check value of CRC-32, of the digits 1 to 9. -/
theorem test_crc_check : crc32 [0x31, 0x32, 0x33, 0x34, 0x35, 0x36, 0x37, 0x38, 0x39] = 0xCBF43926 ∧
    crc16 [0x31, 0x32, 0x33, 0x34, 0x35, 0x36, 0x37, 0x38, 0x39] = 0x29B1 := by decide +kernel

/-! ### Single steps -/

/-- An idle block moves its clock by one FABCLK period of 1.6 ns, and a command in front runs first. -/
theorem test_step_idle : (match step live with | .next t => t.clk.ps | _ => 0) = live.clk.ps + 1600 := by decide +kernel
theorem test_step_front : (match step { live with pending := [.lanternChange true, .surveyChamberStart] } with
    | .next t => (t.power.lantern, t.pending) == (true, [.surveyChamberStart]) | _ => false) = true := by decide +kernel
/-- The production instruction of a part in FACTORY is the one stop of the model (R590). -/
theorem test_production_stops : exec (.jtagInstruction (.production 0)) State.reset = .fault .productionInstruction := rfl
end Sys2Proof.Tests
end

section
/-! PROOFS. A command of a queue that a check stops (R9): one lemma for each way a check fails, one that turns the first failure into the
command's completion, and the statement about CYCLE_SET. -/

open Sys2Proof Sys2Proof.Machine

namespace Sys2Proof.Machine

/-! ### Checks that fail -/

/-- The first failure of a list stands before whatever follows it. -/
theorem firstFail_append_of_some {l : List Fail} {e : Nat × Nat} (h : firstFail l = some e) (m : List Fail) :
    firstFail (l ++ m) = some e := by
  induction l with
  | nil => cases h
  | cons x t ih => cases x with
    | none => exact ih h
    | some e' => exact h

theorem failIf_of_true {b : Bool} (h : b = true) (st r : Nat) : failIf b st r = some (st, r) := by rw [h]; rfl

@[simp] theorem refuseIf_true (s : State) : refuseIf true s = some (0x20, refusedResult s) := rfl
@[simp] theorem badP_true (c : Cmd) (n : Nat) : badP true c n = some (0x11, pOff c n) := rfl

theorem lenCheck_fails {c : Cmd} {n : Nat} {b : Bool} (h : c.plen ≠ n ∨ c.buffer ≠ b) :
    lenCheck c n b = some (0x12, n + flagAt b 16) :=
  failIf_of_true (by rcases h with h | h <;> simp [bne_iff_ne.mpr h]) _ _

theorem epochFail_stale {c : Cmd} {s : State} (h1 : c.epoch ≠ 0xFF) (h2 : c.epoch ≠ s.survey.epoch) :
    epochFail c s = some (0x50, s.survey.epoch) :=
  failIf_of_true (by rw [bne_iff_ne.mpr h1, bne_iff_ne.mpr h2]; rfl) _ _

/-- A stale epoch comes first in the state step, whatever else would refuse (R80). -/
theorem stateChecks_stale {c : Cmd} {s : State} (h1 : c.epoch ≠ 0xFF) (h2 : c.epoch ≠ s.survey.epoch) (b : Option Nat) (refuse : Bool) :
    firstFail (stateChecks c s b refuse) = some (0x50, s.survey.epoch) := by
  rw [stateChecks, epochFail_stale h1 h2, firstFail_some]

/-- The state step of a command that concerns no block and that its state refuses. -/
theorem stateChecks_refused {c : Cmd} {s : State} {refuse : Bool} (he : EpochOk c s) (hr : refuse = true) :
    firstFail (stateChecks c s none refuse) = some (0x20, refusedResult s) := by
  rw [stateChecks, epochFail_ok he, quarFail_none, hr, refuseIf_true, firstFail_none, firstFail_none, firstFail_some]

/-! ### The command that a check stops -/

/-- A check that stops a command completes it. -/
theorem checked_stops {l : List Fail} {st r : Nat} (h : firstFail l = some (st, r)) (c : Cmd) (f : State → State) (s : State) :
    checked c l f s = finish c st r s := by
  simp [checked, h]

/-- A command that a check stops completes with that check's status and result and does nothing else. -/
theorem stopCheck {op : Nat} {tag : BitVec 8} {c : Cmd} {s : State} {i : Instr} {l : Cmd → State → List Fail} {g : Cmd → State → State}
    {st r : Nat} (h : Ready op tag c s)
    (hi : exec i s = run (withCmd op tag fun c s => checked c (l c s) (g c) s) s)
    (hl : firstFail (l c (begin_ s)) = some (st, r)) : Does i s (finish c st r) := by
  refine does_of hi ?_
  rw [withCmd_ready (ready_begin h), checked_stops hl]

/-! ### CYCLE_SET -/

/-- Where CYCLE_SET is refused: off position 1, or outside COMMISSION and MAINTENANCE (R85). -/
def cycleSetRefused (s : State) : Bool := s.survey.position != 1 || (s.test.lc != 2 && s.test.lc != 4)

theorem cycleSetRefused_of_position {s : State} (h : s.survey.position ≠ 1) : cycleSetRefused s = true := by
  simp [cycleSetRefused, h]

theorem cycleSetRefused_of_lc {s : State} (h2 : s.test.lc ≠ 2) (h4 : s.test.lc ≠ 4) : cycleSetRefused s = true := by
  simp [cycleSetRefused, h2, h4]

theorem cycleSetRefused_false {s : State} (hp : s.survey.position = 1) (hl : s.test.lc = 2 ∨ s.test.lc = 4) :
    cycleSetRefused s = false := by
  rcases hl with hl | hl <;> simp [cycleSetRefused, hp, hl]

/-- The parameter step of CYCLE_SET: the cycle length, the hyper-period and Squeeze in their ranges (R85, R131). -/
def cycleSetParams (c : Cmd) : List Fail :=
  [badP (decide (pF c 0 8 < 0x186A00000) || decide (0xF42400000 < pF c 0 8)) c 0,
   badP (decide (pB c 8 < 1) || decide (128 < pB c 8)) c 8,
   badP (decide (pF c 10 2 < 40) || decide (400 < pF c 10 2)) c 10]

/-- A cycle length out of range is reported at byte 16, the first parameter of a command without a buffer (R70, R131). -/
theorem cycleSetParams_badLength {c : Cmd} (hb : c.buffer = false) (h : pF c 0 8 < 0x186A00000 ∨ 0xF42400000 < pF c 0 8) :
    firstFail (cycleSetParams c) = some (0x11, 16) := by
  have hd : (decide (pF c 0 8 < 0x186A00000) || decide (0xF42400000 < pF c 0 8)) = true := by
    rcases h with h | h <;> simp [h]
  have hoff : pOff c 0 = 16 := by simp [pOff, hb]
  rw [cycleSetParams, hd, badP_true, firstFail_some, hoff]

/-- The checks of CYCLE_SET in their order (R9): length, state, parameters. -/
def cycleSetChecks (c : Cmd) (s : State) : List Fail :=
  [lenCheck c 12 false] ++ stateChecks c s none (cycleSetRefused s) ++ cycleSetParams c

/-- What CYCLE_SET does past its checks (R131). -/
def cycleSetGo (c : Cmd) (s : State) : State :=
  finish c 0 0 (updTime (fun t => { t with pendingCycle := some (pF c 0 8, pB c 8, pF c 10 2) }) s)

/-- CYCLE_SET is its checks and, past them, its effect. -/
theorem exec_cycleSet (tag : BitVec 8) (s : State) :
    exec (.cycleSet tag) s = run (withCmd 0x0304 tag fun c s => checked c (cycleSetChecks c s) (cycleSetGo c) s) s := rfl

theorem cycleSet_stops {tag : BitVec 8} {c : Cmd} {s : State} {st r : Nat} (h : Ready 0x0304 tag c s)
    (hf : firstFail (cycleSetChecks c (begin_ s)) = some (st, r)) : Does (.cycleSet tag) s (finish c st r) :=
  stopCheck h (exec_cycleSet tag s) hf

theorem cycleSetChecks_badLength {c : Cmd} {s : State} (h : c.plen ≠ 12 ∨ c.buffer = true) :
    firstFail (cycleSetChecks c s) = some (0x12, 12) := by
  have hl : lenCheck c 12 false = some (0x12, 12) := lenCheck_fails (h.imp_right fun hb => by simp [hb])
  rw [cycleSetChecks, hl]; rfl

/-- Past the length step, the state step decides, then the parameter step. -/
theorem cycleSetChecks_of_length {c : Cmd} {s : State} (hl : c.plen = 12) (hb : c.buffer = false) :
    firstFail (cycleSetChecks c s) = firstFail (stateChecks c s none (cycleSetRefused s) ++ cycleSetParams c) := by
  rw [cycleSetChecks, lenCheck_ok hl hb, List.append_assoc, List.singleton_append, firstFail_none]

theorem cycleSetChecks_stale {c : Cmd} {s : State} (hl : c.plen = 12) (hb : c.buffer = false) (h1 : c.epoch ≠ 0xFF)
    (h2 : c.epoch ≠ s.survey.epoch) : firstFail (cycleSetChecks c s) = some (0x50, s.survey.epoch) := by
  rw [cycleSetChecks_of_length hl hb, firstFail_append_of_some (stateChecks_stale h1 h2 _ _)]

theorem cycleSetChecks_refused {c : Cmd} {s : State} (hl : c.plen = 12) (hb : c.buffer = false) (he : EpochOk c s)
    (hr : cycleSetRefused s = true) : firstFail (cycleSetChecks c s) = some (0x20, refusedResult s) := by
  rw [cycleSetChecks_of_length hl hb, firstFail_append_of_some (stateChecks_refused he hr)]

/-- Past the state step, the parameter step decides. -/
theorem cycleSetChecks_badParam {c : Cmd} {s : State} (hl : c.plen = 12) (hb : c.buffer = false) (he : EpochOk c s)
    (hr : cycleSetRefused s = false) (h : pF c 0 8 < 0x186A00000 ∨ 0xF42400000 < pF c 0 8) :
    firstFail (cycleSetChecks c s) = some (0x11, 16) := by
  rw [cycleSetChecks_of_length hl hb, hr, firstFail_append (stateChecks_ok he (none_free s)), cycleSetParams_badLength hb h]

/-- Settles O23: each clause names the first step of R9 that fails, and CYCLE_SET stops there. -/
theorem theFirstFailedCheckDecides : Obligations.TheFirstFailedCheckDecides := by
  intro tag c s h
  refine ⟨fun hbad => ?_, fun hl hb h1 h2 => ?_, fun hl hb he hp => ?_, fun hl hb he _ h2 h4 => ?_, fun hl hb he hp hlc hlen => ?_⟩
  · exact cycleSet_stops h (cycleSetChecks_badLength hbad)
  · exact cycleSet_stops h (cycleSetChecks_stale hl hb h1 h2)
  · exact cycleSet_stops h (cycleSetChecks_refused hl hb he (cycleSetRefused_of_position hp))
  · exact cycleSet_stops h (cycleSetChecks_refused hl hb he (cycleSetRefused_of_lc h2 h4))
  · exact cycleSet_stops h (cycleSetChecks_badParam hl hb he (cycleSetRefused_false hp hlc) hlen)

end Sys2Proof.Machine
end

section
/-! PROOFS. The guardian at a backbone ingress (R248 to R252): what the checks at the SFD of a TT frame answer, what the end of the frame
does with their answer, and the statement about them. -/

open Sys2Proof Sys2Proof.Machine

namespace Sys2Proof.Machine

/-- A command does every effect that agrees with one that it does. -/
theorem Does.congr {i : Instr} {s : State} {f g : State → State} (h : Does i s f) (hfg : f (begin_ s) = g (begin_ s)) : Does i s g := by
  rw [Does, ← after_congr hfg]; exact h

theorem up_of_bbOpen {s : State} {p : BPort} (h : bbOpen s p = true) : (bbAt s p).up = true := by
  simp only [bbOpen, Bool.and_eq_true] at h
  exact h.1.1

theorem running_of_bbTakes {s : State} {p : BPort} (h : bbTakes s p = true) : running s = true := by
  rw [bbTakes, Bool.and_eq_true] at h
  exact h.1

/-! ### The frame at a port -/

theorem arrivingAt_port {s : State} {p : BPort} {f : TtFlight} (h : arrivingAt s p = some f) : f.port = p := by
  rw [arrivingAt] at h
  have hf := List.find?_some h
  simp only [Bool.and_eq_true, beq_iff_eq] at hf
  exact hf.1

theorem rejectedAt_port {s : State} {p : BPort} {x : TtReject} (h : rejectedAt s p = some x) : x.port = p := by
  rw [rejectedAt] at h
  have hx := List.find?_some h
  exact beq_iff_eq.mp hx

@[simp] theorem arrivingAt_toLt (n : Nat) (s : State) (p : BPort) : arrivingAt (toLt n s) p = arrivingAt s p := by
  rw [arrivingAt, arrivingAt, toLt_gallery]

@[simp] theorem arrivingAt_countBb (q : BPort) (off : Nat) (s : State) (p : BPort) : arrivingAt (countBb q off s) p = arrivingAt s p := by
  rw [arrivingAt, arrivingAt, countBb_gallery]

@[simp] theorem arrivingAt_begin (s : State) (p : BPort) : arrivingAt (begin_ s) p = arrivingAt s p := rfl

/-! ### The judgement of a header -/

section
variable {s : State} {p : BPort} {k sfd : Nat} {h : List Byte}

theorem judgement_of_no_window (hw : windowAt s p k (phaseOf s sfd) = none) : judgement s p k sfd h = .drop 0x80 (some 1) := by
  rw [judgement, hw]

variable {e : Chamber} {start : Nat} {fwd : Bool}

theorem judgement_of_taken (hw : windowAt s p k (phaseOf s sfd) = some (e, start, fwd))
    (ha : (p.idx, start, cycleTag s k) ∈ s.gallery.accepted) : judgement s p k sfd h = .drop 0x80 (some 2) := by
  simp [judgement, hw, ha]

theorem judgement_of_context (hw : windowAt s p k (phaseOf s sfd) = some (e, start, fwd))
    (ha : (p.idx, start, cycleTag s k) ∉ s.gallery.accepted) (hc : fld h 3 1 ≠ e.context) :
    judgement s p k sfd h = .drop 0x80 (some 3) := by
  simp [judgement, hw, ha, hc]

theorem judgement_of_epoch (hw : windowAt s p k (phaseOf s sfd) = some (e, start, fwd))
    (ha : (p.idx, start, cycleTag s k) ∉ s.gallery.accepted) (hc : fld h 3 1 = e.context) (he : fld h 2 1 ≠ e.epoch) :
    judgement s p k sfd h = .drop 0x50 none := by
  simp [judgement, hw, ha, hc, he]

theorem judgement_of_fit (hw : windowAt s p k (phaseOf s sfd) = some (e, start, fwd))
    (ha : (p.idx, start, cycleTag s k) ∉ s.gallery.accepted) (hc : fld h 3 1 = e.context) (he : fld h 2 1 = e.epoch) :
    judgement s p k sfd h = .fits e start fwd := by
  simp [judgement, hw, ha, hc, he]

end

/-- A frame that the judgement drops is noted; at a closed ingress whatever dropped it counts as a drop there (R251). -/
theorem judge_drop {s : State} {p : BPort} {sfd off : Nat} {kind : Option Nat} {h : List Byte}
    (hj : judgement s p (cycleOf s sfd) sfd h = .drop off kind) :
    judge p sfd h s = rejectTt p (if (ingressAt s (.bb p)).closed then 0x80 else off) kind s := by
  simp only [judge, hj]

/-- A violation counts in the same counter whether the ingress is closed or not. -/
theorem judge_violation {s : State} {p : BPort} {sfd : Nat} {kind : Option Nat} {h : List Byte}
    (hj : judgement s p (cycleOf s sfd) sfd h = .drop 0x80 kind) : judge p sfd h s = rejectTt p 0x80 kind s := by
  rw [judge_drop hj, ite_self]

/-- A frame joins the flights and takes its chamber for the cycle (R248). -/
def takeFlight (p : BPort) (sfd : Nat) (h : List Byte) (e : Chamber) (start : Nat) (fwd : Bool) (s : State) : State :=
  updGallery (fun g => { g with
    accepted := (p.idx, start, cycleTag s (cycleOf s sfd)) :: g.accepted,
    flights := g.flights ++ [flightOf s p (cycleOf s sfd) sfd h e start fwd] }) s

theorem judge_fits {s : State} {p : BPort} {sfd start : Nat} {h : List Byte} {e : Chamber} {fwd : Bool}
    (hj : judgement s p (cycleOf s sfd) sfd h = .fits e start fwd) : judge p sfd h s = takeFlight p sfd h e start fwd s := by
  simp only [judge, hj, takeFlight]

/-! ### TT_INGRESS_SFD -/

/-- The header of a TT frame of an epoch (R102, R111). -/
def IsTtHeader (h : List Byte) : Prop := fld h 2 1 ≠ 0xFF ∧ nfld h 12 2 = 0x88B5 ∧ nfld h 0 2 = 0x0B5A

/-- The checks of a TT header at its SFD, in the order of R111. -/
def checkHeader (p : BPort) (sfd : Nat) (h : List Byte) (s : State) : State :=
  if nfld h 12 2 ≠ 0x88B5 ∨ nfld h 0 2 ≠ 0x0B5A ∨ fld h 2 1 = 0xFF then rejectTt p 0x30 none s
  else if !(neighAt s p).member then rejectTt p 0x80 none s
  else judge p sfd h s

section
variable {p : BPort} {sfd : Nat} {h : List Byte} {s : State}

theorem checkHeader_of_no_header (hh : ¬IsTtHeader h) : checkHeader p sfd h s = rejectTt p 0x30 none s := by
  refine if_pos ?_
  unfold IsTtHeader at hh
  omega

theorem checkHeader_of_header (hh : IsTtHeader h) :
    checkHeader p sfd h s = if !(neighAt s p).member then rejectTt p 0x80 none s else judge p sfd h s := by
  obtain ⟨hepoch, htype, hda⟩ := hh
  exact if_neg (by simp [hepoch, htype, hda])

theorem checkHeader_of_no_member (hh : IsTtHeader h) (hm : (neighAt s p).member = false) :
    checkHeader p sfd h s = rejectTt p 0x80 none s := by
  rw [checkHeader_of_header hh, hm]; rfl

theorem checkHeader_of_member (hh : IsTtHeader h) (hm : (neighAt s p).member = true) : checkHeader p sfd h s = judge p sfd h s := by
  rw [checkHeader_of_header hh, hm]; rfl

/-- A header at a port that takes frames is checked at the instant of its SFD. -/
theorem ttIngressSfd_checks (ht : bbTakes s p = true) (ho : bbOpen s p = true) :
    Does (.ttIngressSfd p sfd h) s fun s => checkHeader p sfd h (toLt sfd s) := by
  have ht' : bbTakes (begin_ s) p = true := ht
  have ho' : bbOpen (begin_ s) p = true := ho
  exact does_of rfl (if_neg (by simp [ht', ho']))

/-- A header at a member link is judged by the guardian. -/
theorem ttIngressSfd_judges (ht : bbTakes s p = true) (ho : bbOpen s p = true) (hh : IsTtHeader h) (hm : (neighAt s p).member = true) :
    Does (.ttIngressSfd p sfd h) s fun s => judge p sfd h (toLt sfd s) :=
  (ttIngressSfd_checks ht ho).congr (checkHeader_of_member hh (by rw [toLt_neighAt]; exact hm))

end

/-! ### TT_FRAME_END -/

section
variable {p : BPort} {bytes : List Byte} {s : State}

theorem ttFrameEnd_arriving {f : TtFlight} (ht : bbTakes s p = true) (ho : bbOpen s p = true) (hf : arrivingAt s p = some f) :
    Does (.ttFrameEnd p bytes) s fun s => settleTies f (endFlight f bytes (toLt (f.sfd + wire10g bytes.length) s)) := by
  have ht' : bbTakes (begin_ s) p = true := ht
  have hu' : (bbAt (begin_ s) p).up = true := up_of_bbOpen ho
  refine does_of rfl ?_
  simp only [ht', hu', arrivingAt_begin, hf]; rfl

theorem ttFrameEnd_rejected {x : TtReject} (ht : bbTakes s p = true) (ho : bbOpen s p = true) (hf : arrivingAt s p = none)
    (hx : rejectedAt s p = some x) : Does (.ttFrameEnd p bytes) s (endReject x bytes) := by
  have ht' : bbTakes (begin_ s) p = true := ht
  have hu' : (bbAt (begin_ s) p).up = true := up_of_bbOpen ho
  have hx' : rejectedAt (begin_ s) p = some x := hx
  refine does_of rfl ?_
  simp only [ht', hu', arrivingAt_begin, hf, hx']; rfl

/-- A port's noted failure taken off the list. -/
def clearReject (p : BPort) (s : State) : State := updGallery (fun g => { g with rejects := g.rejects.filter fun y => y.port != p }) s

theorem endReject_short {x : TtReject} (hl : bytes.length < 64) : endReject x bytes s = countBb x.port 0x28 (clearReject x.port s) :=
  if_pos hl

theorem endReject_good {x : TtReject} (hl : 64 ≤ bytes.length) (hg : fcsOf bytes = .good) :
    endReject x bytes s = dropTt x.port x.counter x.kind (countBb x.port 0x00 (clearReject x.port s)) := by
  simp only [endReject, Nat.not_lt.mpr hl, hg, if_true, if_false]; rfl

theorem endFlight_short {f : TtFlight} (hl : bytes.length < 64) :
    endFlight f bytes s = setFlight f none (countBb f.port 0x28 s) :=
  if_pos hl

theorem endFlight_whole {f : TtFlight} (hd : f.dropped = false) (hc : f.cut = false) (hl : 64 ≤ bytes.length)
    (hm : bytes.length ≤ f.maxlen) : endFlight f bytes s = endTt f bytes s := by
  simp [endFlight, Nat.not_lt.mpr hl, Nat.not_lt.mpr hm, hd, hc]

/-- A whole frame that a closed ingress drops counts as received and as dropped, and its flight ends (R251). -/
theorem endFlight_dropped {f : TtFlight} (ha : arrivingAt s f.port = some f) (hd : f.dropped = true) (hl : 64 ≤ bytes.length)
    (hm : bytes.length ≤ f.maxlen) (hg : fcsOf bytes = .good) :
    endFlight f bytes s = endArrival f (countBb f.port 0x80 (countBb f.port 0x00 s)) := by
  simp [endFlight, Nat.not_lt.mpr hl, Nat.not_lt.mpr hm, hd, hg, ha]

end

/-! ### TT_MAXLEN_REACHED and INGRESS_REOPEN -/

theorem ttMaxlenReached_truncates {p : BPort} {bytes : List Byte} {s : State} {f : TtFlight} (ht : bbTakes s p = true)
    (hf : arrivingAt s p = some f) (hc : f.cut = false) :
    Does (.ttMaxlenReached p bytes) s fun s => truncate f bytes (toLt (f.sfd + wire10g f.maxlen) s) := by
  have hr : running (begin_ s) = true := running_of_bbTakes ht
  refine does_of rfl ?_
  simp only [arrivingAt_begin, hf, hr, hc]; rfl

theorem reopen_of_closed {p : EPort} {s : State} (h : (ingressAt s p).closed = true) (reason : Nat) :
    reopen p reason s = logEvent 0x52 (srcPort p.code) (byte1 reason)
      (setIngress p (fun i => { i with closed := false, clean := 0, violations := [] }) s) :=
  if_pos h

theorem ingressReopen_reopens {p : EPort} {s : State} (hr : running s = true) (hc : 256 ≤ (ingressAt s p).clean) :
    Does (.ingressReopen p) s (reopen p 1) := by
  have hr' : running (begin_ s) = true := hr
  have hc' : 256 ≤ (ingressAt (begin_ s) p).clean := hc
  exact does_of rfl (if_pos (by simp [hr', hc']))

/-- Settles O51: a header fails the first check that R111 or R248 names for it, or takes its chamber; the frame's end then follows from
what was noted. -/
theorem guardianJudgesTtFrames : Obligations.GuardianJudgesTtFrames := by
  intro p sfd h bytes s ht ho
  refine ⟨fun hh => ?_, fun hh hm => ?_, fun hh hm => ?_, fun x hf hx => ?_, fun f hf hcut => ?_, fun hclean hclosed => ?_⟩
  · exact (ttIngressSfd_checks ht ho).congr (checkHeader_of_no_header hh)
  · exact (ttIngressSfd_checks ht ho).congr (checkHeader_of_no_member hh (by rw [toLt_neighAt]; exact hm))
  · have hj := ttIngressSfd_judges (sfd := sfd) ht ho hh hm
    refine ⟨fun hw => hj.congr (judge_violation (judgement_of_no_window hw)), fun e start fwd hw => ?_⟩
    have hg : (toLt sfd (begin_ s)).gallery = s.gallery := toLt_gallery sfd (begin_ s)
    rw [← hg]
    refine ⟨fun ha => ?_, fun ha hc => ?_, fun ha hc he => ?_, fun ha hc he => ?_⟩
    · exact hj.congr (judge_violation (judgement_of_taken hw ha))
    · exact hj.congr (judge_violation (judgement_of_context hw ha hc))
    · refine hj.congr ((judge_drop (judgement_of_epoch hw ha hc he)).trans ?_)
      rw [toLt_ingress]; rfl
    · refine hj.congr ((judge_fits (judgement_of_fit hw ha hc he)).trans ?_)
      rw [takeFlight, flightOf, toLt_ingress]; rfl
  · obtain rfl := rejectedAt_port hx
    have hend := ttFrameEnd_rejected (bytes := bytes) ht ho hf hx
    refine ⟨fun hl => ?_, fun hl hg hk => ?_, fun v hl hg hk => ?_⟩
    · exact hend.congr (endReject_short hl)
    · exact hend.congr ((endReject_good hl hg).trans (by rw [hk]; rfl))
    · exact hend.congr ((endReject_good hl hg).trans (by rw [hk]; rfl))
  · obtain rfl := arrivingAt_port hf
    have hend := ttFrameEnd_arriving (bytes := bytes) ht ho hf
    refine ⟨fun _ => ttMaxlenReached_truncates ht hf hcut, fun hd hl hm => ?_, fun hl => ?_, fun hd hl hm hg => ?_⟩
    · exact hend.congr (congrArg (settleTies f) (endFlight_whole hd hcut hl hm))
    · exact hend.congr (congrArg (settleTies f) (endFlight_short hl))
    · have ha (n : Nat) : arrivingAt (toLt n (begin_ s)) f.port = some f := by rw [arrivingAt_toLt]; exact hf
      exact hend.congr (congrArg (settleTies f) (endFlight_dropped (ha _) hd hl hm hg))
  · exact (ingressReopen_reopens (running_of_bbTakes ht) hclean).congr (reopen_of_closed (s := begin_ s) hclosed 1)

end Sys2Proof.Machine
end

section
/-! PROOFS. What a step does to the queue of commands (log 17, log 18): every command completes but the one stop of the model, and each
step takes the front of the queue. -/

open Sys2Proof Sys2Proof.Machine

namespace Sys2Proof.Machine

/-- Every command but JTAG_INSTRUCTION runs an effect in every state: none of them stops. -/
theorem exec_runs (i : Instr) (s : State) (h : ∀ code, i ≠ .jtagInstruction code) : ∃ f, exec i s = run f s := by
  cases i with
  | jtagInstruction instr => exact absurd rfl (h instr)
  | _ => exact ⟨_, rfl⟩

/-- JTAG_INSTRUCTION runs an effect, or stops at a production instruction in FACTORY (R590). -/
theorem execJtag_runs_or_stops (instr : JtagInstr) (s : State) :
    (∃ f, exec (.jtagInstruction instr) s = run f s) ∨
    ((∃ code, instr = .production code) ∧ s.test.lc = 1 ∧ exec (.jtagInstruction instr) s = .fault .productionInstruction) := by
  cases instr with
  | bypass => exact .inl ⟨_, rfl⟩
  | boundaryScan => exact .inl ⟨_, rfl⟩
  | production code =>
    by_cases hl : s.test.lc = 1
    · exact .inr ⟨⟨code, rfl⟩, hl, if_pos hl⟩
    · exact .inl ⟨_, if_neg hl⟩

theorem exec_runs_or_stops (i : Instr) (s : State) :
    (∃ f, exec i s = run f s) ∨
    ((∃ code, i = .jtagInstruction (.production code)) ∧ s.test.lc = 1 ∧ exec i s = .fault .productionInstruction) := by
  by_cases h : ∃ instr, i = .jtagInstruction instr
  · obtain ⟨instr, rfl⟩ := h
    rcases execJtag_runs_or_stops instr s with hr | ⟨⟨code, rfl⟩, hl, hf⟩
    · exact .inl hr
    · exact .inr ⟨⟨code, rfl⟩, hl, hf⟩
  · exact .inl (exec_runs i s fun instr hi => h ⟨instr, hi⟩)

theorem after_pending (f : State → State) (s : State) : (after f s).pending = s.pending := rfl

theorem exec_pending {i : Instr} {s t : State} (h : exec i s = .next t) : t.pending = s.pending := by
  rcases exec_runs_or_stops i s with ⟨f, hf⟩ | ⟨_, _, hf⟩
  · rw [hf, run_eq] at h; cases h; rfl
  · rw [hf] at h; cases h

/-- A step takes the front of the queue (log 17, log 18). -/
theorem step_pending {s t : State} (h : step s = .next t) : t.pending = s.pending.tail := by
  unfold step at h
  split at h
  · next hp => rw [idle, run_eq] at h; cases h; rw [after_pending, hp]; rfl
  · next c rest hp => rw [exec_pending h, hp]; rfl

theorem steps_pending {n : Nat} {s t : State} (h : steps n s = some t) : t.pending = s.pending.drop n := by
  induction n generalizing s with
  | zero => cases h; rfl
  | succ n ih =>
    cases hs : step s with
    | next u => 
      rw [steps, hs] at h
      rw [ih h, step_pending hs, List.drop_tail]
    | fault r => rw [steps, hs] at h; cases h
    | refused r => rw [steps, hs] at h; cases h

/-- Settles O2, by the one stop of the model and induction on the number of steps. -/
theorem commandsRunFirstInFirstOut : Obligations.CommandsRunFirstInFirstOut := by
  refine ⟨fun i s h => ?_, fun n s t h => steps_pending h⟩
  rcases exec_runs_or_stops i s with ⟨f, hf⟩ | ⟨⟨code, hc⟩, hl, _⟩
  · exact completes_of hf (after_pending f s)
  · exact absurd hl (h code hc)
end Sys2Proof.Machine
end

section
/-! PROOFS. What an SPI write stores (R66, R67). -/

open Sys2Proof Sys2Proof.Machine

namespace Sys2Proof.Machine

/-! ### SPI -/

/-- Settles O36: the words of the transaction are one write, without the partial word at the end. -/
theorem spiWritesStoreWholeWords : Obligations.SpiWritesStoreWholeWords := by
  intro addr data s hup hwf hal hlo hhi
  have hup' : windowUp (begin_ s) = true := hup
  have hrun : exec (.spiWrite addr data) s = run (spiPutAll data.length addr data) s := by
    show run _ s = _
    rw [run_eq, run_eq, after_congr]
    rw [hup', if_neg (by simp), if_neg (by simp [hal])]
  have hram : (after (spiPutAll data.length addr data) s).ram = memWrite s.ram addr (data.take (data.length / 4 * 4)) :=
    (after_ram _ s).trans (spiPutAll_ram data.length addr data (begin_ s) hlo hhi (Nat.le_refl _))
  have hlen : (data.take (data.length / 4 * 4)).length = data.length / 4 * 4 := by
    rw [List.length_take]; omega
  refine completes_of hrun ⟨?_, fun x => ?_⟩
  · rw [hram]; exact memWrite_wf hwf addr _
  · rw [hram, memByte_memWrite hwf, hlen]
    split
    · next hx => simp only [List.getD, List.getElem?_take_of_lt (show x - addr < data.length / 4 * 4 by omega)]
    · rfl
end Sys2Proof.Machine
end

section
/-! PROOFS. The completion of a command: the entry that R77 lays out, where it is written (R78, R79, R89), and what completing leaves alone. -/

open Sys2Proof Sys2Proof.Machine

namespace Sys2Proof.Machine

/-! ### The entry of a completion -/

theorem fld_entryBytes_status (x : Completion) (head : Nat) (phase : Bool) : fld (entryBytes x head phase) 2 2 = x.status % 2 ^ 16 := by
  simp [entryBytes, fld, slice, le, unle]; omega

theorem fld_entryBytes_result (x : Completion) (head : Nat) (phase : Bool) : fld (entryBytes x head phase) 4 8 = x.result.toNat := by
  have : fld (le 8 x.result.toNat) 0 8 = x.result.toNat := fld_le 8 _ x.result.isLt
  rw [← this]; rfl

theorem fld_entryBytes_head (x : Completion) (head : Nat) (phase : Bool) : fld (entryBytes x head phase) 12 2 = head % 2048 := by
  have : fld (le 2 (head % 2048)) 0 2 = head % 2048 := fld_le 2 _ (by omega)
  rw [← this]; rfl

theorem fld_entryBytes_sq (x : Completion) (head : Nat) (phase : Bool) : fld (entryBytes x head phase) 14 1 = x.sq % 8 := by
  have : fld (le 1 (x.sq % 8)) 0 1 = x.sq % 8 := fld_le 1 _ (by omega)
  rw [← this]; rfl

theorem fld_entryBytes_phase (x : Completion) (head : Nat) (phase : Bool) :
    fld (entryBytes x head phase) 15 1 = if phase then 1 else 0 := by
  cases phase <;> rfl

theorem entryBytes_tag (x : Completion) (head : Nat) (phase : Bool) :
    (entryBytes x head phase).getD 0 0 = x.tag ∧ (entryBytes x head phase).getD 1 0 = 0 := by
  have h0 : (entryBytes x head phase).getD 0 0 = BitVec.ofNat 8 x.tag.toNat := rfl
  have h1 : (entryBytes x head phase).getD 1 0 = BitVec.ofNat 8 (x.tag.toNat / 256) := rfl
  have : x.tag.toNat / 256 = 0 := Nat.div_eq_of_lt x.tag.isLt
  rw [h0, h1, this]
  exact ⟨by simp , rfl⟩

/-! ### What completing does -/

/-- The entry of a command that completes (R77). -/
def entryOf (c : Cmd) (status result : Nat) : Completion :=
  { tag := c.tag, status := status, result := BitVec.ofNat 64 result, sq := c.sq }

/-- A completion is written, kept or discarded (R78, R79, R89). -/
theorem finish_cases (c : Cmd) (status result : Nat) (s : State) :
    finish c status result s = discard c.tag s ∨ finish c status result s = writeEntry c.cq (entryOf c status result) s ∨
      finish c status result s = keepEntry c.cq (entryOf c status result) s := by
  unfold finish post
  by_cases hl : lostCmd s c.tag = true
  · exact .inl (if_pos hl)
  · rw [if_neg hl]
    by_cases hd : (cqAt s c.cq).state = .disabled
    · exact .inl (if_pos hd)
    · by_cases hw : (cqAt s c.cq).state = .running ∧ cqFull (cqAt s c.cq) = false
      · exact .inr (.inl ((if_neg hd).trans (if_pos hw)))
      · exact .inr (.inr ((if_neg hd).trans (if_neg hw)))

/-- On a queue with a free entry it is written. -/
theorem finish_room {c : Cmd} {s : State} (h : Room c s) (status result : Nat) :
    finish c status result s = writeEntry c.cq (entryOf c status result) s := by
  obtain ⟨hrun, hfree, hkept⟩ := h
  simp [finish, post, hrun, hfree, hkept, entryOf]

theorem cqAt_congr {s t : State} (h : t.cmdq = s.cmdq) (m : Nat) : cqAt t m = cqAt s m := by rw [cqAt, h, cqAt]

theorem writeEntry_cq {m : Nat} {x : Completion} {s : State} (h : m < s.cmdq.cqs.length) :
    cqAt (writeEntry m x s) m = cqAdvance (cqAt s m) := by
  have hq : (storeEntry m (cqBase m (cqAt s m) + 16 * (cqAt s m).tail) (entryBytes x (sqAt s x.sq).head (cqAt s m).phase) s).cmdq = s.cmdq :=
    storeEntry_cmdq ..
  exact (cqAt_setCq (f := cqAdvance) (by rw [hq]; exact h)).trans (congrArg cqAdvance (cqAt_congr hq m))

theorem writeEntry_inflight (m : Nat) (x : Completion) (s : State) :
    (writeEntry m x s).cmdq.inflight = s.cmdq.inflight.filter fun c => c.tag != x.tag := by
  simp [writeEntry]

theorem writeEntry_out {m : Nat} (x : Completion) (s : State) (h : m < 3) :
    (writeEntry m x s).out = s.out ++ [.hostWrite ((cqAt s m).base.toNat + 16 * (cqAt s m).tail)
      (entryBytes x (sqAt s x.sq).head (cqAt s m).phase)] := by
  simp [writeEntry, storeEntry, h, cqBase]

theorem cqAdvance_tail (q : Cq) : (cqAdvance q).tail = (q.tail + 1) % 2 ^ q.log2 := rfl
theorem cqAdvance_phase (q : Cq) : (cqAdvance q).phase = if (q.tail + 1) % 2 ^ q.log2 = 0 then !q.phase else q.phase := rfl

theorem writeEntry_ram (m : Nat) (x : Completion) (s : State) :
    (writeEntry m x s).ram = if m < 3 then s.ram
      else memWrite s.ram (0x01020000 + 16 * (cqAt s m).tail) (entryBytes x (sqAt s x.sq).head (cqAt s m).phase) := by
  by_cases h : m < 3 <;> simp [writeEntry, storeEntry, h, cqBase]

/-- Completing changes the queues, what is sent and the memory at most. -/
theorem finish_frame (c : Cmd) (status result : Nat) (s : State) :
    { finish c status result s with cmdq := s.cmdq, ram := s.ram, out := s.out } = s := by
  rcases finish_cases c status result s with h | h | h
  · rw [h]; rfl
  · rw [h, writeEntry, storeEntry]
    split <;> rfl
  · rw [h]; rfl

/-- What completing makes of memory: nothing, or the 16 bytes of an entry in the ring of CQ3. -/
theorem finish_ram (c : Cmd) (status result : Nat) (s : State) :
    (finish c status result s).ram = s.ram ∨
    3 ≤ c.cq ∧ ∃ bytes : List Byte, bytes.length = 16 ∧
      (finish c status result s).ram = memWrite s.ram (0x01020000 + 16 * (cqAt s c.cq).tail) bytes := by
  rcases finish_cases c status result s with h | h | h
  · rw [h]; exact .inl rfl
  · rw [h, writeEntry_ram]
    by_cases hm : c.cq < 3
    · exact .inl (if_pos hm)
    · exact .inr ⟨by omega, _, entryBytes_length _ _ _, if_neg hm⟩
  · rw [h]; exact .inl rfl

/-- Settles O22: NOP's completion is written as R77 lays it out; whatever completes, memory changes in one entry at most. -/
theorem aCompletionIsWrittenAndCounted : Obligations.ACompletionIsWrittenAndCounted := by
  refine ⟨fun tag c s h hcq hroom hlen => ?_, fun c status result s hwf => ?_⟩
  · have htag : c.tag = tag := ready_tag h.1
    have hdoes : Does (.nop tag) s (finish c 0 0) := query (r := fun _ => 0) h (none_free s) rfl
    have hfin : finish c 0 0 (begin_ s) = writeEntry c.cq (entryOf c 0 0) (begin_ s) := finish_room (s := begin_ s) hroom 0 0
    have hcq' : cqAt (after (finish c 0 0) s) c.cq = cqAdvance (cqAt s c.cq) := by
      rw [cqAt, after_cmdq, hfin]; exact writeEntry_cq (s := begin_ s) hlen
    have hin : (after (finish c 0 0) s).cmdq.inflight = s.cmdq.inflight.filter fun x => x.tag != c.tag := by
      rw [after_cmdq, hfin, writeEntry_inflight]; rfl
    refine ⟨_, hdoes, ⟨entryBytes (entryOf c 0 0) (sqAt s c.sq).head (cqAt s c.cq).phase, ?_, entryBytes_length _ _ _,
      (entryBytes_tag _ _ _).1.trans htag, (entryBytes_tag _ _ _).2, fld_entryBytes_status _ _ _, fld_entryBytes_result _ _ _,
      fld_entryBytes_head _ _ _, fld_entryBytes_sq _ _ _, fld_entryBytes_phase _ _ _⟩, ?_, ?_, fun x hx => ?_, fun x hx hne => ?_⟩
    · refine List.mem_append_left _ ?_
      rw [hfin, writeEntry_out _ _ hcq]
      exact List.mem_append_right _ (List.mem_singleton.mpr rfl)
    · rw [hcq', cqAdvance_tail]
    · rw [hcq', cqAdvance_phase]
    · rw [hin, List.mem_filter, htag] at hx
      exact bne_iff_ne.mp hx.2
    · rw [hin, List.mem_filter, htag]
      exact ⟨hx, bne_iff_ne.mpr hne⟩
  · refine ⟨finish_frame c status result s, ?_, fun hcq => ?_, fun a ha => ?_⟩ <;>
      rcases finish_ram c status result s with hr | ⟨hge, bytes, hb, hr⟩
    · rw [hr]; exact hwf
    · rw [hr]; exact memWrite_wf hwf _ _
    · exact hr
    · omega
    · rw [hr]
    · rw [hr, memByte_memWrite hwf, hb, if_neg (by omega)]
end Sys2Proof.Machine
end

section
/-! PROOFS. A PCIe reset (R89, R449, R558, R588): what it does at all, and what it does where no command of its host is in flight. -/

open Sys2Proof Sys2Proof.Machine

namespace Sys2Proof.Machine

/-! ### PCIe resets -/

theorem cqAt_dropCqs {s : State} {m : Nat} (h : m < 3) (hm : m < s.cmdq.cqs.length) :
    cqAt (dropCqs s) m = { base := (cqAt s m).base, log2 := (cqAt s m).log2 } := by
  simp [cqAt, dropCqs, List.getD, h, hm]

/-- A PCIe reset leaves no command of SQ0 to SQ5 in flight where there was none. -/
theorem dropCqs_inflight {s : State} (h : ∀ c ∈ s.cmdq.inflight, 6 ≤ c.sq) : ∀ c ∈ (dropCqs s).cmdq.inflight, 6 ≤ c.sq := by
  intro c hc
  simp only [dropCqs, List.mem_map, List.mem_filter] at hc
  obtain ⟨x, ⟨hx, _⟩, rfl⟩ := hc
  have := h x hx
  split
  · exact this
  · exact this

/-- Resetting queues without a command in flight moves their registers only. -/
theorem resetSqs_idle (l : List Nat) (s : State) (h : ∀ q ∈ l, ∀ c ∈ s.cmdq.inflight, c.sq ≠ q) :
    l.foldl (fun s q => resetSq q 4 s) s =
      l.foldl (fun s q => setSq q (fun x => { x with state := .resetting, enable := false, resetCause := 4 }) s) s := by
  induction l generalizing s with
  | nil => rfl
  | cons q l ih =>
    rw [List.foldl_cons, List.foldl_cons, resetSq_idle q 4 s (h q (by simp))]
    exact ih _ fun q' hq' c hc => h q' (by simp [hq']) c hc

/-- What a PCIe reset does to a running node (R89, R449, R558). -/
def pcieResetEffect (kind : PcieReset) (s : State) : State :=
  let s := { s with regs := { s.regs with perstLow := s.regs.perstLow || kind == .perst } }
  let s := [0, 1, 2, 3, 4, 5].foldl (fun s q => resetSq q 4 s) (resetTargets (dropCqs s))
  { s with regs := { s.regs with scratchPcie := 0, pcieUp := s.regs.pcieUp && kind != .perst } }

theorem pcieReset_does {kind : PcieReset} {s : State} (hr : s.clk.running = true) : Does (.pcieReset kind) s (pcieResetEffect kind) :=
  does_of rfl (if_neg (by simpa using hr))

theorem pcieReset_does_level {kind : PcieReset} {s : State} (hr : s.clk.running = false) :
    Does (.pcieReset kind) s fun s => { s with regs := { s.regs with perstLow := s.regs.perstLow || kind == .perst } } :=
  does_of rfl (if_pos (by simpa using hr))

theorem pcieResetEffect_scratch (kind : PcieReset) (s : State) :
    (pcieResetEffect kind s).regs.scratchPcie = 0 ∧ (pcieResetEffect kind s).regs.scratchSpi = s.regs.scratchSpi := by
  refine ⟨rfl, ?_⟩
  simp only [pcieResetEffect]
  rw [foldl_regs _ (fun s q => resetSq_regs q 4 s)]; rfl

/-- Without a command of SQ0 to SQ5 in flight a PCIe reset is the drop of CQ0 to CQ2 and of the targets' sources. -/
theorem pcieResetEffect_idle (kind : PcieReset) {s : State} (h : ∀ c ∈ s.cmdq.inflight, 6 ≤ c.sq) :
    (pcieResetEffect kind s).cmdq.cqs = (dropCqs s).cmdq.cqs ∧ (pcieResetEffect kind s).router = (resetTargets s).router := by
  have hidle : ∀ c ∈ (dropCqs s).cmdq.inflight, ∀ q ∈ [0, 1, 2, 3, 4, 5], c.sq ≠ q := by
    intro c hc q hq
    have := dropCqs_inflight h c hc
    simp only [List.mem_cons, List.not_mem_nil, or_false] at hq
    omega
  simp only [pcieResetEffect]
  rw [resetSqs_idle]
  · exact ⟨rfl, rfl⟩
  · exact fun q hq c hc => hidle c hc q hq

/-- T4 to T13 are empty after the reset; the router's arbitration moves no stack and no threshold. -/
theorem resetTargets_empty {u s : State} (hu : u.router = (resetTargets s).router) {i : Nat} {x : Target} (h4 : 4 ≤ i) (h14 : i < 14)
    (hx : (settle u).router.targets[i]? = some x) : x.stack = [] ∧ x.threshold = 0 := by
  have ht : (settle u).router.targets = requestsNow u := rfl
  rw [ht, requestsNow, hu, List.getElem?_mapIdx] at hx
  simp only [resetTargets, updRouter_router, List.getElem?_mapIdx, Option.map_map, Option.map_eq_some_iff, Function.comp] at hx
  obtain ⟨y, _, rfl⟩ := hx
  simp [h4, h14]

theorem after_cfg (f : State → State) (s : State) : (after f s).router.cfg = (f (begin_ s)).router.cfg := rfl

theorem resetTargets_cfg {s : State} {e : Nat × SrcCfg} (h : e ∈ (resetTargets s).router.cfg) : e.2.target < 4 ∨ 14 ≤ e.2.target := by
  simp only [resetTargets, updRouter_router, List.mem_filter, Bool.not_eq_true', Bool.and_eq_false_iff, decide_eq_false_iff_not] at h
  omega

/-- Settles O27: the reset is one effect, which without commands of the PCIe host leaves its queues and targets empty. -/
theorem pcieResetClearsTheHostsPart : Obligations.PcieResetClearsTheHostsPart := by
  intro kind s
  refine ⟨fun hr => pcieReset_does hr, fun hr hc => ⟨_, pcieReset_does hr, ?_⟩, fun hr => pcieReset_does_level hr, rfl⟩
  obtain ⟨hcqs, hrouter⟩ := pcieResetEffect_idle kind (s := begin_ s) hc
  obtain ⟨hpcie, hspi⟩ := pcieResetEffect_scratch kind (begin_ s)
  refine ⟨hpcie, hspi, fun m hm hlen => ?_, fun i x h4 h14 hx => resetTargets_empty hrouter h4 h14 hx, fun e he => ?_⟩
  · have hq : cqAt (after (pcieResetEffect kind) s) m = { base := (cqAt s m).base, log2 := (cqAt s m).log2 } := by
      rw [cqAt, after_cmdq, hcqs]; exact cqAt_dropCqs (s := begin_ s) hm hlen
    rw [hq]; exact ⟨rfl, rfl⟩
  · rw [after_cfg, hrouter] at he; exact resetTargets_cfg he
end Sys2Proof.Machine
end

section
/-! PROOFS. The reports without an object and the challenges of group 0x09 and 0x0A (R83, R85). -/

open Sys2Proof Sys2Proof.Machine

namespace Sys2Proof.Machine

/-! ### Reports without an object -/

theorem nodeInfo_eq (s : State) : nodeInfo s = s.part.code + s.survey.position % 256 * 2 ^ 16 + s.survey.epoch % 256 * 2 ^ 24
    + (if s.twin.role = .standby then 1 else 0) * 2 ^ 32 + s.test.lc % 256 * 2 ^ 40 := by
  simp only [nodeInfo, b2n, isStandby, beq_iff_eq]

theorem servoResult_eq (s : State) : servoResult s = (thetaNs s % 2 ^ 32).toNat + uncertNs s * 2 ^ 32
    + (if s.time.locked ∨ s.survey.position = 1 then 2 ^ 48 else 0) + (if s.time.silenced then 2 ^ 49 else 0) := by
  simp only [servoResult, twos, flagAt, isReference, Bool.or_eq_true, beq_iff_eq]

theorem planResult_eq (s : State) : planResult s = s.planner.digest.toNat + s.survey.epoch % 256 * 2 ^ 32
    + s.planner.agree % 256 * 2 ^ 40 + (if s.planner.silenced ∨ s.planner.silencedTwin then 2 ^ 48 else 0) := by
  simp only [planResult, flagAt, planSilenced, Bool.or_eq_true]

theorem configStatus_eq (s : State) : configStatus s =
    (if slotValid s 0 then 1 else 0) + (if slotValid s 1 then 2 else 0) + (if slotValid s 2 then 4 else 0)
      + s.store.slot.getD 0xF * 2 ^ 4 + (if s.store.splitSeen then 2 ^ 8 else 0) + s.store.cause % 16 * 2 ^ 12
      + s.store.generation * 2 ^ 32 := by
  have hslots : packBits ([0, 1, 2].map (slotValid s)) =
      (if slotValid s 0 then 1 else 0) + (if slotValid s 1 then 2 else 0) + (if slotValid s 2 then 4 else 0) := by
    simp only [List.map_cons, List.map_nil, packBits, b2n]
    split <;> split <;> split <;> rfl
  rw [configStatus, hslots, flagAt]
  cases s.store.slot <;> rfl

/-- A report of a command that names no block, under the name that the statement gives its value. -/
theorem query_as {op : Nat} {tag : BitVec 8} {c : Cmd} {s : State} {i : Instr} {b : Option Nat} {r : State → Nat} {v : Nat}
    (h : Plain op 0 tag c s) (hb : ∀ n, b = some n → BlockFree s n) (hv : r (begin_ s) = v)
    (hi : exec i s = run (withCmd op tag fun c s => checked c ([lenCheck c 0 false] ++ stateChecks c s b false) (finish c 0 (r s)) s) s) :
    Does i s (finish c 0 v) := hv ▸ query h hb hi

/-- Settles O4: each report is its row's, and no check stops it. -/
theorem queriesReport : Obligations.QueriesReport := by
  intro tag c s
  refine ⟨fun h => ?_, fun h => ?_, fun h => ?_, fun h => ?_, fun h => ?_, fun h => ?_, fun h => ?_, fun h => ?_, fun h => ?_, fun h hb => ?_⟩
  · exact query_as (r := fun _ => 0) h (none_free s) rfl rfl
  · exact query_as h (none_free s) (nodeInfo_eq s) rfl
  · exact query_as (r := fun s => Config.firmwareVersion.toNat + s.store.generation % 2 ^ 32 * 2 ^ 32) h (none_free s) rfl rfl
  · exact query_as (r := fun s => s.survey.aliasLeft) h (none_free s) rfl rfl
  · exact query_as (r := ltNs) h (none_free s) rfl rfl
  · exact query_as (r := calNs) h (none_free s) rfl rfl
  · exact query_as h (none_free s) (servoResult_eq s) rfl
  · exact query_as h (none_free s) (planResult_eq s) rfl
  · exact query_as (r := fun s => s.power.wakeLatch.toNat) h (none_free s) rfl rfl
  · exact query_as (b := some 32) h (fun n hn => by cases hn; exact hb) (configStatus_eq s) rfl

/-! ### Challenges -/

/-- A command whose checks are its length and its epoch does its effect. -/
theorem lenEpoch_ok {op n : Nat} {tag : BitVec 8} {c : Cmd} {s : State} (h : Plain op n tag c s) :
    firstFail [lenCheck c n false, epochFail c (begin_ s)] = none := by
  obtain ⟨_, hl, hb, he⟩ := h
  have he' : EpochOk c (begin_ s) := he
  rw [lenCheck_ok hl hb, epochFail_ok he']; rfl

/-- Settles O7: past their length and epoch, the challenges draw a nonce and keep it. -/
theorem challengesIssueANonce : Obligations.ChallengesIssueANonce := by
  intro tag c s
  refine ⟨fun h => ?_, fun h => ?_⟩
  · exact doCmd h.1 rfl (lenEpoch_ok h) rfl
  · exact doCmd h.1 rfl (lenEpoch_ok h) rfl
end Sys2Proof.Machine
end

section
/-! PROOFS. The reports on an object and the reading commands (R85, R90). -/

open Sys2Proof Sys2Proof.Machine

namespace Sys2Proof.Machine

/-! ### Reports on an object -/

theorem ethOf_car (n : Fin 12) : ethOf n.val = .car n := dif_pos n.isLt

theorem ethOf_bb (p : BPort) : ethOf p.code = .bb p := by cases p <;> rfl

theorem notEth_car (n : Fin 12) : notEth n.val = false := by
  have := n.isLt
  simp [notEth]; omega

theorem notEth_bb (p : BPort) : notEth p.code = false := by cases p <;> rfl

theorem sat16_eq (n : Nat) : sat 16 n = min n 65535 := rfl

theorem portStatus_car (s : State) (n : Fin 12) : portStatus s n.val =
    linkCode (carAt s n).link + (carAt s n).mode * 2 ^ 8 + min (recentViolations s (.car n)).length 65535 * 2 ^ 16 := by
  simp only [portStatus, ethOf_car, sat16_eq]

theorem portStatus_bb (s : State) (p : BPort) : portStatus s p.code =
    (if (bbAt s p).up then 2 else 1) + 1 * 2 ^ 8 + min (recentViolations s (.bb p)).length 65535 * 2 ^ 16 := by
  simp only [portStatus, ethOf_bb, sat16_eq]

theorem vsuStatus_eq (s : State) (k : Nat) : vsuStatus s k =
    if (vsuAt s k).configured ∧ vsuRole s k then
      (vsuAt s k).age % 2 ^ 32 + (vsuAt s k).holds.toNat * 2 ^ 32 + (vsuAt s k).disorder.toNat * 2 ^ 48 else 0 := by
  simp only [vsuStatus, Bool.and_eq_true]

/-- The presence and state of a command that names an Ethernet port by the code of a car port (R86). -/
theorem ethState_car {c : Cmd} {s : State} {n : Nat} (he : EpochOk c s) (h : CodeOk c n 0 0x0C s) :
    firstFail (objectState c s n 0 0x14 false) = none := by
  obtain ⟨hlo, hhi, habs, hoff, hfree⟩ := h
  exact objectState_ok he ⟨hlo, by omega, habs, hoff, hfree⟩

theorem blockOf_bb (p : BPort) : blockOf p.code = some (8 + p.idx) := by cases p <;> rfl

/-- A backbone port's code names a port that every part has, in a domain that is always on. -/
theorem codeOk_bb {c : Cmd} {s : State} {n : Nat} {p : BPort} (hc : pB c n = p.code) (hb : BlockFree s (8 + p.idx)) :
    CodeOk c n 0 0x14 s := by
  refine ⟨Nat.zero_le _, ?_, ?_, ?_, fun b hbl => ?_⟩
  · rw [hc]; cases p <;> decide
  · rw [hc]; cases p <;> simp [codeAbsent, BPort.code, BPort.idx]
  · rw [hc]; cases p <;> simp [codeOff, BPort.code, BPort.idx]
  · rw [hc, blockOf_bb] at hbl; cases hbl; exact hb

theorem blockOf_md {code : Nat} (h1 : 0x20 ≤ code) (h2 : code < 0x22) : blockOf code = some (24 + (code - 0x20)) := by
  rw [blockOf, if_neg (by omega), if_neg (by omega), if_pos ⟨h1, h2⟩]

/-- A command past its length, its object and its own checks. -/
theorem objectPlain {op len : Nat} {tag : BitVec 8} {c : Cmd} {s : State} {l m : List Fail} (h : Plain op len tag c s)
    (hl : firstFail l = none) (hm : firstFail m = none) : firstFail ([lenCheck c len false] ++ l ++ m) = none := by
  obtain ⟨_, hlen, hb, _⟩ := h
  rw [firstFail_append, hm]
  rw [lenCheck_ok hlen hb, List.singleton_append, firstFail_none, hl]

/-- A command past its checks does its effect, where the effect depends on the state that the checks saw. -/
theorem doCmdAt {op : Nat} {tag : BitVec 8} {c : Cmd} {s : State} {i : Instr} {l : Cmd → State → List Fail}
    {g : Cmd → State → State → State} {e : State → State} (h : Ready op tag c s)
    (hi : exec i s = run (withCmd op tag fun c s => checked c (l c s) (g c s) s) s)
    (hl : firstFail (l c (begin_ s)) = none) (he : g c (begin_ s) (begin_ s) = e (begin_ s)) : Does i s e := by
  refine does_of hi ?_
  rw [withCmd_ready (ready_begin h), checked_ok hl, he]

/-- A command past its checks reports, under the name that the statement gives its result. -/
theorem reportOn {op : Nat} {tag : BitVec 8} {c : Cmd} {s : State} {i : Instr} {l : Cmd → State → List Fail} {r : Cmd → State → Nat} {v : Nat}
    (h : Ready op tag c s) (hi : exec i s = run (withCmd op tag fun c s => checked c (l c s) (finish c 0 (r c s)) s) s)
    (hl : firstFail (l c (begin_ s)) = none) (hv : r c (begin_ s) = v) : Does i s (finish c 0 v) :=
  doCmdAt (g := fun c s => finish c 0 (r c s)) h hi hl (by rw [hv])

/-- The checks of a command of a unit that the part has, in a domain that is on. -/
theorem presentPlain {op len : Nat} {tag : BitVec 8} {c : Cmd} {s : State} {b : Option Nat} {gone off : Bool} (h : Plain op len tag c s)
    (hg : gone = false) (ho : off = false) (hb : ∀ n, b = some n → BlockFree s n) :
    firstFail ([lenCheck c len false, absent gone] ++ stateChecks c (begin_ s) b off) = none := by
  obtain ⟨_, hl, hbf, he⟩ := h
  rw [hg, ho, lenCheck_ok hl hbf, absent_false]
  exact stateChecks_ok (s := begin_ s) he hb

/-- Settles O5: each query passes its checks, and its result is the report of its object. -/
theorem objectQueriesReport : Obligations.ObjectQueriesReport := by
  intro tag c s
  refine ⟨fun h ht hp => ?_, fun h h1 h2 hb => ?_, fun n h hn hc => ?_, fun p h hp hb => ?_, fun h hc => ?_, fun h hv hp hb => ?_⟩
  · exact reportOn h.1 rfl (presentPlain h (by simp [ht]) (congrArg not hp) (none_free s)) rfl
  · have hin : (decide (0x20 ≤ pB c 0) && decide (pB c 0 < 0x22)) = true := by simp [h1, h2]
    refine reportOn h.1 rfl (plainBegin h rfl (fun n hn => ?_) ?_) rfl
    · rw [hin, if_pos rfl, blockOf_md h1 h2] at hn; cases hn; exact hb
    · rw [hin]; rfl
  · refine reportOn h.1 rfl (objectPlain h (ethState_car h.2.2.2 hc) ?_) ?_
    · rw [hn, notEth_car]; rfl
    · rw [hn]; exact portStatus_car (begin_ s) n
  · refine reportOn h.1 rfl (objectPlain h (objectState_ok h.2.2.2 (codeOk_bb hp hb)) ?_) ?_
    · rw [hp, notEth_bb]; rfl
    · rw [hp]; exact portStatus_bb (begin_ s) p
  · have hk := objectPlain (m := []) h (objectChecks_ok (s := begin_ s) h.2.2.2 hc) rfl
    rw [List.append_nil] at hk
    exact reportOn h.1 rfl hk rfl
  · exact reportOn h.1 rfl (presentPlain h (by simp [hv]) (congrArg not hp)
      (fun n hn => by cases hn; exact hb)) (vsuStatus_eq s _)

/-! ### Reading commands -/

theorem portCounters_car (s : State) (n : Fin 12) : portCounters s n.val = (carAt s n).counters := by
  simp only [portCounters, ethOf_car]

theorem portCounters_bb (s : State) (p : BPort) : portCounters s p.code = (bbAt s p).counters := by
  simp only [portCounters, ethOf_bb]

theorem outBuffer_takes {c : Cmd} {wr : Bool} (h : Takes c wr) (bytes : List Byte) (s : State) :
    outBuffer c wr bytes s = some (delivered c bytes s) := by
  by_cases hq : c.sq < 6
  · have hw : wr = true := h.resolve_right (by omega)
    simp [outBuffer, cmdHost, sqHost, hq, hw, delivered]
  · simp [outBuffer, cmdHost, sqHost, hq, delivered]

/-- A reading command past its checks: its output is at its buffer, and it completes with its result. -/
theorem deliverOn {op : Nat} {tag : BitVec 8} {wr : Bool} {c : Cmd} {s : State} {i : Instr} {l : Cmd → State → List Fail}
    {b : Cmd → State → List Byte} {r : Cmd → State → Nat} {e : State → State} (h : Ready op tag c s) (ht : Takes c wr)
    (hi : exec i s = run (withCmd op tag fun c s => checked c (l c s) (finishOut c wr (b c s) (r c s)) s) s)
    (hl : firstFail (l c (begin_ s)) = none)
    (he : finish c 0 (r c (begin_ s)) (delivered c (b c (begin_ s)) (begin_ s)) = e (begin_ s)) : Does i s e :=
  doCmdAt (g := fun c s => finishOut c wr (b c s) (r c s)) h hi hl ((finishOut_takes ht _ _ _).trans he)

section
variable {op n least : Nat} {tag : BitVec 8} {c : Cmd} {s : State}

/-- Past its length, its state step `l` and its buffer descriptor, a command comes to its own checks `m`. -/
theorem bufferedThen (h : Buffered op n least tag c s) {l m : List Fail} (hl : firstFail l = none) (hm : firstFail m = none) :
    firstFail ([lenCheck c n true] ++ l ++ descChecks c least ++ m) = none := by
  obtain ⟨_, hlen, hb, _, hd⟩ := h
  rw [firstFail_append, hm]
  rw [firstFail_append, descChecks_ok hd]
  rw [lenCheck_ok hlen hb, List.singleton_append, firstFail_none, hl]

theorem bufferedOk (h : Buffered op n least tag c s) {l : List Fail} (hl : firstFail l = none) :
    firstFail ([lenCheck c n true] ++ l ++ descChecks c least) = none := by
  have := bufferedThen (m := []) h hl rfl
  rwa [List.append_nil] at this

theorem buffered_epoch (h : Buffered op n least tag c s) : EpochOk c (begin_ s) := h.2.2.2.1

/-- The state step of a command that a quarantine does not refuse: its epoch, and the tests that run (R489, R492). -/
theorem epochBusy_ok {b : Nat} (he : EpochOk c s) (hb : ∀ t ∈ s.test.tests, t.block = b → t.running = false) :
    firstFail [epochFail c s, busyFail s (some b)] = none := by
  rw [epochFail_ok he, busyFail_ok hb]; rfl

end

/-- Settles O6: each reading command passes its checks; what it reads is its object's. -/
theorem readingCommandsDeliver : Obligations.ReadingCommandsDeliver := by
  intro tag wr c s ht
  refine ⟨fun h => ?_, fun h => ?_, fun h => ?_, fun n h hn hc => ?_, fun p h hp hb => ?_, fun h hc => ?_, fun h hb hfree => ?_,
    fun h hlen hfree => ?_, fun h hi hv hfree => ?_⟩ <;> have he := buffered_epoch h
  · refine deliverOn h.1 ht rfl ?_ rfl
    exact bufferedOk h (stateChecks_ok he (none_free _))
  · refine deliverOn h.1 ht rfl ?_ rfl
    exact bufferedOk h (stateChecks_ok he (none_free _))
  · refine deliverOn h.1 ht rfl ?_ rfl
    exact bufferedOk h (stateChecks_ok he (none_free _))
  · refine deliverOn h.1 ht rfl ?_ ?_
    · refine bufferedThen h (ethState_car he hc) ?_
      rw [hn, notEth_car]; rfl
    · rw [hn, portCounters_car]
  · refine deliverOn h.1 ht rfl ?_ ?_
    · refine bufferedThen h (objectState_ok he (codeOk_bb hp hb)) ?_
      rw [hp, notEth_bb]; rfl
    · rw [hp, portCounters_bb]
  · refine deliverOn h.1 ht rfl ?_ rfl
    refine bufferedThen h (objectState_ok he hc) ?_
    simp [inRange, hc.1, hc.2.1]
  · refine deliverOn h.1 ht rfl ?_ rfl
    refine bufferedThen h (epochBusy_ok he hfree) ?_
    rw [le_not_lt hb]; rfl
  · refine doCmd h.1 rfl ?_ ?_
    · refine bufferedThen h (epochBusy_ok he hfree) ?_
      rw [hlen]; rfl
    · simp only [outBuffer_takes ht]
  · refine doCmd h.1 rfl ?_ ?_
    · refine bufferedThen h (stateChecks_ok he fun n hn => by cases hn; exact hfree) ?_
      rw [le_not_lt hi]; rfl
    · have hv' : slotValid (begin_ s) (pB c 0) = true := hv
      simp only [outBuffer_takes ht, hv', if_true]
end Sys2Proof.Machine
end

section
/-! PROOFS. Doorbells and the queues' own registers (R56 to R64, R88). -/

open Sys2Proof Sys2Proof.Machine

namespace Sys2Proof.Machine

/-! ### Doorbells -/

/-- The doorbell of a submission queue, on a node in service. -/
theorem sqTailDb_does {h : HostId} {q : Fin 8} {val : Word} {s : State} (hs : s.store.service = true) :
    Does (.sqTailDb h q val) s (sqTailWrite h q val) :=
  does_of rfl (if_pos hs)

theorem cqHeadDb_does {h : HostId} {m : Fin 4} {val : Word} {s : State} (hs : s.store.service = true) :
    Does (.cqHeadDb h m val) s (cqHeadWrite h m val) :=
  does_of rfl (if_pos hs)

/-- A new tail that the ring does not have, or that moves the tail past entries not yet fetched (R64). -/
def TailInvalid (x : Sq) (i : Nat) : Prop :=
  2 ^ x.log2 ≤ i ∨ (i + 2 ^ x.log2 - x.head) % 2 ^ x.log2 < (x.tail + 2 ^ x.log2 - x.head) % 2 ^ x.log2

/-- A new head that the ring does not have, or that lies past the tail (R64). -/
def HeadInvalid (x : Cq) (i : Nat) : Prop :=
  2 ^ x.log2 ≤ i ∨ (x.tail + 2 ^ x.log2 - x.head) % 2 ^ x.log2 < (i + 2 ^ x.log2 - x.head) % 2 ^ x.log2

section
variable {h : HostId} {q m : Nat} {val : Word} {s : State}

theorem sqTailWrite_off (hst : (sqAt s q).state = .disabled ∨ (sqAt s q).state = .resetting) : sqTailWrite h q val s = s :=
  if_pos (.inr hst)

theorem sqTailWrite_invalid (hh : sqHost q = h) (hd : (sqAt s q).state ≠ .disabled) (hr : (sqAt s q).state ≠ .resetting)
    (hi : TailInvalid (sqAt s q) (bits val.toNat 10 0)) :
    sqTailWrite h q val s = setSq q (fun x => { x with state := .stopped, err := 2 }) s :=
  (if_neg (by simp [hh, hd, hr])).trans (if_pos hi)

theorem sqTailWrite_valid (hh : sqHost q = h) (hd : (sqAt s q).state ≠ .disabled) (hr : (sqAt s q).state ≠ .resetting)
    (hi : ¬TailInvalid (sqAt s q) (bits val.toNat 10 0)) :
    sqTailWrite h q val s = setSq q (fun x => { x with tail := bits val.toNat 10 0 }) s :=
  (if_neg (by simp [hh, hd, hr])).trans (if_neg hi)

theorem cqHeadWrite_off (hst : (cqAt s m).state = .disabled) : cqHeadWrite h m val s = s := if_pos (.inr hst)

theorem cqHeadWrite_invalid (hh : cqHost m = h) (hd : (cqAt s m).state ≠ .disabled) (hi : HeadInvalid (cqAt s m) (bits val.toNat 10 0)) :
    cqHeadWrite h m val s = setCq m (fun x => { x with err := 2 }) s :=
  (if_neg (by simp [hh, hd])).trans (if_pos hi)

/-- With no completion kept, a valid index frees entries and the queue is HELD or RUNNING by whether it is full (R59, R79; log 14). -/
theorem cqHeadWrite_valid (hh : cqHost m = h) (hd : (cqAt s m).state ≠ .disabled) (hi : ¬HeadInvalid (cqAt s m) (bits val.toNat 10 0))
    (hk : (cqAt s m).held = []) :
    cqHeadWrite h m val s = setCq m (fun x => { x with
      head := bits val.toNat 10 0, held := [],
      state := if (x.tail + 1) % 2 ^ (cqAt s m).log2 = bits val.toNat 10 0 then .held else .running }) s := by
  refine ((if_neg (by simp [hh, hd])).trans (if_neg hi)).trans ?_
  simp only [hk, drainHeld]
  rw [setCq_setCq]
  exact setCq_congr (by simp [cqRefresh, cqFull, ringLen])

end

/-- An index within the ring and not beyond the other mark is valid. -/
theorem not_beyond {n i a b : Nat} (hi : i < n) (hle : a ≤ b) : ¬(n ≤ i ∨ b < a) := by omega

/-- Settles O19: on a node in service a doorbell is its write, which the new index decides. -/
theorem doorbellsMoveTheQueue : Obligations.DoorbellsMoveTheQueue := by
  intro h val s hs
  refine ⟨fun q hh hd hr => ⟨fun hi hle => ?_, fun hbad => ?_⟩, fun q hst => ?_, fun m hst => ?_,
    fun m hh hd => ⟨fun hi hle hk _ => ?_, fun hbad => ?_⟩⟩
  · exact (sqTailDb_does hs).congr (sqTailWrite_valid (s := begin_ s) hh hd hr (not_beyond hi hle))
  · exact (sqTailDb_does hs).congr (sqTailWrite_invalid (s := begin_ s) hh hd hr hbad)
  · exact (sqTailDb_does hs).congr (sqTailWrite_off (s := begin_ s) hst)
  · exact (cqHeadDb_does hs).congr (cqHeadWrite_off (s := begin_ s) hst)
  · exact (cqHeadDb_does hs).congr (cqHeadWrite_valid (s := begin_ s) hh hd (not_beyond hi hle) hk)
  · exact (cqHeadDb_does hs).congr (cqHeadWrite_invalid (s := begin_ s) hh hd hbad)

/-! ### Enabling and disabling -/

theorem sqAt_setSq {q : Nat} {f : Sq → Sq} {s : State} (h : q < s.cmdq.sqs.length) : sqAt (setSq q f s) q = f (sqAt s q) := by
  simp [sqAt, setSq, List.getD, h]

section
variable {h : HostId} {q m : Nat} {val : Word} {s : State}

theorem mayWriteSq_own (hh : sqHost q = h) (hr : (sqAt s q).state ≠ .resetting) : mayWriteSq h q s = true := by
  simp [mayWriteSq, hh, hr]

/-- A write that sets ENABLE, on a queue that is disabled: the fields are taken, and the queue runs where it may (R61 to R63). -/
theorem sqEnableWrite_disabled (hw : mayWriteSq h q s = true) (he : (sqAt s q).enable = false) :
    sqEnableWrite h q val s =
      if sqEnableOk q (setSq q (sqFields val) s) then
        setSq q (fun x => { x with enable := true, state := .running, head := 0, tail := 0 }) (setSq q (sqFields val) s)
      else setSq q (fun x => { x with err := 1 }) (setSq q (sqFields val) s) :=
  if_neg (by simp [hw, he])

/-- A write that clears ENABLE stops an enabled queue and configures a disabled one (R56, R61). -/
theorem sqDisableWrite_own (hw : mayWriteSq h q s = true) :
    sqDisableWrite h q val s =
      if (sqAt s q).enable then setSq q (fun x => { x with enable := false, state := .disabled }) s else setSq q (sqFields val) s :=
  if_neg (by simp [hw])

/-- A reset of a submission queue stops its commands before their commit point with the reset's cause (R88). -/
theorem resetSq_stops {cause : Nat} (hq : q < s.cmdq.sqs.length) :
    resetSq q cause s =
      let u := setSq q (fun x => { x with state := .resetting, enable := false, resetCause := cause }) s
      (u.cmdq.inflight.filter fun c => c.sq == q && beforeCommit c).foldl (stopCmd cause) u := by
  simp only [resetSq]
  rw [sqAt_setSq hq]

/-- A completion queue that is disabled, with a good size and CMD in service, is enabled empty with PHASE 1; the ring of CQ3 is zeroed
(R61 to R63, R483). -/
theorem cqEnableWrite_enables (hh : cqHost m = h) (he : (cqAt s m).enable = false) (hlo : 4 ≤ val.toNat % 16) (hhi : val.toNat % 16 ≤ 10)
    (hq : quarantined s 7 = false) (hm : m < s.cmdq.cqs.length) :
    cqEnableWrite h m val s =
      let u := setCq m (fun x => { x with
        log2 := val.toNat % 16, enable := true, state := .running, head := 0, tail := 0, phase := true }) s
      if m = 3 then { u with ram := memZero u.ram 0x01020000 0x4000 } else u := by
  refine (if_neg (by simp [hh, he])).trans ?_
  simp only [log2_of]
  refine (if_pos ?_).trans ?_
  · rw [cqAt_setCq hm]
    have hq' (f : Cq → Cq) : quarantined (setCq m f s) 7 = false := hq
    simp [goodLog2, hlo, hhi, hq']
  · rw [setCq_setCq]

/-- A write that clears ENABLE disables an enabled completion queue, but for one to which a completion is owed (R58). -/
theorem cqDisableWrite_enabled (hh : cqHost m = h) (he : (cqAt s m).enable = true) :
    cqDisableWrite h m val s =
      if owes s m then setCq m (fun x => { x with err := 1 }) s else setCq m (fun x => { x with enable := false, state := .disabled }) s :=
  (if_neg (by simp [hh])).trans (if_neg (by simp [he]))

end

/-- Settles O20: on a node in service each write of a queue's configuration does what the queue's state admits. -/
theorem queuesAreEnabledAndDisabled : Obligations.QueuesAreEnabledAndDisabled := by
  intro h val s hs
  refine ⟨fun q hh hr => ?_, fun q hst hin => ?_, fun m hh he hlo hhi hq hm => ?_, fun m hh he => ?_⟩
  · have hw : mayWriteSq h q (begin_ s) = true := mayWriteSq_own (s := begin_ s) hh hr
    have hen : Does (.sqEnable h q val) s (sqEnableWrite h q val) := does_of rfl (if_pos hs)
    have hdis : Does (.sqDisable h q val) s (sqDisableWrite h q val) := does_of rfl (if_pos hs)
    refine ⟨fun he hok => ?_, fun he hok => ?_, fun he => ?_, fun he => ?_, fun hq => ?_⟩
    · exact hen.congr ((sqEnableWrite_disabled hw he).trans (if_pos hok))
    · exact hen.congr ((sqEnableWrite_disabled hw he).trans (if_neg (by rw [Bool.not_eq_true]; exact hok)))
    · exact hdis.congr ((sqDisableWrite_own hw).trans (if_pos he))
    · exact hdis.congr ((sqDisableWrite_own hw).trans (if_neg (by rw [Bool.not_eq_true]; exact he)))
    · have hs' : (begin_ s).store.service = true := hs
      exact does_of (i := .sqReset h q val) rfl ((if_pos (by rw [hs', hw]; rfl)).trans (resetSq_stops (s := begin_ s) hq))
  · refine does_of rfl (if_pos ?_)
    have hnone : ((begin_ s).cmdq.inflight.any fun c => c.sq == q.val) = false := by
      rw [List.any_eq_false]
      exact fun c hc => by simpa using hin c hc
    have hst' : (sqAt (begin_ s) q).state = .resetting := hst
    rw [hnone, hst']; rfl
  · have hen : Does (.cqEnable h m val) s (cqEnableWrite h m val) := does_of rfl (if_pos hs)
    refine hen.congr ((cqEnableWrite_enables (s := begin_ s) hh he hlo hhi hq hm).trans ?_)
    simp only [Fin.ext_iff]
    rfl
  · have hdis : Does (.cqDisable h m val) s (cqDisableWrite h m val) := does_of rfl (if_pos hs)
    refine ⟨fun ho => ?_, fun ho => ?_⟩
    · exact hdis.congr ((cqDisableWrite_enabled (s := begin_ s) hh he).trans (if_neg (by rw [Bool.not_eq_true]; exact ho)))
    · exact hdis.congr ((cqDisableWrite_enabled (s := begin_ s) hh he).trans (if_pos ho))
end Sys2Proof.Machine
end

section
/-! PROOFS. Fetching, and the stops of one command or of a wait (R71 to R73, R82, R83, R87, R343). -/

open Sys2Proof Sys2Proof.Machine

namespace Sys2Proof.Machine

/-! ### Fetching -/

/-- The turn has passed to the queue after `q` (R73). -/
def turned (q : Nat) (s : State) : State := { s with cmdq := { s.cmdq with turn := (q + 1) % 8 } }

/-- One entry of a queue is taken, or stops the queue where it cannot be read (R72, R90). -/
def fetchFrom (q : Nat) (entry : Option (List Byte)) (s : State) : State :=
  match ringEntry q entry s with
  | none => stopSq q 5 s
  | some e => takeEntry q e s

/-- COMMAND_FETCH takes one entry of the queue whose turn it is; then commands of undefined opcodes end. -/
theorem commandFetch_does {entry : Option (List Byte)} {q : Nat} {s : State} (hs : serving s = true) (hq : nextQueue s = some q) :
    Does (.commandFetch entry) s fun s => endUndefined (fetchFrom q entry (turned q s)) := by
  have hs' : serving (begin_ s) = true := hs
  have hq' : nextQueue (begin_ s) = some q := hq
  refine does_of rfl ((if_neg (by simp [hs'])).trans ?_)
  simp only [hq']
  rfl

theorem fetchFrom_unread {q : Nat} {entry : Option (List Byte)} {s : State} (h : ringEntry q entry s = none) :
    fetchFrom q entry s = stopSq q 5 s := by
  simp only [fetchFrom, h]

theorem fetchFrom_entry {q : Nat} {entry : Option (List Byte)} {e : List Byte} {s : State} (h : ringEntry q entry s = some e) :
    fetchFrom q entry s = takeEntry q e s := by
  simp only [fetchFrom, h]

section
variable {q : Nat} {e : List Byte} {s : State}

theorem takeEntry_tagInFlight (h : (cmdOf s (BitVec.ofNat 8 (fld e 2 1))).isSome = true) : takeEntry q e s = stopSq q 3 s := if_pos h

theorem takeEntry_badTag (h : cmdOf s (BitVec.ofNat 8 (fld e 2 1)) = none) (hg : goodTag q (fld e 2 2) = false) :
    takeEntry q e s = stopSq q 4 s :=
  (if_neg (by simp [h])).trans (if_pos (by simp [hg]))

theorem takeEntry_accepts (h : cmdOf s (BitVec.ofNat 8 (fld e 2 1)) = none) (hg : goodTag q (fld e 2 2) = true) :
    takeEntry q e s = acceptEntry q e s :=
  (if_neg (by simp [h])).trans (if_neg (by simp [hg]))

end

/-- An accepted command that is no GATE_LIST_SET, or for whose port no list waits, replaces nothing (R343). -/
theorem replaceGates_none {c : Cmd} {s : State} (h : c.opcode ≠ 0x0505 ∨ (carAt s (pB c 0)).gateDue = none) : replaceGates c s = s := by
  unfold replaceGates
  by_cases ho : c.opcode = 0x0505
  · simp only [if_pos ho, h.resolve_left fun hne => hne ho]
  · exact if_neg ho

/-- An accepted GATE_LIST_SET ends the command whose list waits for its boundary (R343). -/
theorem replaceGates_some {c : Cmd} {s : State} {old : BitVec 8} {l : Nat × List Gate} (ho : c.opcode = 0x0505)
    (h : (carAt s (pB c 0)).gateDue = some (some old, l)) :
    replaceGates c s = finishTag old 0x80 5 (setCar (pB c 0) (fun p => { p with gateDue := none }) s) := by
  unfold replaceGates
  simp only [if_pos ho, h]

/-- Completing a command leaves only opcodes in flight that were there. -/
theorem finish_opcodes {c : Cmd} {status result : Nat} {s : State} (h : ∀ c ∈ s.cmdq.inflight, c.opcode ∈ opcodes) :
    ∀ x ∈ (finish c status result s).cmdq.inflight, x.opcode ∈ opcodes := by
  intro x hx
  rcases finish_cases c status result s with hf | hf | hf <;> rw [hf] at hx
  · exact h x (List.mem_filter.mp hx).1
  · rw [writeEntry_inflight] at hx
    exact h x (List.mem_filter.mp hx).1
  · simp only [keepEntry, setCmd_cmdq, setCq_cmdq, List.mem_map] at hx
    obtain ⟨y, hy, rfl⟩ := hx
    have := h y hy
    split
    · exact this
    · exact this

theorem finishTag_opcodes {tag : BitVec 8} {status result : Nat} {s : State} (h : ∀ c ∈ s.cmdq.inflight, c.opcode ∈ opcodes) :
    ∀ x ∈ (finishTag tag status result s).cmdq.inflight, x.opcode ∈ opcodes := by
  unfold finishTag
  split
  · split
    · exact h
    · exact finish_opcodes h
  · exact h

/-- The command that an entry spells where it is taken (R50, R68, R73). -/
def commandOf (q : Nat) (e : List Byte) (s : State) : Cmd :=
  { parseCmd s.cmdq.accepted q s.clk.ps s.clk.lt e with cq := (sqAt s q).cq }

/-- An entry of the queue is taken into flight as a command, and the turn passes on (R53, R71, R73). -/
def entryTaken (q : Nat) (c : Cmd) (s : State) : State :=
  let moved := setSq q (fun x => { x with head := (x.head + 1) % 2 ^ x.log2 }) s
  { moved with cmdq := { moved.cmdq with
    turn := (q + 1) % 8, accepted := s.cmdq.accepted + 1, inflight := s.cmdq.inflight ++ [c] } }

theorem acceptEntry_turned (q : Nat) (e : List Byte) (s : State) :
    acceptEntry q e (turned q s) = replaceGates (commandOf q e s) (entryTaken q (commandOf q e s) s) := rfl

theorem entryTaken_opcodes {q : Nat} {c : Cmd} {s : State} (h : ∀ c ∈ s.cmdq.inflight, c.opcode ∈ opcodes) (hc : c.opcode ∈ opcodes) :
    ∀ x ∈ (entryTaken q c s).cmdq.inflight, x.opcode ∈ opcodes := by
  intro x hx
  rcases List.mem_append.mp hx with hx | hx
  · exact h x hx
  · rw [List.mem_singleton.mp hx]; exact hc

/-- Settles O21: the entry decides between taking it and the causes that stop the queue, and no command of an undefined opcode is there to
end. -/
theorem fetchingTakesOneEntry : Obligations.FetchingTakesOneEntry := by
  intro entry q s hs hq hop
  have hdoes := commandFetch_does (entry := entry) hs hq
  have hstop (err : Nat) : endUndefined (stopSq q err (turned q (begin_ s))) = stopSq q err (turned q (begin_ s)) :=
    endUndefined_none hop
  refine ⟨fun e he hfree hgood hdef => ?_, fun e he hfl => ?_, fun e he hfree hbad => ?_, fun he => ?_⟩
  · have htake : fetchFrom q entry (turned q (begin_ s)) =
        replaceGates (commandOf q e (begin_ s)) (entryTaken q (commandOf q e (begin_ s)) (begin_ s)) := by
      rw [fetchFrom_entry (s := turned q (begin_ s)) he, takeEntry_accepts (s := turned q (begin_ s)) hfree hgood, acceptEntry_turned]
    have hops : ∀ x ∈ (entryTaken q (commandOf q e (begin_ s)) (begin_ s)).cmdq.inflight, x.opcode ∈ opcodes :=
      entryTaken_opcodes hop hdef
    refine ⟨fun hnone => hdoes.congr ?_, fun old l hset hdue => hdoes.congr ?_⟩
    · have hkeep : replaceGates (commandOf q e (begin_ s)) (entryTaken q (commandOf q e (begin_ s)) (begin_ s)) = _ :=
        replaceGates_none hnone
      rw [htake, hkeep, endUndefined_none hops]; rfl
    · have hend : replaceGates (commandOf q e (begin_ s)) (entryTaken q (commandOf q e (begin_ s)) (begin_ s)) = _ :=
        replaceGates_some hset hdue
      rw [htake, hend]; exact endUndefined_none (finishTag_opcodes (by exact hops))
  · refine hdoes.congr ?_
    rw [fetchFrom_entry (s := turned q (begin_ s)) he, takeEntry_tagInFlight (s := turned q (begin_ s)) hfl]
    exact hstop 3
  · refine hdoes.congr ?_
    rw [fetchFrom_entry (s := turned q (begin_ s)) he, takeEntry_badTag (s := turned q (begin_ s)) hfree hbad]
    exact hstop 4
  · refine hdoes.congr ?_
    rw [fetchFrom_unread (s := turned q (begin_ s)) he]
    exact hstop 5

/-! ### ABORT -/

/-- What ABORT does past its checks (R85, R87). -/
def abortGo (c : Cmd) (s : State) : State :=
  match cmdOf s (BitVec.ofNat 8 (pB c 0)) with
  | some x => if x.tag != c.tag && beforeCommit x then finish c 0 1 (stopCmd 1 s x) else finish c 0 0 s
  | none => finish c 0 0 s

theorem abort_does {tag : BitVec 8} {c : Cmd} {s : State} (h : Plain 0x0104 1 tag c s) : Does (.abort tag) s (abortGo c) := by
  refine doCmd (g := abortGo) h.1 rfl ?_ rfl
  exact plainBegin0 h rfl (none_free s)

theorem abortGo_none {c : Cmd} {s : State} (h : cmdOf s (BitVec.ofNat 8 (pB c 0)) = none) : abortGo c s = finish c 0 0 s := by
  simp only [abortGo, h]

theorem abortGo_stops {c x : Cmd} {s : State} (h : cmdOf s (BitVec.ofNat 8 (pB c 0)) = some x) (ht : x.tag ≠ c.tag)
    (hb : beforeCommit x = true) : abortGo c s = finish c 0 1 (stopCmd 1 s x) := by
  simp [abortGo, h, ht, hb]

theorem abortGo_past {c x : Cmd} {s : State} (h : cmdOf s (BitVec.ofNat 8 (pB c 0)) = some x) (hb : beforeCommit x = false) :
    abortGo c s = finish c 0 0 s := by
  simp [abortGo, h, hb]

/-- A command is before its commit point while it is fetched or started (R81). -/
theorem beforeCommit_iff (c : Cmd) : beforeCommit c = true ↔ c.phase = .fetched ∨ c.phase = .started := by
  simp [beforeCommit]

/-- Settles O25: ABORT stops the command that it names where that one is another before its commit point. -/
theorem abortStopsOneCommand : Obligations.AbortStopsOneCommand := by
  intro tag c s h
  have htag : c.tag = tag := ready_tag h.1
  refine ⟨fun x hx hne hp => ?_, fun x hx h1 h2 => ?_, fun hx => ?_⟩
  · exact (abort_does h).congr (abortGo_stops (s := begin_ s) hx (htag ▸ hne) ((beforeCommit_iff x).mpr hp))
  · refine (abort_does h).congr (abortGo_past (s := begin_ s) hx ?_)
    rw [← Bool.not_eq_true, beforeCommit_iff]
    exact not_or.mpr ⟨h1, h2⟩
  · exact (abort_does h).congr (abortGo_none (s := begin_ s) hx)

/-! ### Expiries -/

/-- What the node's units hold for a command that proposed no sleep and announced no handover leaves the queues alone. -/
theorem dropNode_cmdq {tag : BitVec 8} {cause : Nat} {s : State} (hs : s.power.sleepTag ≠ some tag) (hy : s.twin.yieldTag ≠ some tag) :
    (dropNode tag cause s).cmdq = s.cmdq := by
  simp [dropNode, hs, hy]

/-- A waiting command that proposed no sleep and announced no handover ends with TIMEOUT and the ms it has waited (R82). -/
theorem commandTimeout_does {tag : BitVec 8} {c : Cmd} {ms : Nat} {s : State} (hs : serving s = true) (hc : cmdOf s tag = some c)
    (hms : timeoutMs c = some ms) (hp : c.phase = .started) (hsl : s.power.sleepTag ≠ some tag) (hy : s.twin.yieldTag ≠ some tag) :
    Does (.commandTimeout tag) s fun s =>
      finish c 0x70 (((toPs (c.atPs + ms * 10 ^ 9) s).clk.ps - c.atPs) / 10 ^ 9)
        (dropNode tag 1 (dropUnits tag (toPs (c.atPs + ms * 10 ^ 9) s))) := by
  have hs' : serving (begin_ s) = true := hs
  have hc' : cmdOf (begin_ s) tag = some c := hc
  have htag : c.tag = tag := by simpa using List.find?_some hc
  have hann : announced c (begin_ s) = false := by simp [announced, htag, hsl]
  have hb : beforeCommit c = true := (beforeCommit_iff c).mpr (.inr hp)
  have hstill (u : State) (hu : u = toPs (c.atPs + ms * 10 ^ 9) (begin_ s)) : cmdOf (dropNode tag 1 (dropUnits tag u)) tag = some c := by
    have hq : (dropNode tag 1 (dropUnits tag u)).cmdq = (begin_ s).cmdq := by
      rw [dropNode_cmdq] <;> simp [hu, dropUnits, hsl, hy]
    rw [cmdOf_congr hq]; exact hc
  refine does_of rfl ?_
  simp only [hc', hms, hs', hb, hann]
  refine (if_neg (by simp)).trans ?_
  simp only [finishTag, hstill _ rfl, hp]
  rfl

theorem timeoutMs_consistWait {c : Cmd} (ho : c.opcode = 0x0202) (ht : c.timeout ≠ 0) : timeoutMs c = some c.timeout := by
  simp [timeoutMs, ho, ht]

/-- Settles O26: the expiry finds what waits, and ends it at the instant of its bound. -/
theorem waitsAndNoncesExpire : Obligations.WaitsAndNoncesExpire := by
  intro tag s
  refine ⟨fun c ms hs hc ho ht hne hp hsl hy => ?_, fun n hn => ?_, fun n hn => ?_⟩
  · subst ht
    exact commandTimeout_does hs hc (timeoutMs_consistWait ho hne) hp hsl hy
  · have hn' : (begin_ s).cmdq.lcNonce = some n := hn
    refine does_of rfl ?_
    simp only [if_true, hn', toPs_cmdq]
  · have hn' : (begin_ s).cmdq.logNonce = some n := hn
    refine does_of rfl ?_
    simp only [Bool.false_eq_true, if_false, hn', toPs_cmdq]
end Sys2Proof.Machine
end

section
/-! PROOFS. Settings of a car port on a unit with no partner (R343, R417). -/

open Sys2Proof Sys2Proof.Machine

namespace Sys2Proof.Machine

/-! ### Filters, wake patterns and 802.1AS -/

section
variable {c : Cmd} {s : State} {len : Nat} {bf : Bool} {rest : List Fail}

/-- The checks of a setting of a car port, on a unit with no partner, come to the setting's own checks. -/
theorem settingChecks_ok (hs : Solo s) (hl : c.plen = len) (hb : c.buffer = bf) (he : EpochOk c s) (hc : CodeOk c 0 0 0x0C s)
    (hr : firstFail rest = none) :
    firstFail ([lenCheck c len bf] ++ objectChecks c s 0 0 0x0C (standbyRefuses false s) ++ rest) = none := by
  rw [solo_refuses hs]
  exact codeChecks hl hb he hc hr

end

/-- A filter's address is a group address only where the filter is off (R334). -/
theorem filterAddr_ok {c : Cmd} (h : bitOf (pB c 2) 0 = true → isGroup (macOf (slice c.inl 4 6)) = false) :
    (bitOf (pB c 2) 0 && isGroup (macOf (slice c.inl 4 6))) = false := by
  cases hb : bitOf (pB c 2) 0
  · rfl
  · rw [h hb]; rfl

/-! ### Gate lists -/

theorem zeroInterval_none {l : List Gate} (h : ∀ g ∈ l, g.interval ≠ 0) : zeroInterval l = none := by
  rw [zeroInterval, List.findIdx?_eq_none_iff]
  exact fun g hg => by simpa using h g hg

theorem gateBufFail_ok {c : Cmd} {buf : List Byte} (hl : 8 * pF c 2 2 ≤ buf.length) (hz : ∀ g ∈ gateEntries buf (pF c 2 2), g.interval ≠ 0) :
    gateBufFail c buf = none := by
  simp only [gateBufFail, zeroInterval_none hz]
  exact if_neg (by omega)

theorem descOk_mono {c : Cmd} {a b : Nat} (h : DescOk c b) (hab : a ≤ b) : DescOk c a := by
  obtain ⟨h1, h2, h3, h4, h5, h6⟩ := h
  exact ⟨h1, h2, h3, Nat.le_trans hab h4, h5, h6⟩

section
variable {tag : BitVec 8} {c : Cmd} {s : State} {l : List Byte}

/-- GATE_LIST_SET past every check, on a unit with no partner (R341). -/
theorem gateListChecks_ok (hs : Solo s) (hc : CodeOk c 0 0 0x0C s) (h : Buffered 0x0505 4 4 tag c s) (h1 : 1 ≤ pF c 2 2)
    (h2 : pF c 2 2 ≤ 1024) (hl : 8 * pF c 2 2 ≤ l.length) (hz : ∀ g ∈ gateEntries l (pF c 2 2), g.interval ≠ 0) :
    firstFail (gateListChecks false c (some l) s) = none := by
  obtain ⟨_, hlen, hb, he, hd⟩ := h
  have hin : inRange 0 0x0C (pB c 0) = true := by simp [inRange, hc.2.1]
  have hown : firstFail [unread (some l), badP (!inRange 0 0x0C (pB c 0)) c 0, badP (decide (pF c 2 2 < 1) || decide (1024 < pF c 2 2)) c 2,
      gateBufFail c l] = none := by
    rw [hin, le_not_lt h1, le_not_lt h2, gateBufFail_ok hl hz]; rfl
  have hlead : firstFail ([lenCheck c 4 true] ++ objectState c s 0 0 0x0C false) = none := by
    rw [lenCheck_ok hlen hb, List.singleton_append, firstFail_none, objectState_ok he hc]
  unfold gateListChecks
  rw [solo_refuses hs, firstFail_append, Option.getD_some, hown]
  rw [firstFail_append hlead]
  exact descChecks_ok (descOk_mono hd (by omega))

end

/-- A gate list that no later command for its port has overtaken is loaded and waits for its boundary (R343). -/
theorem gateListEffect_loads {c : Cmd} {l : List Byte} {s : State} (h : s.cmdq.inflight.any (laterGates c) = false) :
    gateListEffect (some c.tag) c l s =
      setCar (pB c 0) (fun p => { p with gateDue := some (some c.tag, gateCycle s c.atLt, gateEntries l (pF c 2 2)) }) s := by
  simp only [gateListEffect, h]; rfl

/-- One that a later command has overtaken is ABORTED (R343; accepted when fetched: log 13). -/
theorem gateListEffect_yields {c d : Cmd} {l : List Byte} {s : State} (h : s.cmdq.inflight.any (laterGates c) = true)
    (hd : cmdOf s c.tag = some d) (hp : d.phase ≠ .finished) : gateListEffect (some c.tag) c l s = finish d 0x80 5 s := by
  simp only [gateListEffect, h, finishTag, hd]
  exact if_neg hp

/-- Starting a command changes neither what commands are in flight nor which of them come later. -/
theorem any_laterGates_park (c : Cmd) (s : State) :
    (park c 0 0 s).cmdq.inflight.any (laterGates c) = s.cmdq.inflight.any (laterGates c) := by
  have hsame (x : Cmd) : laterGates c (if x.tag = c.tag then { x with phase := .started, ref := 0, ref2 := 0 } else x) = laterGates c x := by
    split <;> rfl
  simp only [park, setCmd_cmdq, List.any_map]
  exact congrArg (s.cmdq.inflight.any ·) (funext hsame)

theorem any_laterGates_iff (c : Cmd) (s : State) :
    s.cmdq.inflight.any (laterGates c) = true ↔ ∃ e ∈ s.cmdq.inflight, e.opcode = 0x0505 ∧ c.acc < e.acc ∧ pB e 0 = pB c 0 := by
  simp only [List.any_eq_true, laterGates, Bool.and_eq_true, beq_iff_eq, decide_eq_true_eq, and_assoc]

/-- GATE_LIST_SET on a unit with no partner: past its checks its effect is tried at once, with the setting noted. -/
theorem gateListSet_does {tag : BitVec 8} {buf : Option (List Byte)} {c : Cmd} {l : List Byte} {s : State} {e : State → State}
    (hs : Solo s) (hr : Ready 0x0505 tag c s) (hbuf : inBuffer c buf s = some l) (hk : firstFail (gateListChecks false c (some l) s) = none)
    (he : gateListEffect (some c.tag) c l (noteSetting (settingsOf c l) (park c 0 0 (begin_ s))) = e (begin_ s))
    (hw : (e (begin_ s)).twin.partner = none) : Does (.gateListSet tag buf) s e := by
  have hbuf' : inBuffer c buf (begin_ s) = some l := hbuf
  have ht : takeSetting gateListEffect (some c.tag) c l (park c 0 0 (begin_ s)) = e (begin_ s) := he
  refine doCmdAt (l := fun c s => gateListChecks false c (inBuffer c buf s) s)
    (g := fun c s => startSetting gateListEffect c ((inBuffer c buf s).getD [])) hr rfl ?_ ?_
  · rw [hbuf']; exact hk
  · rw [hbuf', Option.getD_some, start_alone, ht]
    · simp [passesSettings, laneUp, hs.2]
    · rw [ht]; exact hw

/-- Settles O8: each setting passes its checks and takes effect at once; a gate list is loaded, or gives way to a later one. -/
theorem carPortSettingsTakeEffect : Obligations.CarPortSettingsTakeEffect := by
  intro tag c n s hs hn hc
  refine ⟨fun h h1 h2 => ?_, fun h h1 => ?_, fun h => ?_, fun buf l h hbuf h1 h2 hl hz => ?_⟩
  · obtain ⟨hr, hlen, hb, he⟩ := h
    refine solo_does (effect := ucastFilterEffect) hr hs he rfl ?_ (fun t => atCommit_congr ?_) (fun _ => rfl) (fun _ => rfl)
    · refine settingChecks_ok (s := begin_ s) hs hlen hb he hc ?_
      rw [le_not_lt h1, filterAddr_ok h2]; rfl
    · rw [hn]
  · obtain ⟨hr, hlen, hb, he⟩ := h
    refine solo_does (effect := wakePatternEffect) hr hs he rfl ?_ (fun t => atCommit_congr ?_) (fun _ => rfl) (fun _ => rfl)
    · refine settingChecks_ok (s := begin_ s) hs hlen hb he hc ?_
      rw [le_not_lt h1]; rfl
    · rw [hn]
  · obtain ⟨hr, hlen, hb, he⟩ := h
    refine solo_does (effect := asConfigEffect) hr hs he rfl ?_ (fun t => atCommit_congr ?_) (fun _ => rfl) (fun _ => rfl)
    · have := settingChecks_ok (s := begin_ s) (rest := []) hs hlen hb he hc rfl
      rwa [List.append_nil] at this
    · rw [hn]
  · have hk := gateListChecks_ok hs hc h h1 h2 hl hz
    have hpark : cmdOf (noteSetting (settingsOf c l) (park c 0 0 (begin_ s))) c.tag = some { c with phase := .started, ref := 0, ref2 := 0 } :=
      (congrArg (cmdOf _) (ready_tag h.1)).trans (cmdOf_park (ready_begin h.1) 0 0)
    refine ⟨fun hall => ?_, fun e hin hop hport hlater => ?_⟩
    · refine gateListSet_does hs h.1 hbuf hk ?_ (by simp [noteSetting, hs.2])
      rw [gateListEffect_loads, hn, ready_tag h.1]
      refine (any_laterGates_park c (begin_ s)).trans ?_
      rw [← Bool.not_eq_true, any_laterGates_iff]
      rintro ⟨e, hin, hop, hlt, hport⟩
      exact absurd (hall e hin hop hport) (Nat.not_le.mpr hlt)
    · refine gateListSet_does hs h.1 hbuf hk ?_ (by simp [noteSetting, hs.2])
      rw [gateListEffect_yields ?_ hpark (by simp)]
      · rfl
      · exact (any_laterGates_park c (begin_ s)).trans ((any_laterGates_iff c s).mpr ⟨e, hin, hop, hlater, hport⟩)

/-! ### PORT_CONFIG -/

/-- Mode, flags and role of a port as PORT_CONFIG sets them (R323). -/
def portSet (c : Cmd) (n : Nat) (s : State) : State :=
  setCar n (fun p => { p with mode := pB c 1, flags := BitVec.ofNat 3 (pB c 2), role := pB c 3 }) s

/-- The link after PORT_CONFIG (R323, R327, R346). -/
def portLinked (c : Cmd) (n : Nat) (s : State) : State :=
  if (carAt s n).mode ≠ pB c 1 ∨ (carAt s n).role ≠ pB c 3 then
    if pB c 1 = 0 then setLink n .disabled (clearPort n (portSet c n s)) else trainLink n (clearPort n (portSet c n s))
  else if (carAt s n).link = .upLpi ∧ bitOf (pB c 2) 1 = false then setLink n .up (portSet c n s)
  else portSet c n s

/-- Without pause every pause ends (R345). -/
def portPaused (c : Cmd) (n : Nat) (s : State) : State :=
  if bitOf (pB c 2) 2 then s else setCar n (fun p => { p with pausedUntil := List.replicate 8 0, pausing := false }) s

/-- PORT_CONFIG's effect on car port `n` (R252, R323, R327, R345 to R347). -/
def portConfigured (c : Cmd) (n : Fin 12) (s : State) : State :=
  reopen (.car n) 3 (lpiCheck n (portPaused c n (portLinked c n s)))

@[simp] theorem trainLink_cmdq (n : Nat) (s : State) : (trainLink n s).cmdq = s.cmdq := by simp [trainLink]
@[simp] theorem trainLink_twin (n : Nat) (s : State) : (trainLink n s).twin = s.twin := by simp [trainLink]
@[simp] theorem lpiCheck_cmdq (n : Nat) (s : State) : (lpiCheck n s).cmdq = s.cmdq := by
  simp only [lpiCheck]; (repeat' split) <;> simp
@[simp] theorem lpiCheck_twin (n : Nat) (s : State) : (lpiCheck n s).twin = s.twin := by
  simp only [lpiCheck]; (repeat' split) <;> simp
@[simp] theorem portLinked_cmdq (c : Cmd) (n : Nat) (s : State) : (portLinked c n s).cmdq = s.cmdq := by
  simp only [portLinked]; (repeat' split) <;> simp [portSet]
@[simp] theorem portLinked_twin (c : Cmd) (n : Nat) (s : State) : (portLinked c n s).twin = s.twin := by
  simp only [portLinked]; (repeat' split) <;> simp [portSet]
@[simp] theorem portPaused_cmdq (c : Cmd) (n : Nat) (s : State) : (portPaused c n s).cmdq = s.cmdq := by
  simp only [portPaused]; split <;> simp
@[simp] theorem portPaused_twin (c : Cmd) (n : Nat) (s : State) : (portPaused c n s).twin = s.twin := by
  simp only [portPaused]; split <;> simp
@[simp] theorem portConfigured_cmdq (c : Cmd) (n : Fin 12) (s : State) : (portConfigured c n s).cmdq = s.cmdq := by
  simp [portConfigured]
@[simp] theorem portConfigured_twin (c : Cmd) (n : Fin 12) (s : State) : (portConfigured c n s).twin = s.twin := by
  simp [portConfigured]

theorem portConfigEffect_eq {c : Cmd} {n : Fin 12} (hn : pB c 0 = n.val) (tag : Option (BitVec 8)) (buf : List Byte) (t : State) :
    portConfigEffect tag c buf t = atCommit tag 0 (portConfigured c n) t := by
  refine atCommit_congr ?_
  simp only [hn, Bool.not_eq_true', dif_pos n.isLt]
  rfl

/-- The flags admit EEE on no port of mode 5 (R85, R323). -/
theorem portFlags_ok {c : Cmd} (h : bitOf (pB c 2) 1 = true → pB c 1 ≠ 5) : (bitOf (pB c 2) 1 && pB c 1 == 5) = false := by
  cases hb : bitOf (pB c 2) 1
  · rfl
  · simp [h hb]

/-- Settles O9: PORT_CONFIG passes its checks, and its effect is taken at once. -/
theorem portConfigSetsThePort : Obligations.PortConfigSetsThePort := by
  intro tag c n s hs hn hc h h1 h2 h3
  obtain ⟨hr, hlen, hb, he⟩ := h
  refine solo_does (effect := portConfigEffect) (e := portConfigured c n) hr hs he rfl ?_ (portConfigEffect_eq hn _ _)
    (portConfigured_cmdq c n) (fun t => by rw [portConfigured_twin])
  refine settingChecks_ok (s := begin_ s) hs hlen hb he hc ?_
  rw [le_not_lt h1, portFlags_ok h2, le_not_lt h3]; rfl
end Sys2Proof.Machine
end

section
/-! PROOFS. The commands of time, consist and handover (R82, R85, R131, R155, R200, R429). -/

open Sys2Proof Sys2Proof.Machine

namespace Sys2Proof.Machine

/-! ### CYCLE_SET -/

/-- The parameter step of CYCLE_SET passes within the ranges of R131. -/
theorem cycleSetParams_ok {c : Cmd} (hl1 : 0x186A00000 ≤ pF c 0 8) (hl2 : pF c 0 8 ≤ 0xF42400000) (hh1 : 1 ≤ pB c 8) (hh2 : pB c 8 ≤ 128)
    (hq1 : 40 ≤ pF c 10 2) (hq2 : pF c 10 2 ≤ 400) : firstFail (cycleSetParams c) = none := by
  rw [cycleSetParams, le_not_lt hl1, le_not_lt hl2, le_not_lt hh1, le_not_lt hh2, le_not_lt hq1, le_not_lt hq2]; rfl

/-! ### CONSIST_WAIT -/

/-- What CONSIST_WAIT does past its checks (R85): it answers where the epoch differs, and waits before. -/
def consistWaitGo (c : Cmd) (s : State) : State :=
  if s.survey.epoch ≠ pB c 0 then finish c 0 s.survey.epoch s else park c (pB c 0) 0 s

theorem consistWait_does {tag : BitVec 8} {c : Cmd} {s : State} (h : Plain 0x0202 1 tag c s) :
    Does (.consistWait tag) s (consistWaitGo c) := by
  refine doCmd (g := consistWaitGo) h.1 rfl ?_ rfl
  exact plainBegin0 h rfl (none_free s)

/-! ### SURVEY_RESTART -/

/-- What SURVEY_RESTART does past its checks (R200): a numbered unit floods the round and gives up its position. -/
def surveyRestartGo (c : Cmd) (s : State) : State :=
  let u := finish c 0 0 s
  if numbered s then giveUp (s.survey.round + 1) (floodMg (.svRestart (s.survey.round + 1)) u)
  else if surveying s then enterRound (s.survey.round + 1) u else u

theorem numbered_congr {s t : State} (h : t.survey = s.survey) : numbered t = numbered s := by rw [numbered, h, numbered]

theorem surveying_congr {s t : State} (h : t.survey = s.survey) : surveying t = surveying s := by rw [surveying, h, surveying]

/-- Where SURVEY_RESTART is refused: on a standby, or outside COMMISSION and MAINTENANCE (R85, R91). -/
def surveyRestartRefused (s : State) : Bool := standbyRefused s || (s.test.lc != 2 && s.test.lc != 4)

theorem surveyRestartRefused_false {s : State} (hr : s.twin.role ≠ .standby) (hl : s.test.lc = 2 ∨ s.test.lc = 4) :
    surveyRestartRefused s = false := by
  rcases hl with hl | hl <;> simp [surveyRestartRefused, standbyRefused, not_standby hr, hl]

theorem surveyRestart_does {tag : BitVec 8} {c : Cmd} {s : State} (h : Plain 0x0203 0 tag c s) (hr : s.twin.role ≠ .standby)
    (hl : s.test.lc = 2 ∨ s.test.lc = 4) : Does (.surveyRestart tag) s (surveyRestartGo c) := by
  refine doCmd h.1 rfl (plainBegin0 h (surveyRestartRefused_false hr hl) (none_free s)) ?_
  simp only [surveyRestartGo, numbered_congr (finish_survey ..), surveying_congr (finish_survey ..)]

/-! ### TIME_SET -/

/-- TIME_SET with a port that reaches a neighbour is committed when its CAL_APPLY is flooded (R155). -/
theorem timeSetGo_sends {c : Cmd} {s : State} (h : ∃ p : BPort, mgReaches s p = true) :
    timeSetGo c s = setCmd c.tag (fun x => { x with phase := .committed, ref := (timeSetApply c s).changeId, ref2 := (timeSetApply c s).start })
      (floodMg (.calApply (timeSetApply c s)) { s with time := { s.time with
        changeId := (timeSetApply c s).changeId, calPending := s.time.calPending ++ [timeSetApply c s] } }) := by
  obtain ⟨p, hp⟩ := h
  have hall : p ∈ BPort.all := by cases p <;> decide
  refine if_pos (List.any_eq_true.mpr ⟨p, hall, hp⟩)

/-! ### TWIN_YIELD -/

/-- Where TWIN_YIELD is refused (R429). -/
theorem twinYield_admitted {s : State} (hp : powered s 12 = true) (hr : s.twin.role = .active) (hm : mayHandOver s = true) :
    (twinOff s || !isActive s || !mayHandOver s) = false := by
  simp [twinOff, isActive, hp, hr, hm]

/-- Settles O16: each command passes its checks, and its effect is the one that the state selects. -/
theorem timeConsistAndHandoverCommands : Obligations.TimeConsistAndHandoverCommands := by
  intro tag c s
  refine ⟨fun h hp hl a b d e f g => ?_, fun h he => ?_, fun h he => ?_, fun h hr hp hl => ?_, fun h hr hp hv hl => ?_,
    fun h hp hb hs => ?_, fun h ht hp hr hm => ?_⟩
  · refine doCmd h.1 (exec_cycleSet tag s) ?_ rfl
    exact plainBegin h (cycleSetRefused_false (s := begin_ s) hp hl) (none_free s) (cycleSetParams_ok a b d e f g)
  · exact (consistWait_does h).congr (if_pos he)
  · exact (consistWait_does h).congr (if_neg fun hne => hne he)
  · refine (surveyRestart_does h hr hl).congr (if_pos ?_)
    simpa [numbered] using hp
  · refine (surveyRestart_does h hr hl).congr ((if_neg ?_).trans (if_pos hv))
    simpa [numbered] using hp
  · refine doCmd h.1 rfl (plainBegin h (by simpa using hp) (none_free s) ?_) ?_
    · rw [le_not_lt hb]; rfl
    · rw [← ready_tag h.1]; exact timeSetGo_sends (s := begin_ s) hs
  · exact doCmd h.1 rfl (presentPlain h (by simp [ht]) (twinYield_admitted (s := begin_ s) hp hr hm) (none_free s)) rfl
end Sys2Proof.Machine
end

section
/-! PROOFS. The commands of log, store, test and life-cycle (R469, R470, R479, R480, R490, R542 to R544). -/

open Sys2Proof Sys2Proof.Machine

namespace Sys2Proof.Machine

/-- Checks pass where the first of them passes and the rest pass. -/
theorem firstFail_cons {x : Fail} {l : List Fail} (hx : x = none) (hl : firstFail l = none) : firstFail (x :: l) = none := by
  rw [hx, firstFail_none, hl]

theorem refuseIf_of {s : State} {b : Bool} (h : b = false) : refuseIf b s = none := by rw [h, refuseIf_false]

theorem badP_of {b : Bool} (h : b = false) (c : Cmd) (n : Nat) : badP b c n = none := by rw [h, badP_false]

/-! ### LOG_CLEAR -/

/-- LOG_CLEAR past its length, its life cycle and its authorisation clears the log; its nonce is spent (R83, R470). -/
theorem logClear_does {tag : BitVec 8} {addr : Word} {c : Cmd} {s : State} (hr : Ready 0x0903 tag c s) (hl : c.plen = 16)
    (hb : c.buffer = false) (he : EpochOk c s) (hlc : s.test.lc ≠ 5) (hf : BlockFree s 32)
    (ha : authFail s s.cmdq.logNonce 0x09 0x03 [] (slice c.inl 0 16) = none) (hd : s.flow.degraded = false) :
    Does (.logClear tag true addr) s fun s => clearLog true addr c { s with cmdq := { s.cmdq with logNonce := none } } := by
  refine doCmd hr rfl ?_ ?_
  · exact firstFail_cons (lenCheck_ok hl hb) (firstFail_cons (refuseIf_of (by simpa using hlc)) rfl)
  · refine checked_ok (firstFail_cons ha ?_) c _ _
    refine firstFail_cons (epochFail_ok he) (firstFail_cons (failIf_of hd _ _) ?_)
    exact firstFail_cons (quarFail_ok hf.1) (firstFail_cons (busyFail_ok hf.2) rfl)

/-! ### ST_RUN -/

/-- ST_RUN past its checks starts its test (R490). -/
theorem stRun_does {tag : BitVec 8} {c : Cmd} {s : State} {k : TestKind} (h : Plain 0x0A01 2 tag c s) (hb : pB c 0 < 34)
    (hp : blockPresent s.part (pB c 0) = true) (h3 : s.test.lc ≠ 3) (h5 : s.test.lc ≠ 5) (hoff : blockOff s (pB c 0) = false)
    (hf : ∀ t ∈ s.test.tests, t.block = pB c 0 → t.running = false) (hk : kindOf (pB c 1) = some k) (ha : admits (pB c 0) k = true)
    (hx : ∀ e ∈ s.cmdq.inflight, e.opcode = 0x0A01 → e.tag ≠ tag → c.acc ≤ e.acc ∧ e.phase = .fetched) :
    Does (.stRun tag) s fun s => let s := park c 0 0 s
      { s with test := { s.test with tests := s.test.tests ++ [newTest (pB c 0) k 0 (some tag) s] } } := by
  obtain ⟨hr, hlen, hbuf, he⟩ := h
  have hoff' : blockOff (begin_ s) (pB c 0) = false := hoff
  refine doCmd hr rfl ?_ ?_
  · refine firstFail_cons (lenCheck_ok hlen hbuf) (firstFail_cons (failIf_of (by simp [hp]) _ _) ?_)
    refine firstFail_cons (epochFail_ok he) (firstFail_cons (refuseIf_of (by simp [h3, h5, hoff'])) ?_)
    refine firstFail_cons (busyFail_ok hf) (firstFail_cons (badP_of (le_not_lt (by omega)) _ _) ?_)
    exact firstFail_cons (badP_of (by simp [hk, ha]) _ _) (firstFail_cons (exclusive_ok (ready_begin hr) hx) rfl)
  · simp only [hk]; rfl

/-! ### LC_SET -/

/-- LC_SET past its length, for a transition that is authorised or not, stored or not, or unknown (R83, R479 to R482). -/
def lcSetGo (ok : Bool) (addr : Word) (auth stored unknown : Bool) (c : Cmd) (s : State) : State :=
  let bad := if auth then authFail s s.cmdq.lcNonce 0x0A 0x04 ([BitVec.ofNat 8 (pB c 0)] ++ zeros 3) (slice c.inl 16 16) else none
  let s := if auth then { s with cmdq := { s.cmdq with lcNonce := none } } else s
  let s := if (bad.map fun x => x.1) = some 0x41 then logEvent 0xC1 srcNode (byte1 (pB c 0)) s else s
  checked c [bad, epochFail c s, refuseIf (s.test.lc == 2 && pB c 0 == 3 && (s.store.slot.isNone || s.store.imageKeys.isNone)) s,
      badP unknown c 0, badP (!auth && slice c.inl 16 16 != zeros 16) c 16, failIf (stored && !ok) 0x60 addr.toNat]
    (fun s => finish c 0 (pB c 0) (lcEffect (pB c 0) stored s)) s

/-- LC_SET past its length goes by the transition from the life-cycle state in force. -/
theorem lcSet_does {tag : BitVec 8} {ok : Bool} {addr : Word} {c : Cmd} {s : State} {auth stored : Bool} (h : Plain 0x0A04 32 tag c s)
    (ht : transition s.test.lc (pB c 0) = some (auth, stored)) : Does (.lcSet tag ok addr) s (lcSetGo ok addr auth stored false c) := by
  obtain ⟨hr, hlen, hbuf, _⟩ := h
  have ht' : transition (begin_ s).test.lc (pB c 0) = some (auth, stored) := ht
  refine doCmdAt (l := fun c _ => [lenCheck c 32 false])
    (g := fun c s => lcSetGo ok addr (((transition s.test.lc (pB c 0)).map fun w => w.1) == some true)
      (((transition s.test.lc (pB c 0)).map fun w => w.2) == some true) (transition s.test.lc (pB c 0)).isNone c) hr rfl ?_ ?_
  · exact firstFail_cons (lenCheck_ok hlen hbuf) rfl
  · rw [ht']
    cases auth <;> cases stored <;> rfl

/-- The change from COMMISSION to FIELD has the configuration in force and the keys that it needs (R481). -/
def KeysReady (s : State) (goal : Nat) : Prop := s.test.lc = 2 → goal = 3 → s.store.slot.isSome = true ∧ s.store.imageKeys.isSome = true

theorem lcRefused_false {s : State} {goal : Nat} (h : KeysReady s goal) :
    (s.test.lc == 2 && goal == 3 && (s.store.slot.isNone || s.store.imageKeys.isNone)) = false := by
  by_cases h23 : s.test.lc = 2 ∧ goal = 3
  · obtain ⟨hs, hk⟩ := h h23.1 h23.2
    rw [← Option.not_isSome, ← Option.not_isSome, hs, hk]
    simp
  · have : (s.test.lc == 2 && goal == 3) = false := by simpa using h23
    rw [this, Bool.false_and]

/-- Without an authorisation the code's bytes are 0 (R479). -/
theorem lcSetGo_open {addr : Word} {stored : Bool} {c : Cmd} {s : State} (he : EpochOk c s) (hk : KeysReady s (pB c 0))
    (hz : slice c.inl 16 16 = zeros 16) :
    lcSetGo true addr false stored false c s = finish c 0 (pB c 0) (lcEffect (pB c 0) stored s) := by
  simp only [lcSetGo, Bool.false_eq_true, if_false, Option.map_none, reduceCtorEq]
  refine checked_ok (firstFail_cons rfl (firstFail_cons (epochFail_ok he) (firstFail_cons (refuseIf_of (lcRefused_false hk)) ?_))) c _ _
  refine firstFail_cons rfl (firstFail_cons (badP_of (by simp [hz]) _ _) (firstFail_cons (failIf_of (by simp) _ _) rfl))

/-- An authorised change spends its nonce (R83); none of them is the one into FIELD that needs keys. -/
theorem lcSetGo_authorised {addr : Word} {stored : Bool} {c : Cmd} {s : State} (he : EpochOk c s)
    (ht : transition s.test.lc (pB c 0) = some (true, stored))
    (ha : authFail s s.cmdq.lcNonce 0x0A 0x04 ([BitVec.ofNat 8 (pB c 0)] ++ zeros 3) (slice c.inl 16 16) = none) :
    lcSetGo true addr true stored false c s =
      finish c 0 (pB c 0) (lcEffect (pB c 0) stored { s with cmdq := { s.cmdq with lcNonce := none } }) := by
  have hk : KeysReady s (pB c 0) := by
    intro h2 h3
    rw [h2, h3] at ht
    cases ht
  simp only [lcSetGo, if_true, ha]
  refine checked_ok (firstFail_cons rfl (firstFail_cons (epochFail_ok he) (firstFail_cons (refuseIf_of (lcRefused_false hk)) ?_))) c _ _
  refine firstFail_cons rfl (firstFail_cons rfl (firstFail_cons (failIf_of (by simp) _ _) rfl))

/-! ### CONFIG_COMMIT -/

/-- The checks of CONFIG_COMMIT with its buffer read (R76, R483, R542). -/
def configCommitChecks (c : Cmd) (bs : Option (List Byte)) (s : State) : List Fail :=
  [lenCheck c 0 true, epochFail c s, refuseIf (s.test.lc == 5) s, busyFail s (some 32),
      failIf (quarantined s 32) 0x60 (Config.quarantineAddr s.clk.draws).toNat]
    ++ descChecks c 4 ++ [unread bs] ++ commitChecks s (bs.getD []) ++ [exclusiveFail c s]

theorem configCommitChecks_ok {tag : BitVec 8} {c : Cmd} {bs : List Byte} {s : State} (h : Buffered 0x0C01 0 4 tag c s) (h5 : s.test.lc ≠ 5)
    (hf : BlockFree s 32) (hk : ∀ e ∈ commitChecks s bs, e = none)
    (hx : ∀ e ∈ s.cmdq.inflight, e.opcode = 0x0C01 → e.tag ≠ tag → c.acc ≤ e.acc ∧ e.phase = .fetched) :
    firstFail (configCommitChecks c (some bs) s) = none := by
  obtain ⟨hr, hlen, hb, he, hd⟩ := h
  have hlead : firstFail [lenCheck c 0 true, epochFail c s, refuseIf (s.test.lc == 5) s, busyFail s (some 32),
      failIf (quarantined s 32) 0x60 (Config.quarantineAddr s.clk.draws).toNat] = none := by
    refine firstFail_cons (lenCheck_ok hlen hb) (firstFail_cons (epochFail_ok he) (firstFail_cons (refuseIf_of (by simpa using h5)) ?_))
    exact firstFail_cons (busyFail_ok hf.2) (firstFail_cons (failIf_of hf.1 _ _) rfl)
  have hdesc := (firstFail_append (m := descChecks c 4) hlead).trans (descChecks_ok hd)
  have hread := (firstFail_append (m := [unread (some bs)]) hdesc).trans rfl
  have hown := (firstFail_append (m := commitChecks s bs) hread).trans (firstFail_all hk)
  exact (firstFail_append (m := [exclusiveFail c s]) hown).trans (firstFail_cons (exclusive_ok hr hx) rfl)

theorem configCommit_does {tag : BitVec 8} {buf : Option (List Byte)} {c : Cmd} {bs : List Byte} {s : State} (hr : Ready 0x0C01 tag c s)
    (hbuf : inBuffer c buf s = some bs) (hk : firstFail (configCommitChecks c (some bs) s) = none) :
    Does (.configCommit tag buf) s (startCommit c bs) := by
  have hbuf' : inBuffer c buf (begin_ s) = some bs := hbuf
  refine doCmdAt (l := fun c s => configCommitChecks c (inBuffer c buf s) s) (g := fun c s => startCommit c ((inBuffer c buf s).getD [])) hr
    rfl ?_ ?_
  · rw [hbuf']; exact hk
  · rw [hbuf', Option.getD_some]

/-! ### CONFIG_SEAL_WRITTEN -/

/-- The slot is sealed with its image (R543). -/
def sealSlot (i : Nat) (bs : List Byte) (s : State) : State :=
  logEvent 0xF4 srcNode (byte1 i ++ le 4 (imageGen bs)) { s with store := { s.store with
    commit := none, slots := s.store.slots.modify i fun _ => { image := bs, sealRec := some (sealFor bs), readable := true } } }

/-- A verified seal is the commit point of its command, whose epoch stands (R81, R543). -/
theorem configSealWritten_does {tag : BitVec 8} {addr : Word} {c : Cmd} {i : Nat} {bs : List Byte} {s : State} (hs : serving s = true)
    (hcm : s.store.commit = some (tag, i, bs)) (hc : cmdOf s tag = some c) (hp : c.phase = .started) (he : EpochOk c s) :
    Does (.configSealWritten true addr) s fun s => finish c 0 (imageGen bs + i * 2 ^ 32) (sealSlot i bs s) := by
  have hs' : serving (begin_ s) = true := hs
  have hcm' : (begin_ s).store.commit = some (tag, i, bs) := hcm
  have hm : epochMoved (begin_ s) (some tag) = false := epochMoved_no (s := s) hc he rfl rfl
  have hstill : cmdOf (sealSlot i bs (begin_ s)) tag = some c := (cmdOf_congr (s := begin_ s) (by simp [sealSlot]) tag).trans hc
  have hend : finishTag tag 0 (imageGen bs + i * 2 ^ 32) (sealSlot i bs (begin_ s)) =
      finish c 0 (imageGen bs + i * 2 ^ 32) (sealSlot i bs (begin_ s)) := by
    simp [finishTag, hstill, hp]
  refine does_of rfl ?_
  simp only [hcm', hs', hm]
  exact hend

/-- Settles O18: each command passes its checks and does its effect; the seal finds the command that waits for it. -/
theorem logStoreAndTestCommands : Obligations.LogStoreAndTestCommands := by
  intro tag c s
  refine ⟨fun addr hr hl hb he hlc hf ha hd => logClear_does hr hl hb he hlc hf ha hd,
    fun k h hb hp h3 h5 hoff hf hk ha hx => stRun_does h hb hp h3 h5 hoff hf hk ha hx, fun addr stored h ht hk hz => ?_,
    fun addr stored h ht ha => ?_, fun buf bs h hbuf h5 hf hk hx => ?_,
    fun addr i bs hs hcm hc hp he => configSealWritten_does hs hcm hc hp he⟩
  · exact (lcSet_does h ht).congr (lcSetGo_open (s := begin_ s) h.2.2.2 hk hz)
  · exact (lcSet_does h ht).congr (lcSetGo_authorised (s := begin_ s) h.2.2.2 ht ha)
  · refine (configCommit_does h.1 hbuf (configCommitChecks_ok h h5 hf hk hx)).congr ?_
    rw [startCommit, ready_tag h.1]; rfl
end Sys2Proof.Machine
end

section
/-! PROOFS. SPI reads and JTAG instructions (R66, R67, R590). -/

open Sys2Proof Sys2Proof.Machine

namespace Sys2Proof.Machine

/-! ### SPI reads -/

theorem spiHolds_buffer {s : State} {a : Nat} (h1 : 0x02000000 ≤ a) (h2 : a < 0x02040000) : spiHolds s a = true := by
  simp only [spiHolds, Bool.or_eq_true, Bool.and_eq_true, decide_eq_true_eq]
  exact .inr ⟨h1, by omega⟩

/-- A word of the buffer area is the bytes held, and reading it changes nothing (R67). -/
theorem spiGet_buffer {s : State} {a : Nat} (many : Bool) (h1 : 0x02000000 ≤ a) (h2 : a < 0x02040000) :
    spiGet many a s = (s, w32 (unle (memRead s.ram a 4))) := by
  rw [spiGet, if_neg (by omega), if_pos (spiHolds_buffer h1 h2)]

/-- Four bytes as a little-endian word (R24). -/
theorem unle_memRead (m : Memory) (a : Nat) :
    unle (memRead m a 4) = (memByte m a).toNat + (memByte m (a + 1)).toNat * 2 ^ 8 + (memByte m (a + 2)).toNat * 2 ^ 16
      + (memByte m (a + 3)).toNat * 2 ^ 24 := by
  simp only [memRead, unle, Nat.add_assoc, Nat.reduceAdd]; omega

theorem spiRead_does {s : State} {addr : Nat} (hup : windowUp s = true) (hal : addr % 4 = 0) (h1 : 0x02000000 ≤ addr) (h2 : addr < 0x02040000) :
    Does (.spiRead addr 1) s fun s => emit (.readData [w32 (unle (memRead s.ram addr 4))]) s := by
  have hup' : windowUp (begin_ s) = true := hup
  refine does_of rfl ?_
  refine (if_neg (by simp [hup'])).trans ((if_neg (by simp [hal])).trans ?_)
  simp only [spiGetAll, spiGet_buffer _ h1 h2]

/-- Settles O37: each access or instruction is one arm of its command. -/
theorem spiReadsAndJtagInstructions : Obligations.SpiReadsAndJtagInstructions := by
  intro addr op s
  refine ⟨fun hup hal h1 h2 => ?_, rfl, rfl, rfl, fun code hl => ?_, fun code hl => ?_⟩
  · refine (spiRead_does hup hal h1 h2).congr ?_
    simp only [unle_memRead]; rfl
  · exact does_of (if_neg hl) rfl
  · exact if_pos hl
end Sys2Proof.Machine
end

section
/-! PROOFS. Chambers, the general frames of a backbone port and the deadlines of a stream (R106, R111, R241, R245 to R247, R307). -/

open Sys2Proof Sys2Proof.Machine

namespace Sys2Proof.Machine

/-! ### What counting and time leave of a backbone port -/

@[simp] theorem countBb_up (q : BPort) (off : Nat) (s : State) (p : BPort) : (bbAt (countBb q off s) p).up = (bbAt s p).up := by
  simp only [countBb, setBb, bbAt, List.getD, List.getElem?_modify]
  cases s.bb[p.idx]? with
  | none => rfl
  | some b => by_cases h : q.idx = p.idx <;> simp [h]

@[simp] theorem neighAt_countBb (q : BPort) (off : Nat) (s : State) (p : BPort) : neighAt (countBb q off s) p = neighAt s p := by
  rw [neighAt, neighAt, countBb_survey]

@[simp] theorem bbOpen_countBb (q : BPort) (off : Nat) (s : State) (p : BPort) : bbOpen (countBb q off s) p = bbOpen s p := by
  rw [bbOpen, bbOpen, countBb_up, neighAt_countBb]

@[simp] theorem bbOpen_toLt (n : Nat) (s : State) (p : BPort) : bbOpen (toLt n s) p = bbOpen s p := by
  rw [bbOpen, bbOpen, toLt_neighAt, bbAt, bbAt, toLt_bb]

/-! ### CHAMBER_START -/

/-- A chamber of the present cycle releases where its node is the source, and forwards elsewhere (R245, R246, R277). -/
theorem chamberStart_begins {p : BPort} {start : Nat} {e : Chamber} {s : State} (hr : running s = true) (hn : numbered s = true)
    (he : (entriesIn (toPhase start (begin_ s)) p (cycleNow (toPhase start (begin_ s)))).find?
      (fun e => e.start == start && e.kind != .terminal) = some e) :
    Does (.chamberStart p start) s fun s =>
      if releasesAt (toPhase start s) e then sourceChamber p e (cycleNow (toPhase start s)) (toPhase start s)
      else forwardChamber p e (cycleNow (toPhase start s)) (toPhase start s) := by
  have hr' : running (begin_ s) = true := hr
  have hn' : numbered (begin_ s) = true := hn
  refine does_of rfl ((if_pos (by simp [hr', hn'])).trans ?_)
  simp only [he]

/-! ### BACKBONE_GENERAL_RX -/

/-- Steps 1, 2 and 6 of R111 for a general frame, at the instant of its end: its length, its EtherType and its FCS. -/
def receiveGeneral (p : BPort) (sfd : Nat) (bytes : List Byte) (s : State) : State :=
  if bytes.length < 64 ∨ 1528 < bytes.length then countBb p 0x28 s
  else match fcsOf bytes with
    | .good =>
      if !bbOpen (countBb p 0x00 s) p then countBb p 0x00 s
      else if nfld (stripFcs bytes) 12 2 ≠ 0x88B6 then countBb p 0x30 (countBb p 0x00 s)
      else checkGeneral p sfd (stripFcs bytes) (countBb p 0x00 s)
    | how =>
      if nfld (stripFcs bytes) 12 2 ≠ 0x88B6 then countBb p 0x30 s else countBb p (if how = .marked then 0x18 else 0x10) s

section
variable {p : BPort} {sfd : Nat} {bytes g : List Byte} {s : State}

theorem backboneGeneralRx_receives (hr : running s = true) (hi : inService s (8 + p.idx) = true) (ho : bbOpen s p = true) :
    Does (.backboneGeneralRx p sfd bytes) s fun s => receiveGeneral p sfd bytes (toLt (sfd + wire10g bytes.length) s) := by
  have ht : bbTakes (begin_ s) p = true := by
    rw [bbTakes, Bool.and_eq_true]; exact ⟨hr, hi⟩
  have hu : (bbAt (begin_ s) p).up = true := up_of_bbOpen ho
  exact does_of rfl (if_neg (by simp [ht, hu]))

theorem receiveGeneral_wrongLength (hl : bytes.length < 64 ∨ 1528 < bytes.length) :
    receiveGeneral p sfd bytes s = countBb p 0x28 s :=
  if_pos hl

theorem receiveGeneral_bad (hmin : 64 ≤ bytes.length) (hmax : bytes.length ≤ 1528) (hf : fcsOf bytes = .bad)
    (hty : nfld (stripFcs bytes) 12 2 = 0x88B6) : receiveGeneral p sfd bytes s = countBb p 0x10 s := by
  simp [receiveGeneral, Nat.not_lt.mpr hmin, Nat.not_lt.mpr hmax, hf, hty]

theorem receiveGeneral_marked (hmin : 64 ≤ bytes.length) (hmax : bytes.length ≤ 1528) (hf : fcsOf bytes = .marked)
    (hty : nfld (stripFcs bytes) 12 2 = 0x88B6) : receiveGeneral p sfd bytes s = countBb p 0x18 s := by
  simp [receiveGeneral, Nat.not_lt.mpr hmin, Nat.not_lt.mpr hmax, hf, hty]

/-- A whole frame at an open port counts as received and goes on to its header's checks. -/
theorem receiveGeneral_good (ho : bbOpen s p = true) (hmin : 64 ≤ bytes.length) (hmax : bytes.length ≤ 1528) (hf : fcsOf bytes = .good)
    (hty : nfld (stripFcs bytes) 12 2 = 0x88B6) :
    receiveGeneral p sfd bytes s = checkGeneral p sfd (stripFcs bytes) (countBb p 0x00 s) := by
  simp [receiveGeneral, Nat.not_lt.mpr hmin, Nat.not_lt.mpr hmax, hf, hty, ho]

/-- A header of VERSION 1 and a general class, RC or BE, is no header error (R107, R111). -/
theorem checkGeneral_general (hv : fld g 14 1 / 16 = 1) (hc : fld g 14 1 / 4 % 4 = 1 ∨ fld g 14 1 / 4 % 4 = 2) :
    checkGeneral p sfd g s =
      if fld g 14 1 % 4 ≠ p.line.code then countBb p 0x38 s
      else if !(neighAt s p).member then countBb p 0x40 s
      else if 127 ≤ fld g 16 1 then countBb p 0x48 s
      else epochGeneral p sfd g s :=
  if_neg (by omega)

theorem checkGeneral_otherLine (hv : fld g 14 1 / 16 = 1) (hc : fld g 14 1 / 4 % 4 = 1 ∨ fld g 14 1 / 4 % 4 = 2)
    (hl : fld g 14 1 % 4 ≠ p.line.code) : checkGeneral p sfd g s = countBb p 0x38 s := by
  rw [checkGeneral_general hv hc, if_pos hl]

/-- A frame of the epoch in force from a member link is routed with the verdict of its window. -/
theorem checkGeneral_current (hv : fld g 14 1 / 16 = 1) (hc : fld g 14 1 / 4 % 4 = 1 ∨ fld g 14 1 / 4 % 4 = 2)
    (hl : fld g 14 1 % 4 = p.line.code) (hm : (neighAt s p).member = true) (hh : fld g 16 1 < 127) (he : fld g 15 1 = s.survey.epoch) :
    checkGeneral p sfd g s =
      routeGeneral p sfd (windowAtNode s.survey.epoch (macPos (frSa g)) g (frDa g) s).2 g
        (windowAtNode s.survey.epoch (macPos (frSa g)) g (frDa g) s).1 := by
  have hepoch : epochGeneral p sfd g s =
      routeGeneral p sfd (windowAtNode (fld g 15 1) (macPos (frSa g)) g (frDa g) s).2 g
        (windowAtNode (fld g 15 1) (macPos (frSa g)) g (frDa g) s).1 := if_pos he
  rw [checkGeneral_general hv hc, if_neg (by simp [hl]), if_neg (by simp [hm]), if_neg (by omega), hepoch, he]

/-- A whole frame that reaches an open port in service is checked by its header, after it has counted as received. -/
theorem backboneGeneralRx_checks (hr : running s = true) (hi : inService s (8 + p.idx) = true) (ho : bbOpen s p = true)
    (hmin : 64 ≤ bytes.length) (hmax : bytes.length ≤ 1528) (hf : fcsOf bytes = .good) (hty : nfld (stripFcs bytes) 12 2 = 0x88B6) :
    Does (.backboneGeneralRx p sfd bytes) s fun s =>
      checkGeneral p sfd (stripFcs bytes) (countBb p 0x00 (toLt (sfd + wire10g bytes.length) s)) :=
  (backboneGeneralRx_receives hr hi ho).congr (receiveGeneral_good (by rw [bbOpen_toLt]; exact ho) hmin hmax hf hty)

end

/-! ### GENERAL_EGRESS_START -/

/-- A general frame as it leaves a port: with the port's line in its header and a new FCS (R106, R107). -/
def generalOnWire (p : BPort) (x : BbFrame) : List Byte :=
  withFcs (overwrite x.bytes 14 (byte1 (fld x.bytes 14 1 / 4 * 4 + p.line.code)))

/-- A general frame leaves a port now, and the port is free again when it and the gap after it have passed. -/
def sendGeneral (p : BPort) (x : BbFrame) (s : State) : State :=
  let s := setBb p (fun q => { q with general := q.general.erase x, freeAt := s.clk.lt + wire10g ((generalOnWire p x).length + 20) }) s
  sweepTx (frameStarts x.src (countBb p 0x08 (emit (.backbone p s.clk.lt (generalOnWire p x) .good) s)))

/-- The next general frame leaves when the port is free, where it ends before the next footprint (R247). -/
theorem generalEgressStart_sends {p : BPort} {x : BbFrame} {s : State} (hr : running s = true) (hn : numbered s = true)
    (hm : (neighAt s p).member = true) (ho : bbOpen s p = true) (hx : nextGeneral (bbAt s p) = some x)
    (hout : insideFootprint (toLt (bbAt s p).freeAt (begin_ s)) p = false)
    (hfits : phaseOf (toLt (bbAt s p).freeAt (begin_ s)) (toLt (bbAt s p).freeAt (begin_ s)).clk.lt + wire10g ((generalOnWire p x).length + 20)
      ≤ nextBusy (toLt (bbAt s p).freeAt (begin_ s)) p) :
    Does (.generalEgressStart p) s fun s => sendGeneral p x (toLt (bbAt s p).freeAt s) := by
  have hr' : running (begin_ s) = true := hr
  have hn' : numbered (begin_ s) = true := hn
  have hm' : (neighAt (begin_ s) p).member = true := hm
  have ho' : bbOpen (begin_ s) p = true := ho
  have hx' : nextGeneral (bbAt (begin_ s) p) = some x := hx
  refine does_of rfl ((if_neg (by simp [hr', hn', hm', ho'])).trans ?_)
  simp only [hx']
  refine if_pos ?_
  rw [Bool.and_eq_true]
  exact ⟨(congrArg not hout).trans rfl, decide_eq_true hfits⟩

/-! ### SLICE_DEADLINE -/

theorem sliceDeadline_passes {k : Fin 256} {sc : Int} {d : Nat} {rest : List (Int × Nat)} {s : State} (hr : running s = true)
    (hn : numbered s = true) (hv : vsuCab s k.val = true) (hd : (vsuAt s k.val).dues = (sc, d) :: rest) :
    Does (.sliceDeadline k) s fun s => passDeadline k.val sc (vsuMask s k.val) (toLt d s) := by
  have hr' : running (begin_ s) = true := hr
  have hn' : numbered (begin_ s) = true := hn
  have hv' : vsuCab (begin_ s) k.val = true := hv
  have hd' : (vsuAt (begin_ s) k.val).dues = (sc, d) :: rest := hd
  refine does_of rfl ?_
  simp only [hd', hr', hn', hv', Bool.and_true, if_true]

/-- Settles O52: a chamber begins as the node's part in it says, a general frame goes as far as the first check that it fails, and the next
frame and the next deadline are the first of their queues. -/
theorem chambersAndGeneralFrames : Obligations.ChambersAndGeneralFrames := by
  intro p s hr
  refine ⟨fun start e hn he => chamberStart_begins hr hn he, fun sfd bytes hi ho => ?_,
    fun x hn hm ho hx hout hfits => generalEgressStart_sends hr hn hm ho hx hout hfits,
    fun k sc d rest hn hv hd => sliceDeadline_passes hr hn hv hd⟩
  have hrx := backboneGeneralRx_receives (sfd := sfd) (bytes := bytes) hr hi ho
  refine ⟨fun hl => hrx.congr (receiveGeneral_wrongLength hl), fun hmin hmax hf hty => hrx.congr (receiveGeneral_bad hmin hmax hf hty),
    fun hmin hmax hf hty => hrx.congr (receiveGeneral_marked hmin hmax hf hty), fun hmin hmax hf hty hv hc => ?_⟩
  have hchk := backboneGeneralRx_checks (sfd := sfd) hr hi ho hmin hmax hf hty
  refine ⟨fun hl => hchk.congr (checkGeneral_otherLine hv hc hl), fun hl hm hh he => hchk.congr ?_⟩
  have hm' (n : Nat) : (neighAt (countBb p 0x00 (toLt n (begin_ s))) p).member = true := by
    rw [neighAt_countBb, toLt_neighAt]; exact hm
  refine (checkGeneral_current hv hc hl (hm' _) hh ?_).trans ?_
  · rw [countBb_survey, toLt_survey]; exact he
  · rw [countBb_survey, toLt_survey]
end Sys2Proof.Machine
end

section
/-! PROOFS. The time unit (R132, R135 to R140, R144, R147, R157, R158, R162, R581) and the cab inputs (R169, R170). -/

open Sys2Proof Sys2Proof.Machine

namespace Sys2Proof.Machine

/-! ### Echo messages that arrive -/

section
variable {rx : MgRx} {s : State}

theorem echoAt_setEcho {p : BPort} {f : EchoPort → EchoPort} (h : p.idx < s.echo.length) : echoAt (setEcho p f s) p = f (echoAt s p) := by
  simp [echoAt, setEcho, List.getD, h]

@[simp] theorem arrived_echo (rx : MgRx) (s : State) : (arrived rx s).echo = s.echo := by simp [arrived]

/-- A good Echo message that comes on its own line to a port in service and up passes every check (R31, R111, R134). -/
theorem echoIn_good {act : State → State} (ht : bbTakes s rx.port = true) (hu : (bbAt s rx.port).up = true) (hmin : 64 ≤ rx.length)
    (hmax : rx.length ≤ 1528) (hf : rx.fcs = .good) (hv : rx.version = 1) (hl : rx.line = rx.port.line.code) (hh : rx.hops < 127) :
    echoIn rx act s = act (arrived rx s) := by
  refine (if_neg (by simp [ht, hu])).trans ((if_neg (by omega)).trans ?_)
  simp only [hf, hv, hl, ne_eq, not_true_eq_false, if_false, Nat.not_le.mpr hh]
  rfl

/-- The message is in, and the neighbour's position and state of time are known (R136). -/
def heardEcho (rx : MgRx) (pos : Nat) (sync : BitVec 8) (s : State) : State :=
  setEcho rx.port (fun e => { e with neighPos := pos, neighSync := sync }) (arrived rx s)

/-- What a node does with a good answer to a request that left at `t1` (R137, R138, R147). -/
def takeAnswer (rx : MgRx) (m : EchoResp) (t1 : Nat) (s : State) : State :=
  let v := heardEcho rx m.position m.sync s
  let noted := noteExchange rx.port m t1 rx.sfd v
  if sampleValid v (echoAt v rx.port) m t1 rx.sfd then
    let taken := takeSample rx.port m t1 rx.sfd noted
    if samplesIn taken then coldStep taken else taken
  else noted

theorem heardEcho_t1 {pos : Nat} {sync : BitVec 8} (hi : rx.port.idx < s.echo.length) :
    (echoAt (heardEcho rx pos sync s) rx.port).t1 = (echoAt s rx.port).t1 := by
  rw [heardEcho, echoAt_setEcho (by rwa [arrived_echo]), echoAt, echoAt, arrived_echo]

theorem echoRespRx_takes {m : EchoResp} {t1 : Nat}
    (hin : ∀ act, echoIn rx act (begin_ s) = act (arrived rx (begin_ s)))
    (h1 : (echoAt s rx.port).t1 = some t1) (hi : rx.port.idx < s.echo.length) :
    Does (.echoRespRx rx m) s (takeAnswer rx m t1) := by
  have ht : (echoAt (heardEcho rx m.position m.sync (begin_ s)) rx.port).t1 = some t1 := (heardEcho_t1 (s := begin_ s) hi).trans h1
  refine does_of rfl ((hin _).trans ?_)
  rw [heardEcho] at ht
  simp only [ht]
  rfl

end

/-! ### The servo -/

theorem isReference_toPhase (n : Nat) (s : State) : isReference (toPhase n s) = isReference s := by
  rw [isReference, isReference, toPhase_survey]

/-- The ports whose samples this cycle's update uses are marked as such; position 1 uses none (R167). -/
def markUsed (s : State) : State :=
  { s with echo := s.echo.mapIdx fun i e => { e with used := !isReference s && (servoPorts s).any fun p => p.idx == i } }

theorem isReference_markUsed (s : State) : isReference (markUsed s) = isReference s := rfl

/-- Position 1 is the reference: its S and its U are 0 (R140, R143). -/
def servoReference (s : State) : State :=
  { s with clk := { s.clk with s := 0 }, time := { s.time with uncert := some 0, holdover := false } }

/-- One update of the servo, at the end of the Survey chamber (R140, R143, R144, R146). -/
def servoCycle (s : State) : State :=
  if isReference (markUsed s) then silenceCheck (servoReference (markUsed s))
  else silenceCheck (if (servoPorts s).isEmpty then servoHold (markUsed s) else servoRun (servoPorts s) (markUsed s))

theorem servoUpdate_does {s : State} (hr : running s = true) (hn : numbered s = true) :
    Does .servoUpdate s fun s => servoCycle (toPhase (8000 * unitsPerNs) s) := by
  have hg : (running (begin_ s) && numbered (begin_ s)) = true := by
    rw [Bool.and_eq_true]; exact ⟨hr, hn⟩
  exact does_of rfl (if_neg (by rw [hg]; decide))

section
variable {s : State}

theorem servoCycle_reference (h : isReference s = true) : servoCycle s = silenceCheck (servoReference (markUsed s)) :=
  if_pos h

theorem servoCycle_samples (h : isReference s = false) (hp : servoPorts s ≠ []) :
    servoCycle s = silenceCheck (servoRun (servoPorts s) (markUsed s)) := by
  rw [servoCycle, isReference_markUsed, if_neg (by simp [h]), if_neg (by simpa using hp)]

theorem servoCycle_noSamples (h : isReference s = false) (hp : servoPorts s = []) :
    servoCycle s = silenceCheck (servoHold (markUsed s)) := by
  rw [servoCycle, isReference_markUsed, if_neg (by simp [h]), if_pos (by simp [hp])]

end

/-! ### Calendar time -/

section
variable {rx : MgRx} {m : CalApply} {s : State}

/-- What a node does with a change of calendar time that it is handed (R158). -/
def takeCal (m : CalApply) (s : State) : State :=
  if m.start < ltNs s then
    applyCal m (logEvent 0x25 srcNode (le 4 m.changeId ++ le 4 (sat 32 ((ltNs s - m.start) / 1000))) s)
  else updTime (fun t => { t with calPending := t.calPending ++ [m] }) s

theorem calApplyRx_takes (hw : Whole rx s) (hm : ForMe rx s) :
    Does (.calApplyRx rx m) s fun s => takeCal m (handed rx (.calApply m) s) :=
  does_of rfl (mgIn_handed _ hw hm)

theorem calStart_begins (hr : running s = true) (hm : firstCal s.time.calPending = some m) :
    Does .calStart s fun s =>
      applyCal m (updTime (fun t => { t with calPending := t.calPending.erase m }) (toLt (m.start * unitsPerNs) s)) := by
  have hm' : firstCal (begin_ s).time.calPending = some m := hm
  refine does_of rfl ?_
  simp only [hm']
  exact if_pos hr

theorem calSlewEnd_ends {w : Slew} (hr : running s = true) (hw : s.time.slew = some w) :
    Does .calSlewEnd s fun s =>
      assertEdge 68 (updTime (fun t => { t with calOffset := w.base + w.change, slew := none })
        (toLt ((w.startLt + w.change.natAbs * 5000) * unitsPerNs) s)) := by
  have hw' : (begin_ s).time.slew = some w := hw
  refine does_of rfl ?_
  simp only [hw']
  exact if_pos hr

end

/-! ### GLK_PULSE -/

section
variable {n : Fin 12} {frame : Bool} {s : State}

/-- The guard of a genlock edge: the unit runs and drives an output that is on and that the part has (R161, R162). -/
theorem glkPulse_guard (hr : running s = true) (hm : (glkAt s n).mode ≠ 0) (hd : (glkAt s n).driven = true)
    (hn : n.val < glkOuts s.part.code) :
    (running s && (glkAt s n).mode != 0 && (glkAt s n).driven && decide (n.val < glkOuts s.part.code)) = true := by
  simp [hr, hm, hd, hn]

/-- The choice between two effects, made before or after the state is known. -/
theorem choose_effect (b : Bool) (f g : State → State) (s : State) :
    (if b = true then f s else g s) = (if b = true then f else g) s := by
  cases b <;> rfl

/-- A leading edge waits for the active role and the anchor (R165, R423). -/
theorem glkPulse_leading (hr : running s = true) (hm : (glkAt s n).mode ≠ 0) (hd : (glkAt s n).driven = true)
    (hn : n.val < glkOuts s.part.code) (ha : isActive s = true) (hdue : (glkAt s n).anchorDue = false) :
    Does (.glkPulse n true frame) s (if frame then glkFrameRise n else glkLineRise n) := by
  have hgo : ¬(!isActive (begin_ s) || (glkAt (begin_ s) n).anchorDue) = true := by
    rw [Bool.not_eq_true, Bool.or_eq_false_iff]; exact ⟨congrArg not ha, hdue⟩
  have hg := glkPulse_guard (s := begin_ s) hr hm hd hn
  exact does_of rfl ((if_pos hg).trans ((if_pos rfl).trans ((if_neg hgo).trans (choose_effect _ _ _ _))))

/-- A trailing edge ends the pulse in progress, if there is one (R161, R165). -/
theorem glkPulse_trailing (hr : running s = true) (hm : (glkAt s n).mode ≠ 0) (hd : (glkAt s n).driven = true)
    (hn : n.val < glkOuts s.part.code) :
    Does (.glkPulse n false frame) s fun s => if (glkAt s n).level then glkFall n s else s := by
  have hg := glkPulse_guard (s := begin_ s) hr hm hd hn
  exact does_of rfl ((if_pos hg).trans (if_neg Bool.false_ne_true))

end

/-! ### PLL lock and silence -/

theorem timeSilenceExit_ends {s : State} (hr : running s = true) (hs : s.time.silenced = true) (hq : 16 ≤ s.time.quiet)
    (hl : s.time.timeLock = false) : Does .timeSilenceExit s (updTime fun t => { t with silenced := false }) := by
  have hg : (running s && s.time.silenced && decide (16 ≤ s.time.quiet) && !s.time.timeLock) = true := by
    simp [hr, hs, hq, hl]
  exact does_of rfl (if_pos hg)

/-- U is beyond half the Squeeze, or is not known on a node that needs it (R144). -/
def beyondSqueeze (s : State) : Bool :=
  match s.time.uncert with
  | some u => decide (s.time.squeeze * unitsPerNs / 2 < u)
  | none => numbered s && !isReference s

theorem pllLockRegained_does {s : State} (hr : running s = true) :
    Does .pllLockRegained s fun s =>
      updTime (fun t => { t with pllLocked := true, timeLock := false, silenced := t.silenced && beyondSqueeze s }) s :=
  does_of rfl (if_pos hr)

/-! ### What a change of a cab input leaves of the power unit -/

section
variable (s : State)

@[simp] theorem innerCheck_power : (innerCheck s).power = s.power := by
  simp only [innerCheck]; split <;> simp

@[simp] theorem jnFlood_power (m : MgMsg) : (jnFlood m s).power = s.power := by simp [jnFlood, originate]

@[simp] theorem sendEnd_power (sd : Side) : (sendEnd sd s).power = s.power := by simp [sendEnd, storeEnd]

@[simp] theorem conflictCheck_power : (conflictCheck s).power = s.power := by
  simp only [conflictCheck]; split <;> simp [cabConflict]

theorem foldl_sendEnd_power (l : List Side) : (l.foldl (fun s sd => sendEnd sd s) s).power = s.power := by
  induction l generalizing s with
  | nil => rfl
  | cons sd l ih => rw [List.foldl_cons, ih, sendEnd_power]

@[simp] theorem sendEnds_power : (sendEnds s).power = s.power := by
  rw [sendEnds, conflictCheck_power, foldl_sendEnd_power, updReform_power]

/-- The announcement of a lead change is held, where it is, in the re-forming state alone. -/
theorem holdCutover_lead_power {m : JnCutover} (hm : m.cause = 3) : (holdCutover m s).power = s.power := by
  rw [holdCutover]
  cases s.survey.record with
  | none => rfl
  | some old =>
    simp only [hm]
    refine (congrArg State.power (if_neg (by decide))).trans ?_
    split
    · rfl
    · rw [if_neg (by decide)]
      split <;> rfl

@[simp] theorem leadCheck_power : (leadCheck s).power = s.power := by
  rw [leadCheck]
  cases s.survey.record with
  | none => rfl
  | some old =>
    simp only
    split
    · rw [holdCutover_lead_power _ rfl, jnFlood_power]
    · rfl

@[simp] theorem readyTrack_wakeEn : (readyTrack s).power.wakeEn = s.power.wakeEn := by
  rw [readyTrack]; split <;> rfl

/-- No change of a cab input touches the enables of the wake reasons (R510). -/
theorem cabChanged_wakeEn : (cabChanged s).power.wakeEn = s.power.wakeEn := by
  simp only [cabChanged, readyTrack_wakeEn, leadCheck_power]
  split <;> simp

end

/-! ### CAB_INPUT_CHANGE -/

section
variable {level : Bool} {s : State}

/-- A new level of CAB_ACTIVE that is no wake reason has the effects of a changed cab input only. -/
theorem cabInputChange_active (hr : running s = true) (hc : s.survey.cabActive ≠ level) (hw : level = true → reasonOn s 7 = false) :
    Does (.cabInputChange true level) s fun s =>
      cabChanged (updSurvey (fun v => { v with cabActive := level, cabActiveKnown := true }) s) := by
  refine does_of rfl ((if_pos hr).trans ((if_neg hc).trans (if_neg ?_)))
  cases level with
  | false => simp
  | true => simpa [reasonOn, cabChanged_wakeEn] using hw rfl

theorem cabInputChange_present (hr : running s = true) (hc : s.survey.cabPresent ≠ level) :
    Does (.cabInputChange false level) s fun s =>
      cabChanged (updSurvey (fun v => { v with cabPresent := level, cabPresentKnown := true }) s) :=
  does_of rfl ((if_pos hr).trans ((if_neg hc).trans (if_neg (by simp))))

end

/-- Settles O53: an Echo message is taken as the checks of R111 and R138 find it, the servo as this node's place and samples say, a change
of calendar time by its START, and each edge, slew, lock and cab input on a running node has its effect. -/
theorem timeUnitKeepsTime : Obligations.TimeUnitKeepsTime := by
  intro s hr
  refine ⟨fun p hu hd => ?_, fun rx hi hu hmin hmax hf hv hl hh => ?_, does_of rfl (if_pos hr), fun hn => ?_, fun hs hq hl => ?_,
    fun rx m hw hm => ?_, fun m hm => calStart_begins hr hm, fun w hw => calSlewEnd_ends hr hw, fun n frame hm hd hn => ?_,
    does_of rfl (if_pos hr), ?_, fun level hc hw => cabInputChange_active hr hc hw, fun level hc => cabInputChange_present hr hc⟩
  · have hg : (running s && (bbAt s p).up && echoDue s p) = true := by simp [hr, hu, hd]
    exact does_of rfl (if_pos hg)
  · have ht : bbTakes (begin_ s) rx.port = true := by
      rw [bbTakes, Bool.and_eq_true]; exact ⟨hr, hi⟩
    have hin (act : State → State) : echoIn rx act (begin_ s) = act (arrived rx (begin_ s)) := echoIn_good ht hu hmin hmax hf hv hl hh
    refine ⟨fun m t3 => does_of rfl (hin _), fun m t1 h1 hlen => ?_⟩
    have hans := echoRespRx_takes (m := m) hin h1 hlen
    exact ⟨fun hok => ⟨fun hout => hans.congr ((if_pos hok).trans (if_neg (by rw [Bool.not_eq_true]; exact hout))),
      fun hall => hans.congr ((if_pos hok).trans (if_pos hall))⟩,
      fun hbad => hans.congr (if_neg (by rw [Bool.not_eq_true]; exact hbad))⟩
  · have hsv := servoUpdate_does hr hn
    have href (b : Bool) (h : isReference s = b) : isReference (toPhase (8000 * unitsPerNs) (begin_ s)) = b :=
      (isReference_toPhase _ _).trans h
    exact ⟨fun h => hsv.congr (servoCycle_reference (href _ h)), fun h hp => hsv.congr (servoCycle_samples (href _ h) hp),
      fun h hp => hsv.congr (servoCycle_noSamples (href _ h) hp)⟩
  · exact ⟨_, timeSilenceExit_ends hr hs hq hl, rfl⟩
  · have hcal := calApplyRx_takes (m := m) hw hm
    exact ⟨fun h => hcal.congr (if_neg (Nat.not_lt.mpr h)), fun h => hcal.congr (if_pos h)⟩
  · have hfall := glkPulse_trailing (frame := frame) hr hm hd hn
    exact ⟨fun ha hdue => glkPulse_leading hr hm hd hn ha hdue, fun hlv => hfall.congr (if_pos hlv),
      fun hlv => hfall.congr (if_neg (by rw [Bool.not_eq_true]; exact hlv))⟩
  · exact ⟨_, pllLockRegained_does hr, rfl, rfl, fun h => by
      rw [after_time]
      exact congrArg (· && _) h⟩

end Sys2Proof.Machine
end

section
/-! PROOFS. The messages of the Survey (R172, R175, R186, R190 to R198, R200): what each does at the unit that it is handed to. -/

open Sys2Proof Sys2Proof.Machine

namespace Sys2Proof.Machine

/-! ### The number of a unit -/

/-- What a cut-over gives a unit: its position and epochs, its Survey state, and the setting of its cycles (R196). -/
structure Numbering where
  position : Nat
  epoch : Nat
  lastEpoch : Option Nat
  state : SurveyState
  l : Nat
  hyper : Nat
  squeeze : Nat
  base : Nat

/-- The numbering that a unit holds. -/
def numberingOf (s : State) : Numbering :=
  { position := s.survey.position, epoch := s.survey.epoch, lastEpoch := s.survey.lastEpoch, state := s.survey.state,
    l := s.time.l, hyper := s.time.hyper, squeeze := s.time.squeeze, base := s.time.base }

theorem numberingOf_congr {s t : State} (hs : t.survey = s.survey) (ht : t.time = s.time) : numberingOf t = numberingOf s := by
  rw [numberingOf, hs, ht, numberingOf]

theorem numbered_of_numberingOf {s t : State} (h : numberingOf t = numberingOf s) : numbered t = numbered s :=
  congrArg (fun n : Numbering => n.position != 0) h

theorem epoch_of_numberingOf {s t : State} (h : numberingOf t = numberingOf s) : t.survey.epoch = s.survey.epoch :=
  congrArg Numbering.epoch h

/-! What records, asserts or sends something leaves the numbering. -/

section
variable (s : State)

@[simp] theorem numberingOf_assertEdge (id : Nat) : numberingOf (assertEdge id s) = numberingOf s :=
  numberingOf_congr (assertEdge_survey id s) (assertEdge_time id s)

@[simp] theorem numberingOf_logEvent (code : Nat) (src : BitVec 10) (data : List Byte) :
    numberingOf (logEvent code src data s) = numberingOf s :=
  numberingOf_congr (logEvent_survey code src data s) (logEvent_time code src data s)

@[simp] theorem numberingOf_setNeigh (p : BPort) (f : NeighPort → NeighPort) : numberingOf (setNeigh p f s) = numberingOf s := rfl

@[simp] theorem numberingOf_queueMg (ports : List BPort) (f : MgFrame) : numberingOf (queueMg ports f s) = numberingOf s :=
  numberingOf_congr (queueMg_survey ports f s) (queueMg_time ports f s)

@[simp] theorem numberingOf_floodMg (m : MgMsg) : numberingOf (floodMg m s) = numberingOf s := by
  rw [floodMg, numberingOf_queueMg]; rfl

@[simp] theorem numberingOf_applyLink (pos : Nat) (links : BitVec 8) : numberingOf (applyLink pos links s) = numberingOf s := by
  rw [applyLink, numberingOf_assertEdge]; rfl

@[simp] theorem numberingOf_memberChange (p : BPort) (up : Bool) : numberingOf (memberChange p up s) = numberingOf s := by
  simp only [memberChange, numberingOf_applyLink, numberingOf_floodMg, numberingOf_setNeigh]

@[simp] theorem numberingOf_dropMember (p : BPort) : numberingOf (dropMember p s) = numberingOf s := by
  rw [dropMember]; split
  · exact numberingOf_memberChange s p false
  · rfl

@[simp] theorem numberingOf_splitCheck (sd : Side) : numberingOf (splitCheck sd s) = numberingOf s := by
  simp only [splitCheck]
  split
  · split
    · rw [numberingOf_logEvent, numberingOf_setNeigh, numberingOf_dropMember]
    · rfl
  · rfl

end

/-! ### A message that is handed to the unit -/

section
variable {rx : MgRx} {s : State}

theorem handed_survey (rx : MgRx) (m : MgMsg) (s : State) : (handed rx m s).survey = s.survey := (handed_fields rx m s).1

/-- A message that arrives whole and is the unit's to act on has the effect that its command gives it. -/
theorem does_handed {i : Instr} {m : MgMsg} {act f : State → State} (hw : Whole rx s) (hm : ForMe rx s)
    (hi : exec i s = run (mgIn rx m act) s) (h : act (handed rx m (begin_ s)) = f (begin_ s)) : Does i s f :=
  does_of hi ((mgIn_handed act hw hm).trans h)

/-- A message of the unit's own round makes it adopt no other (R182): what passes the command's test in that round has its effect. -/
theorem does_inRound {i : Instr} {m : MgMsg} {r : BitVec 16} {test : State → Bool} {act : State → State} (hw : Whole rx s)
    (hm : ForMe rx s) (hr : r = s.survey.round) (ht : test (handed rx m (begin_ s)) = true)
    (hi : exec i s = run (mgIn rx m fun s => if test (adoptRound r s) then act (adoptRound r s) else adoptRound r s) s) :
    Does i s fun s => act (handed rx m s) := by
  have hadopt : adoptRound r (handed rx m (begin_ s)) = handed rx m (begin_ s) := adopt_self (by rw [handed_survey]; exact hr)
  exact does_handed hw hm hi (by simp only [hadopt, ht, if_true])

theorem inRound_handed (hs : surveying s = true) {r : BitVec 16} (hr : r = s.survey.round) (rx : MgRx) (m : MgMsg) :
    inRound (handed rx m (begin_ s)) r = true := by
  have hs' : surveying (handed rx m (begin_ s)) = true := by rw [surveying, handed_survey]; exact hs
  rw [inRound, hs', handed_survey]
  exact beq_iff_eq.mpr hr

theorem surveying_of_counted (h : s.survey.state = .counted) : surveying s = true := by rw [surveying, h]

/-! ### Claims and the count -/

/-- A claim is stored, relayed, and decided on with the unit's own (R186). -/
def takeClaim (rx : MgRx) (m : SvClaim) (s : State) : State := decideClaim (relayClaim rx m (storeClaim rx.port.side m s))

theorem svClaimRx_takes {m : SvClaim} (hw : Whole rx s) (hm : ForMe rx s) (hs : surveying s = true) (hr : m.round = s.survey.round) :
    Does (.svClaimRx rx m) s fun s => takeClaim rx m (handed rx (.svClaim m) s) :=
  does_inRound (test := fun s => inRound s m.round) hw hm hr (inRound_handed hs hr rx _) rfl

/-- The unit takes the position that the count names for it, with its headward side, and counts on; under IN_VEHICLE that is the
position after the entries (R190, R191; log 75). -/
def takeCount (rx : MgRx) (m : SvCount) (s : State) : State :=
  countOn rx.port.side m.inVehicle m (updSurvey (fun v => { v with
    headSide := some rx.port.side, pendingPos := some (if m.inVehicle then m.entries.length + 1 else m.next), state := .counted,
    countedCycles := 0 }) s)

/-- LISTEN, SETTLED and CLAIM are the states in which a unit takes a count (R190). -/
def mayBeCounted (s : State) : Bool := s.survey.state == .listen || s.survey.state == .settled || s.survey.state == .claim

theorem svCountRx_takes {m : SvCount} (hw : Whole rx s) (hm : ForMe rx s)
    (hst : s.survey.state = .listen ∨ s.survey.state = .settled ∨ s.survey.state = .claim) (hr : m.round = s.survey.round) :
    Does (.svCountRx rx m) s fun s => takeCount rx m (handed rx (.svCount m) s) := by
  have hs : surveying s = true ∧ mayBeCounted s = true := by
    rcases hst with h | h | h <;> simp [surveying, mayBeCounted, h]
  refine does_inRound (test := fun s => inRound s m.round && mayBeCounted s) hw hm hr ?_ rfl
  rw [inRound_handed hs.1 hr, mayBeCounted, handed_survey]
  exact hs.2

/-! ### The record and the commit -/

/-- A unit in COUNTED stores the record; the head commits to it, any other unit relays its first copy (R192, R195). -/
def takeRecord (rx : MgRx) (m : SvRecord) (s : State) : State :=
  let x : Relayed := { mtype := 0x0104, origin := m.headOrigin, round := m.round }
  let s := updSurvey (fun v => { v with stored := some m.record, commitDue := v.isHead }) s
  if s.survey.isHead || !relayOnce x s then s else sendSurvey rx.port.side.other (.svRecord m) (markRelayed x s)

theorem svRecordRx_takes {m : SvRecord} (hw : Whole rx s) (hm : ForMe rx s) (hst : s.survey.state = .counted)
    (hr : m.round = s.survey.round) (hn : s.survey.stored = none) :
    Does (.svRecordRx rx m) s fun s => takeRecord rx m (handed rx (.svRecord m) s) := by
  refine does_inRound (test := fun s => inRound s m.round && s.survey.state == .counted && s.survey.stored.isNone) hw hm hr ?_ rfl
  rw [inRound_handed (surveying_of_counted hst) hr, handed_survey, begin__survey, hst, hn]; rfl

theorem takeRecord_head {m : SvRecord} (h : s.survey.isHead = true) :
    takeRecord rx m s = updSurvey (fun v => { v with stored := some m.record, commitDue := v.isHead }) s :=
  if_pos (by rw [updSurvey_survey, h]; rfl)

theorem takeRecord_other {m : SvRecord} (h : s.survey.isHead = false)
    (hfirst : relayOnce { mtype := 0x0104, origin := m.headOrigin, round := m.round } s = true) :
    takeRecord rx m s = sendSurvey rx.port.side.other (.svRecord m) (markRelayed { mtype := 0x0104, origin := m.headOrigin, round := m.round }
      (updSurvey (fun v => { v with stored := some m.record, commitDue := v.isHead }) s)) := by
  rw [relayOnce] at hfirst
  refine if_neg ?_
  rw [relayOnce, updSurvey_survey, h, hfirst]; decide

/-- The first copy of a commit goes on tailward (R172, R196). -/
def relayCommit (rx : MgRx) (m : SvCommit) (s : State) : State :=
  let x : Relayed := { mtype := 0x0105, origin := m.headOrigin, round := m.round }
  if relayOnce x s then sendSurvey rx.port.side.other (.svCommit m) (markRelayed x s) else s

/-- A commit that matches the stored record is held, any other one begins a round (R196). -/
def judgeCommit (m : SvCommit) (s : State) : State :=
  if commitMatches m s then updSurvey (fun v => { v with commit := some m }) s
  else enterRound (s.survey.round + 1) (logEvent 0x39 srcNode (le 4 m.crc.toNat) s)

theorem svCommitRx_takes {m : SvCommit} (hw : Whole rx s) (hm : ForMe rx s) (hst : s.survey.state = .counted)
    (hr : m.round = s.survey.round) (hn : s.survey.commit = none) :
    Does (.svCommitRx rx m) s fun s => judgeCommit m (relayCommit rx m (handed rx (.svCommit m) s)) := by
  refine does_inRound (test := fun s => inRound s m.round && s.survey.state == .counted && s.survey.commit.isNone)
    (act := fun s => judgeCommit m (relayCommit rx m s)) hw hm hr ?_ rfl
  rw [inRound_handed (surveying_of_counted hst) hr, handed_survey, begin__survey, hst, hn]; rfl

/-- A Survey message that is sent takes a sequence number and leaves the rest of the Survey (R116). -/
@[simp] theorem sendSurvey_survey (sd : Side) (m : MgMsg) (s : State) :
    (sendSurvey sd m s).survey = { s.survey with mgSeq := s.survey.mgSeq + 1 } := by
  rw [sendSurvey, linkMg, queueMg_survey]

theorem relayCommit_stored (m : SvCommit) (s : State) : (relayCommit rx m s).survey.stored = s.survey.stored := by
  simp only [relayCommit]; split
  · rw [sendSurvey_survey]; rfl
  · rfl

theorem relayCommit_round (m : SvCommit) (s : State) : (relayCommit rx m s).survey.round = s.survey.round := by
  simp only [relayCommit]; split
  · rw [sendSurvey_survey]; rfl
  · rfl

theorem commitMatches_handed (m : SvCommit) (s : State) :
    commitMatches m (relayCommit rx m (handed rx (.svCommit m) (begin_ s))) = commitMatches m s := by
  rw [commitMatches, relayCommit_stored, handed_survey]; rfl

/-! ### Messages that a numbered unit takes -/

theorem numberingOf_handed (rx : MgRx) (m : MgMsg) (s : State) : numberingOf (handed rx m s) = numberingOf s :=
  numberingOf_congr (handed_survey rx m s) (handed_fields rx m s).2.2.2.2.2.1

/-- The neighbour's row holds what its SV_HELLO says, and the line B port is compared with the line A port (R175, R180). -/
def noteHello (rx : MgRx) (m : SvHello) (s : State) : State :=
  splitCheck rx.port.side (setNeigh rx.port (fun n => { n with hello := some m, epoch := rx.epoch }) s)

theorem numberingOf_noteHello (rx : MgRx) (m : SvHello) (s : State) : numberingOf (noteHello rx m s) = numberingOf s := by
  rw [noteHello, numberingOf_splitCheck, numberingOf_setNeigh]

theorem svHelloRx_notes {m : SvHello} (hw : Whole rx s) (hm : ForMe rx s) (hn : numbered s = true) (he : rx.epoch = s.survey.epoch) :
    Does (.svHelloRx rx m) s fun s => noteHello rx m (handed rx (.svHello m) s) := by
  have hkeep : numberingOf (noteHello rx m (handed rx (.svHello m) (begin_ s))) = numberingOf s :=
    (numberingOf_noteHello ..).trans (numberingOf_handed ..)
  have hn' := (numbered_of_numberingOf hkeep).trans hn
  have he' := (epoch_of_numberingOf hkeep).trans he.symm
  refine does_handed hw hm rfl ((if_pos hn').trans (if_neg ?_))
  rw [Bool.and_eq_true, bne_iff_ne]
  exact fun h => h.2 he'.symm

theorem numbered_handed (hn : numbered s = true) (rx : MgRx) (m : MgMsg) : numbered (handed rx m (begin_ s)) = true :=
  (numbered_of_numberingOf (numberingOf_handed rx m (begin_ s))).trans hn

theorem svRestartRx_givesUp {round : BitVec 16} (hw : Whole rx s) (hm : ForMe rx s) (hn : numbered s = true) :
    Does (.svRestartRx rx round) s fun s => giveUp round (handed rx (.svRestart round) s) :=
  does_handed hw hm rfl (if_pos (numbered_handed hn rx _))

theorem svLinkRx_applies {m : SvLink} (hw : Whole rx s) (hm : ForMe rx s) (hn : numbered s = true) :
    Does (.svLinkRx rx m) s fun s => applyLink m.position m.links (handed rx (.svLink m) s) :=
  does_handed hw hm rfl (if_pos (numbered_handed hn rx _))

end

/-- Settles O46: in the unit's own round each Survey message passes its test and is taken as the state says; a numbered unit notes a hello
of its epoch, gives up its position, or applies the links. -/
theorem surveyMessagesHaveTheirEffect : Obligations.SurveyMessagesHaveTheirEffect := by
  intro rx s hw hm
  refine ⟨fun m hs hr => svClaimRx_takes hw hm hs hr, fun m hst hr => svCountRx_takes hw hm hst hr, fun m hst hr hn => ?_,
    fun m hst hr hn => ?_, fun m hn he => svHelloRx_notes hw hm hn he, fun round hn => svRestartRx_givesUp hw hm hn,
    fun m hn => svLinkRx_applies hw hm hn⟩
  · have htake := svRecordRx_takes hw hm hst hr hn
    have hsv : (handed rx (.svRecord m) (begin_ s)).survey = s.survey := handed_survey ..
    refine ⟨fun hh => htake.congr (takeRecord_head (by rw [hsv]; exact hh)),
      fun hh hfirst => htake.congr (takeRecord_other (by rw [hsv]; exact hh) ?_)⟩
    rw [relayOnce, hsv]; exact hfirst
  · have htake := svCommitRx_takes hw hm hst hr hn
    refine ⟨fun hc => htake.congr (if_pos ((commitMatches_handed m s).trans hc)), fun hc => htake.congr ((if_neg ?_).trans ?_)⟩
    · rw [commitMatches_handed, hc]; decide
    · rw [relayCommit_round, handed_survey]; rfl

end Sys2Proof.Machine
end

section
/-! PROOFS. What the Survey does by itself (R147, R174, R183, R188, R197, R198, R205, R235, R236), and the cut-over that numbers a unit
(R196). -/

open Sys2Proof Sys2Proof.Machine

namespace Sys2Proof.Machine

/-! ### Hellos and queued frames -/

section
variable {p : BPort} {s : State}

theorem helloDue_of_none (hph : phaseOf s s.clk.lt ≤ 3200 * unitsPerNs) (hh : (neighAt s p).helloLt = none) : helloDue s p = true := by
  rw [helloDue, decide_eq_true hph, hh]; rfl

/-- SV_HELLO leaves a port at its instant of the Survey chamber (R133, R174). -/
def sendHello (p : BPort) (s : State) : State :=
  let u := toPhase (3200 * unitsPerNs) s
  let u := setNeigh p (fun n => { n with helloLt := some u.clk.lt }) u
  emitMg p (.svHello (helloOf u p)) u

theorem svHelloSend_sends (hr : running s = true) (ho : bbOpen s p = true) (hb : s.survey.state ≠ .boot)
    (hph : phaseOf s s.clk.lt ≤ 3200 * unitsPerNs) (hh : (neighAt s p).helloLt = none) : Does (.svHelloSend p) s (sendHello p) := by
  have hr' : running (begin_ s) = true := hr
  have ho' : bbOpen (begin_ s) p = true := ho
  have hd' : helloDue (begin_ s) p = true := helloDue_of_none (s := begin_ s) hph hh
  refine does_of rfl (if_pos ?_)
  rw [hr', ho', hd', begin__survey, Bool.and_true, bne_iff_ne.mpr hb]; rfl

/-- A frame leaves the head of a port's queue at an instant, and the wire is taken for its time (R236). -/
def startFrame (p : BPort) (f : MgFrame) (rest : List MgFrame) (t : Nat) (s : State) : State :=
  sweepTimeSets (countBb p 0x08 (emit (.mg p f) (setBb p (fun b => { b with mg := rest, freeAt := t + mgWire f.msg }) (toLt t s))))

/-- At an unnumbered unit a frame of no epoch starts as soon as the wire is free (R173; log 42). -/
theorem mgStart_unnumbered {f : MgFrame} (hn : numbered s = false) (he : f.epoch = 0xFF) :
    mgStart s p f = some (max s.clk.lt (bbAt s p).freeAt) :=
  if_pos (by rw [hn, he]; rfl)

theorem mgFrameStart_unnumbered {f : MgFrame} {rest : List MgFrame} (hr : running s = true) (hq : (bbAt s p).mg = f :: rest)
    (ho : bbOpen s p = true) (hn : numbered s = false) (he : f.epoch = 0xFF) :
    Does (.mgFrameStart p) s fun s => startFrame p f rest (max s.clk.lt (bbAt s p).freeAt) s := by
  have hq' : (bbAt (begin_ s) p).mg = f :: rest := hq
  have hgo : (running (begin_ s) && bbOpen (begin_ s) p) = true := by
    rw [Bool.and_eq_true]; exact ⟨hr, ho⟩
  have hstart := mgStart_unnumbered (s := begin_ s) (p := p) hn he
  refine does_of rfl ?_
  simp only [hq', hgo, hstart, if_true]; rfl

end

/-! ### Settling, claims that stay out, and commits that stay out -/

section
variable {p : BPort} {s : State}

/-- 16 steady cycles settle a unit in LISTEN, or make it claim (R183). -/
theorem settle_steady (hr : running s = true) (hst : s.survey.state = .listen) (hc : 16 ≤ s.survey.settleCycles) :
    Does .settle s fun s =>
      if isEnd s then
        if s.survey.cabActiveKnown && s.survey.cabPresentKnown then
          decideClaim (makeClaims (updSurvey (fun v => { v with state := .claim, claimSent := false, quietPs := s.clk.ps, noEndPs := none }) s))
        else s
      else updSurvey (fun v => { v with state := .settled, quietPs := s.clk.ps, noEndPs := none }) s := by
  have hr' : running (begin_ s) = true := hr
  refine does_of rfl (if_pos ?_)
  rw [hr', begin__survey, hst, decide_eq_true hc]; rfl

theorem noEnd_settled (hr : running s = true) (hst : s.survey.state = .settled) (hq : s.survey.noEndPs = none) :
    Does .noEnd s fun s =>
      logEvent 0x36 srcNode [] (updSurvey (fun v => { v with noEndPs := some (toPs (s.survey.quietPs + 400 * 10 ^ 9) s).clk.ps })
        (toPs (s.survey.quietPs + 400 * 10 ^ 9) s)) := by
  have hr' : running (begin_ s) = true := hr
  refine does_of rfl ((if_pos ?_).trans ?_)
  · rw [hr', begin__survey, hst]; rfl
  · simp only [begin__survey, hq]

theorem countedTimeout_restarts (hr : running s = true) (hst : s.survey.state = .counted) (hn : s.survey.commit = none)
    (hc : 64 ≤ s.survey.countedCycles) : Does .countedTimeout s fun t => enterRound (t.survey.round + 1) t := by
  have hr' : running (begin_ s) = true := hr
  refine does_of rfl (if_pos ?_)
  rw [hr', begin__survey, hst, hn, decide_eq_true hc]; rfl

/-! ### Links, chambers and boundaries -/

theorem memberLinkRegain_regains (hr : running s = true) (hi : innerPort s p = true) (hm : (neighAt s p).member = false)
    (ho : bbOpen s p = true) (hd : (echoAt s p).dValid = true) (hc : 16 ≤ (neighAt s p).regain) :
    Does (.memberLinkRegain p) s (memberChange p true) := by
  have hr' : running (begin_ s) = true := hr
  have hi' : innerPort (begin_ s) p = true := hi
  have ho' : bbOpen (begin_ s) p = true := ho
  have hm' : (neighAt (begin_ s) p).member = false := hm
  have hd' : (echoAt (begin_ s) p).dValid = true := hd
  have hc' : 16 ≤ (neighAt (begin_ s) p).regain := hc
  exact does_of rfl (if_pos (by rw [hr', hi', hm', ho', hd', decide_eq_true hc']; rfl))

theorem linkLost_breaks (hr : running s = true) (hd : 4 ≤ (echoAt s p).dry) :
    Does (.linkLost p) s fun s => breakCheck (setNeigh p (fun n => { n with lost := true }) s) := by
  have hr' : running (begin_ s) = true := hr
  have hd' : 4 ≤ (echoAt (begin_ s) p).dry := hd
  exact does_of rfl (if_pos (by rw [hr', decide_eq_true hd']; rfl))

/-- The duties of a Survey chamber in their order; in the Survey's a claim is sent before it is decided on (R235; log 37). -/
theorem surveyChamberStart_originates (hr : running s = true) (hb : s.survey.state ≠ .boot) :
    Does .surveyChamberStart s fun s => sleepChamber (reformChamber (plannerChamber (surveyChamber (toChamber s)))) := by
  have hr' : running (begin_ s) = true := hr
  exact does_of rfl (if_pos (by rw [hr', begin__survey, bne_iff_ne.mpr hb]; rfl))

/-- An unnumbered unit has stepped forward before the boundary is reached (R147; log 64). -/
theorem cycleBoundary_counts (hr : running s = true) :
    Does .cycleBoundary s fun s => boundaryDuties (coldStep s).time.boundaryDue (reachBoundary (coldStep s)) :=
  does_of rfl (if_pos hr)

end

/-! ### What follows a cut-over leaves the numbering -/

section
variable (s : State)

theorem numberingOf_foldl {α : Type} {f : State → α → State} (hf : ∀ s x, numberingOf (f s x) = numberingOf s) (l : List α) :
    numberingOf (l.foldl f s) = numberingOf s := by
  induction l generalizing s with
  | nil => rfl
  | cons x l ih => rw [List.foldl_cons, ih, hf]

@[simp] theorem numberingOf_finish (c : Cmd) (status result : Nat) : numberingOf (finish c status result s) = numberingOf s :=
  numberingOf_congr (finish_survey c status result s) (finish_time c status result s)

@[simp] theorem numberingOf_consistWaits : numberingOf (consistWaits s) = numberingOf s :=
  numberingOf_foldl s (fun t c => numberingOf_finish t c 0 t.survey.epoch) _

@[simp] theorem numberingOf_updReform (f : Reform → Reform) : numberingOf (updReform f s) = numberingOf s := rfl

@[simp] theorem numberingOf_updPlanner (f : Planner → Planner) : numberingOf (updPlanner f s) = numberingOf s := rfl

@[simp] theorem numberingOf_cutoverRecord (cause : Nat) : numberingOf (cutoverRecord cause s) = numberingOf s := by
  simp only [cutoverRecord, numberingOf_consistWaits, numberingOf_logEvent, numberingOf_assertEdge]

@[simp] theorem numberingOf_cabConflict (count : Nat) : numberingOf (cabConflict count s) = numberingOf s := by
  rw [cabConflict, numberingOf_assertEdge, numberingOf_logEvent]

@[simp] theorem numberingOf_startRound : numberingOf (startRound s) = numberingOf s := rfl

@[simp] theorem numberingOf_stageCold (c : Nat) (cs : Tab Contract) : numberingOf (stageCold c cs s) = numberingOf s := by
  rw [stageCold]; split <;> rfl

@[simp] theorem numberingOf_coldContracts : numberingOf (coldContracts s) = numberingOf s := by
  rw [coldContracts]; split
  · exact numberingOf_stageCold _ _ _
  · rfl

@[simp] theorem numberingOf_innerCheck : numberingOf (innerCheck s) = numberingOf s := by
  simp only [innerCheck]; split
  · exact numberingOf_logEvent _ _ _ _
  · rfl

@[simp] theorem numberingOf_conflictCheck : numberingOf (conflictCheck s) = numberingOf s := by
  simp only [conflictCheck]; split
  · exact numberingOf_cabConflict _ _
  · rfl

@[simp] theorem numberingOf_jnFlood (m : MgMsg) : numberingOf (jnFlood m s) = numberingOf s :=
  numberingOf_queueMg _ _ _

@[simp] theorem numberingOf_sendEnd (sd : Side) : numberingOf (sendEnd sd s) = numberingOf s := by
  rw [sendEnd, storeEnd, numberingOf_updReform, numberingOf_jnFlood]; rfl

@[simp] theorem numberingOf_sendEnds : numberingOf (sendEnds s) = numberingOf s := by
  rw [sendEnds, numberingOf_conflictCheck, numberingOf_foldl _ (fun t sd => numberingOf_sendEnd t sd), numberingOf_updReform]

@[simp] theorem numberingOf_timeSilence : numberingOf (timeSilence s) = numberingOf s := by
  rw [timeSilence]; split
  · rfl
  · exact numberingOf_logEvent _ _ _ _

@[simp] theorem numberingOf_startServo : numberingOf (startServo s) = numberingOf s := by
  simp only [startServo]; split
  · rfl
  · exact numberingOf_timeSilence _

theorem numberingOf_markMembers : numberingOf (markMembers s) = numberingOf s :=
  numberingOf_foldl s (fun t p => numberingOf_setNeigh t p _) _

end

/-! ### The cut-over that numbers a unit -/

/-- The numbering that a commit gives the unit at a position (R196). -/
def committed (c : SvCommit) (pos : Nat) : Numbering :=
  { position := pos, epoch := c.epoch, lastEpoch := some c.epoch, state := .numbered,
    l := c.cycle, hyper := c.hyper, squeeze := c.squeeze, base := c.cutover * unitsPerNs }

/-- The unit takes its cycles, its position and its record from a commit, and starts its servo (R148, R187, R196). -/
def takeNumber (c : SvCommit) (r : Record) (pos : Nat) (head : Side) (s : State) : State :=
  let conflict := claimsConflict s
  let s := takeCycle c.cycle c.hyper c.squeeze (c.cutover * unitsPerNs) s
  let s := takePosition pos c.epoch head { r with epoch := c.epoch, cutover := c.cutover } s
  updSurvey (fun v => { v with aliasLeft := 0, aliasMap := [], conflict := conflict }) (startServo s)

/-- Nothing of an earlier consist is left: re-forming, Gallery, planner and VSU start anew (R196, R286). -/
def freshConsist (c : SvCommit) (s : State) : State :=
  { s with
    reform := { serial := s.reform.serial }
    gallery := { ingress := s.gallery.ingress, lastSwap := some (cycleNow s), retHyper := c.hyper }
    planner := freshPlanner s (cycleNow s)
    store := { s.store with videoDue := true }
    vsu := [] }

/-- What the unit records and sends once it is numbered (R187, R196, R210, R263, R287). -/
def reportNumber (c : SvCommit) (pos : Nat) (conflict : Bool) (s : State) : State :=
  let s := cutoverRecord 0 (startRound (updPlanner (fun p => { p with digest := ownDigest s }) s))
  let s := logEvent 0x38 (srcPos pos) (byte1 c.epoch ++ byte1 (consistCount s)) s
  let s := if conflict then cabConflict (consistCount s) s else s
  sendEnds (innerCheck (coldContracts s))

theorem numberingOf_takeNumber (c : SvCommit) (r : Record) (pos : Nat) (head : Side) (s : State) :
    numberingOf (takeNumber c r pos head s) = committed c pos := by
  have hplaced (r' : Record) :
      numberingOf (startServo (takePosition pos c.epoch head r' (takeCycle c.cycle c.hyper c.squeeze (c.cutover * unitsPerNs) s)))
        = committed c pos := by
    rw [numberingOf_startServo, takePosition, numberingOf_markMembers]; rfl
  exact hplaced _

theorem numberingOf_reportNumber (c : SvCommit) (pos : Nat) (conflict : Bool) (s : State) :
    numberingOf (reportNumber c pos conflict s) = numberingOf s := by
  rw [reportNumber, numberingOf_sendEnds, numberingOf_innerCheck, numberingOf_coldContracts]
  cases conflict <;> simp

theorem numberingCutover_does {s : State} {c : SvCommit} {r : Record} {pos : Nat} {head : Side} (hr : running s = true)
    (hc : s.survey.commit = some c) (hs : s.survey.stored = some r) (hp : s.survey.pendingPos = some pos)
    (hh : s.survey.headSide = some head) (hst : s.survey.state = .counted) (hcrc : r.crc = c.crc) :
    Does .numberingCutover s fun s =>
      let u := toLt (c.cutover * unitsPerNs) s
      reportNumber c pos (claimsConflict u) (freshConsist c (takeNumber c r pos head u)) := by
  have hr' : running (begin_ s) = true := hr
  have hgo : (running (begin_ s) && (begin_ s).survey.state == .counted && r.crc == c.crc) = true := by
    simp [hr', hst, hcrc]
  refine does_of rfl ?_
  simp only [begin__survey, hc, hs, hp, hh]
  exact if_pos hgo

/-- The unit has the numbering of the commit after its cut-over (R196). -/
theorem numberingCutover_numbers {s : State} {c : SvCommit} {r : Record} {pos : Nat} {head : Side} (hr : running s = true)
    (hc : s.survey.commit = some c) (hs : s.survey.stored = some r) (hp : s.survey.pendingPos = some pos)
    (hh : s.survey.headSide = some head) (hst : s.survey.state = .counted) (hcrc : r.crc = c.crc) :
    Completes .numberingCutover s fun t => numberingOf t = committed c pos :=
  ⟨_, numberingCutover_does hr hc hs hp hh hst hcrc,
    (numberingOf_congr (after_survey _ s) (after_time _ s)).trans
      ((numberingOf_reportNumber _ _ _ _).trans (numberingOf_takeNumber c r pos head _))⟩

/-- Settles O47: each of these steps passes its guard at the instant that the state shows, and the numbering that a cut-over gives stands
through all that follows it in the same command. -/
theorem surveyStepsInTime : Obligations.SurveyStepsInTime := by
  intro p s hr
  refine ⟨fun ho hb hph hh => svHelloSend_sends hr ho hb hph hh, fun f rest hq ho hn he => mgFrameStart_unnumbered hr hq ho hn he,
    fun hst hc he => ?_, fun hst hc he ha hp => ?_, fun hst hq => noEnd_settled hr hst hq,
    fun hst hn hc => countedTimeout_restarts hr hst hn hc, fun hi hm ho hd hc => memberLinkRegain_regains hr hi hm ho hd hc,
    fun hd => linkLost_breaks hr hd, fun hb => surveyChamberStart_originates hr hb, cycleBoundary_counts hr,
    fun c r pos head hc hs hp hh hst hcrc => ?_⟩
  · have he' : isEnd (begin_ s) = false := he
    exact (settle_steady hr hst hc).congr (if_neg (by rw [he']; decide))
  · have hknown : ((begin_ s).survey.cabActiveKnown && (begin_ s).survey.cabPresentKnown) = true := by
      rw [Bool.and_eq_true]; exact ⟨ha, hp⟩
    exact (settle_steady hr hst hc).congr ((if_pos he).trans (if_pos hknown))
  · obtain ⟨t, ht, hnum⟩ := numberingCutover_numbers hr hc hs hp hh hst hcrc
    simp only [numberingOf, committed, Numbering.mk.injEq] at hnum
    obtain ⟨hpos, hep, hlast, hstate, hl, hhy, hsq, hbase⟩ := hnum
    exact ⟨t, ht, hpos, hep, hlast, hstate, hl, hhy, hsq, hbase⟩

end Sys2Proof.Machine
end

section
/-! PROOFS. What re-forming does by itself (R200, R210, R217, R221 to R224, R257). -/

open Sys2Proof Sys2Proof.Machine

namespace Sys2Proof.Machine

/-! ### The ends -/

theorem jnEndTimer_sends {s : State} (hr : running s = true) (hn : numbered s = true) (he : endSides s ≠ []) :
    Does .jnEndTimer s fun s => sendEnds (toPs (s.reform.endPs + 10 ^ 13) s) := by
  have hr' : running (begin_ s) = true := hr
  have hn' : numbered (begin_ s) = true := hn
  have he' : endSides (begin_ s) ≠ [] := he
  exact does_of rfl (if_pos (by rw [hr', hn', bne_iff_ne.mpr he']; rfl))

/-! ### Shadow plans -/

/-- The SHADOW of the plan named first is complete, else that of a re-forming that may have one (R257, R266). -/
def completePlan (s : State) : State :=
  match nextShadow s, s.reform.pending with
  | some g, _ => if s.gallery.shadowComplete && !s.reform.shadowDone then s else completeShadow g s
  | none, some p => if s.reform.shadowDone ∨ (p.cause = 1 ∧ !s.reform.contractsHeld) then s else reformShadow p s
  | none, none => s

section
variable {s : State}

theorem shadowPlanDone_completes (hr : running s = true) (hn : numbered s = true) (hret : s.gallery.retiringHeld = false) :
    Does .shadowPlanDone s completePlan := by
  have hr' : running (begin_ s) = true := hr
  have hn' : numbered (begin_ s) = true := hn
  exact does_of rfl (if_neg (by rw [hr', hn', begin__gallery, hret]; decide))

theorem nextShadow_of_no_stage (h : s.planner.staged = []) : nextShadow s = none := by
  rw [nextShadow, h]; rfl

theorem nextShadow_of_beforeCut {g : Stage} {rest : List Stage} (h : s.planner.staged = g :: rest) (hb : beforeCut s g = true) :
    nextShadow s = some g := by
  rw [nextShadow, h]
  exact Option.filter_some_pos hb

/-- A pending record whose contracts are held gets its plan where no other plan is named before it (R217). -/
theorem completePlan_reform {p : Pending} (hp : s.reform.pending = some p) (hst : s.planner.staged = []) (hd : s.reform.shadowDone = false)
    (hc : p.cause = 1 → s.reform.contractsHeld = true) : completePlan s = reformShadow p s := by
  rw [completePlan, nextShadow_of_no_stage hst, hp]
  refine if_neg ?_
  rintro (h | ⟨h1, h2⟩)
  · rw [hd] at h; cases h
  · rw [hc h1] at h2; cases h2

theorem completePlan_stage {g : Stage} {rest : List Stage} (hst : s.planner.staged = g :: rest) (hb : beforeCut s g = true)
    (hs : s.gallery.shadowComplete = false) : completePlan s = completeShadow g s := by
  rw [completePlan, nextShadow_of_beforeCut hst hb]
  exact if_neg (by rw [hs]; exact Bool.false_ne_true)

/-! ### The cut-over -/

/-- At the cut-over a unit changes over with the announced record, and gives up its position with another one (R200, R223). -/
theorem cutover_does {m : JnCutover} {p : Pending} (hr : running s = true) (hn : numbered s = true)
    (hm : s.reform.cutover = some m) (hp : s.reform.pending = some p) :
    Does .cutover s fun s => sleepCutover
      (if p.record.crc = m.crc ∧ p.cause = m.cause then changeOver p m (toLt (ownCut s m) s) else failOver m (toLt (ownCut s m) s)) := by
  have hgo : ¬(!(running (begin_ s) && numbered (begin_ s))) = true := by
    have hr' : running (begin_ s) = true := hr
    have hn' : numbered (begin_ s) = true := hn
    rw [hr', hn']; decide
  refine does_of rfl ?_
  simp only [begin__reform, hm]
  refine (if_neg hgo).trans ?_
  simp only [toLt_reform, begin__reform, hp]

theorem failOver_toLt (m : JnCutover) (n : Nat) (s : State) :
    failOver m (toLt n s) = giveUp (s.survey.round + 1) (logEvent 0x39 srcNode (le 4 m.crc.toNat) (toLt n s)) := by
  rw [failOver, toLt_survey]

/-! ### The end of aliasing -/

/-- Nothing of the previous epoch is left in the Survey, and the rest of it stays (R224). -/
theorem aliasEnd_survey (hn : numbered s = true) (he : s.survey.prevEpoch ≠ 0xFF) (ha : s.survey.aliasLeft ≤ 1) :
    Completes .aliasEnd s fun t =>
      t.survey = { s.survey with aliasLeft := 0, prevRecord := none, prevEpoch := 0xFF, aliasMap := [] } := by
  have hgo : (numbered (begin_ s) && (begin_ s).survey.prevEpoch != 0xFF && decide ((begin_ s).survey.aliasLeft ≤ 1)) = true := by
    have hn' : numbered (begin_ s) = true := hn
    rw [hn', begin__survey, bne_iff_ne.mpr he, decide_eq_true ha]; rfl
  have hwait (n : Nat) : (if s.survey.aliasLeft = 1 then toLt n (begin_ s) else begin_ s).survey = s.survey := by
    split
    · exact toLt_survey n (begin_ s)
    · rfl
  refine completes_of rfl ((after_survey _ s).trans ((congrArg State.survey (if_pos hgo)).trans ?_))
  exact congrArg (fun v : Survey => { v with aliasLeft := 0, prevRecord := none, prevEpoch := 0xFF, aliasMap := [] }) (hwait _)

end

/-- Settles O49: the plan that may be shadowed is the first one named or that of the re-forming; the cut-over asks whether the record
held is the announced one; the end of aliasing clears the previous epoch alone. -/
theorem reformStepsInTime : Obligations.ReformStepsInTime := by
  intro s hr hn
  refine ⟨fun he => jnEndTimer_sends hr hn he, fun p hp hst hret hd hc => ?_, fun g rest hst hb hret hs => ?_,
    fun m p hm hp h1 h2 => ?_, fun m p hm hp hne => ?_, fun he ha => ?_⟩
  · exact (shadowPlanDone_completes hr hn hret).congr (completePlan_reform (s := begin_ s) hp hst hd hc)
  · exact (shadowPlanDone_completes hr hn hret).congr (completePlan_stage (s := begin_ s) hst hb hs)
  · exact (cutover_does hr hn hm hp).congr (congrArg sleepCutover (if_pos ⟨h1, h2⟩))
  · exact (cutover_does hr hn hm hp).congr (congrArg sleepCutover ((if_neg hne).trans (failOver_toLt m _ _)))
  · obtain ⟨t, ht, hsv⟩ := aliasEnd_survey hn he ha
    exact ⟨t, ht, by simp only [hsv, and_self]⟩

end Sys2Proof.Machine
end

section
/-! PROOFS. The re-forming messages (R207, R210 to R212, R215, R218 to R220, R227, R231): what the first copy of each does at the unit that
it is handed to. -/

open Sys2Proof Sys2Proof.Machine

namespace Sys2Proof.Machine

/-! ### What handing on and relaying leave -/

section
variable (rx : MgRx) (h : JnHead) (m : MgMsg) (s : State)

/-- Of the Survey a message that is handed to the unit changes the list of the copies that have been seen (R172). -/
theorem handedJn_survey : (handedJn rx h m s).survey =
    { s.survey with relayed := { mtype := mgType m, origin := h.origin, round := h.serial } :: s.survey.relayed } :=
  congrArg (fun v : Survey => { v with relayed := { mtype := mgType m, origin := h.origin, round := h.serial } :: v.relayed })
    (handed_survey rx m s)

@[simp] theorem handedJn_reform : (handedJn rx h m s).reform = s.reform := by
  rw [handedJn, markRelayed_reform]; simp only [handed_fields]

@[simp] theorem handedJn_twin : (handedJn rx h m s).twin = s.twin := by
  rw [handedJn, markRelayed_twin]; simp only [handed_fields]

@[simp] theorem handedJn_epoch : (handedJn rx h m s).survey.epoch = s.survey.epoch := by rw [handedJn_survey]

@[simp] theorem isReference_handedJn : isReference (handedJn rx h m s) = isReference s := by
  rw [isReference, handedJn_survey, isReference]

@[simp] theorem isActive_handedJn : isActive (handedJn rx h m s) = isActive s := by rw [isActive, handedJn_twin, isActive]

@[simp] theorem isJoining_handedJn : isJoining (handedJn rx h m s) = isJoining s := by rw [isJoining, handedJn_reform, isJoining]

@[simp] theorem jnRelay_survey : (jnRelay rx m s).survey = s.survey := jnMg_survey _ m s

@[simp] theorem jnRelay_reform : (jnRelay rx m s).reform = s.reform := jnMg_reform _ m s

/-- A relayed message leaves the epoch against which its EPOCH is held. -/
theorem epoch_jnRelay_handedJn : (jnRelay rx m (handedJn rx h m s)).survey.epoch = s.survey.epoch := by
  rw [jnRelay_survey, handedJn_epoch]

end

/-! ### Offers that are not decided on -/

/-- An offer is not decided on across a side that leads to the unit's own consist, while another re-forming is under way, or where this
pair of counts was refused (R204, R211, R213, R231). -/
def declinesOffer (m : JnOffer) (sd : Side) (s : State) : Bool :=
  hasSide s sd || !idleReform s || s.reform.refused == some (sd, consistCount s, m.entries.length)

/-! The consist and its ends are read from the Survey. -/

theorem consistCount_congr {s t : State} (h : t.survey = s.survey) : consistCount t = consistCount s := by
  simp only [consistCount, numbered_congr h, h]

theorem hasSide_congr {s t : State} (h : t.survey = s.survey) (sd : Side) : hasSide t sd = hasSide s sd := by
  simp only [hasSide, innerPort, numbered_congr h, consistCount_congr h, h]

theorem declinesOffer_congr {m : JnOffer} {sd : Side} {s t : State} (hs : t.survey = s.survey) (hr : t.reform = s.reform) :
    declinesOffer m sd t = declinesOffer m sd s := by
  simp only [declinesOffer, hasSide_congr hs, consistCount_congr hs, idleReform, hr]

theorem declinesOffer_markRelayed (m : JnOffer) (sd : Side) (x : Relayed) (s : State) :
    declinesOffer m sd (markRelayed x s) = declinesOffer m sd s := rfl

theorem declinesOffer_handedJn (m : JnOffer) (sd : Side) (rx : MgRx) (h : JnHead) (x : MgMsg) (s : State) :
    declinesOffer m sd (handedJn rx h x s) = declinesOffer m sd s :=
  (declinesOffer_markRelayed m sd _ _).trans (declinesOffer_congr (handed_survey rx x s) (by simp only [handed_fields]))

theorem declinesOffer_of_refused {m : JnOffer} {sd : Side} {s : State}
    (h : s.reform.refused = some (sd, consistCount s, m.entries.length)) : declinesOffer m sd s = true := by
  rw [declinesOffer, h, beq_self_eq_true, Bool.or_true]

theorem declinesOffer_eq_false {m : JnOffer} {sd : Side} {s : State} (hside : hasSide s sd = false) (hidle : idleReform s = true)
    (href : s.reform.refused = none) : declinesOffer m sd s = false := by
  rw [declinesOffer, hside, hidle, href]; rfl

/-! ### The effect of a first copy -/

section
variable {rx : MgRx} {s : State}

/-- The first copy of a message that arrives whole and is the unit's to act on has the effect that its command gives it (R172, R207). -/
theorem does_handedJn {i : Instr} {h : JnHead} {m : MgMsg} {act f : State → State} (hw : Whole rx s) (hm : ForMe rx s)
    (hc : FirstCopy h m s) (hi : exec i s = run (jnIn rx h m act) s) (heff : act (handedJn rx h m (begin_ s)) = f (begin_ s)) :
    Does i s f :=
  does_of hi ((jnIn_handed act hw hm hc).trans heff)

theorem jnEndRx_stores {m : JnEnd} (hw : Whole rx s) (hm : ForMe rx s) (hc : FirstCopy m.head (.jnEnd m) s)
    (he : m.head.epochOf = s.survey.epoch) :
    Does (.jnEndRx rx m) s fun s =>
      leadCheck (conflictCheck (storeEnd rx.port.side m (jnRelay rx (.jnEnd m) (handedJn rx m.head (.jnEnd m) s)))) :=
  does_handedJn hw hm hc rfl (if_pos (he.trans (epoch_jnRelay_handedJn rx m.head _ (begin_ s)).symm))

theorem jnOfferRx_declines {m : JnOffer} (hw : Whole rx s) (hm : ForMe rx s) (hc : FirstCopy m.head (.jnOffer m) s)
    (hd : declinesOffer m rx.port.side s = true) : Does (.jnOfferRx rx m) s (handedJn rx m.head (.jnOffer m)) :=
  does_handedJn hw hm hc rfl (if_pos ((declinesOffer_handedJn m rx.port.side rx m.head _ (begin_ s)).trans hd))

/-- An offer that is not declined is held and decided on with the unit's own; where no refusal stands, none is lifted (R211 to R213). -/
theorem jnOfferRx_decides {m : JnOffer} (hw : Whole rx s) (hm : ForMe rx s) (hc : FirstCopy m.head (.jnOffer m) s)
    (hd : declinesOffer m rx.port.side s = false) (href : s.reform.refused = none) :
    Does (.jnOfferRx rx m) s fun s => decideMerge (updReform (fun r => { r with
        gotOffer := some (rx.port.side, m), phase := if r.phase = 0 ∨ r.phase = 4 then 1 else r.phase })
      (handedJn rx m.head (.jnOffer m) s)) := by
  have hd' : ¬declinesOffer m rx.port.side (handedJn rx m.head (.jnOffer m) (begin_ s)) = true := by
    rw [declinesOffer_handedJn, Bool.not_eq_true]; exact hd
  have href' : (handedJn rx m.head (.jnOffer m) (begin_ s)).reform.refused = none := by rw [handedJn_reform]; exact href
  refine does_handedJn hw hm hc rfl ((if_neg hd').trans ?_)
  simp only [href', Option.any_none, Bool.false_eq_true, if_false]

theorem jnMergeRx_takes {m : JnMerge} (hw : Whole rx s) (hm : ForMe rx s) (hc : FirstCopy m.head (.jnMerge m) s)
    (he : m.head.epochOf = s.survey.epoch) :
    Does (.jnMergeRx rx m) s fun s => takeMerge {
        record := m.record, keeping := m.keeping, reverse := m.reverse, units := m.units, cause := 1, subject := m.head.origin,
        couplerPos := m.head.posOf } (jnRelay rx (.jnMerge m) (handedJn rx m.head (.jnMerge m) s)) :=
  does_handedJn hw hm hc rfl (if_neg (not_not_intro (he.trans (epoch_jnRelay_handedJn rx m.head _ (begin_ s)).symm)))

/-- A joining unit adds its own offset to the track, keeps the sum and relays it (R218). -/
def joinTrack (rx : MgRx) (m : JnTrack) (own : Int) (s : State) : State :=
  jnRelay rx (.jnTrack { m with delta := own }) (updReform (fun r => { r with delta := some (own, m.slope, m.at_) }) s)

theorem echoAt_handedJn (rx : MgRx) (h : JnHead) (m : MgMsg) (s : State) (p : BPort) : echoAt (handedJn rx h m s) p = echoAt s p := by
  simp only [echoAt, handedJn, markRelayed_echo, handed_fields]

theorem jnTrackRx_joins {m : JnTrack} (hw : Whole rx s) (hm : ForMe rx s) (hc : FirstCopy m.head (.jnTrack m) s)
    (hj : isJoining s = true) :
    Does (.jnTrackRx rx m) s fun s =>
      joinTrack rx m (m.delta - (echoAt s rx.port).offset) (handedJn rx m.head (.jnTrack m) s) := by
  have hj' : ¬(!isJoining (handedJn rx m.head (.jnTrack m) (begin_ s))) = true := by
    rw [isJoining_handedJn, show isJoining (begin_ s) = true from hj]; decide
  refine does_handedJn hw hm hc rfl ((if_neg hj').trans ?_)
  simp only [echoAt_handedJn, joinTrack]

/-- A readiness passes a unit that holds its shadow plan, and waits at any other (R219). -/
theorem jnReadyRx_does {m : JnTrack} (hw : Whole rx s) (hm : ForMe rx s) (hc : FirstCopy m.head (.jnReady m) s) :
    Does (.jnReadyRx rx m) s fun s =>
      if s.reform.shadowDone then passReady rx.port m (handedJn rx m.head (.jnReady m) s)
      else updReform (fun r => { r with ready := some (rx.port, m) }) (handedJn rx m.head (.jnReady m) s) :=
  does_handedJn hw hm hc rfl (by simp only [handedJn_reform])

theorem jnCutoverRx_holds {m : JnCutover} (hw : Whole rx s) (hm : ForMe rx s) (hc : FirstCopy m.head (.jnCutover m) s) :
    Does (.jnCutoverRx rx m) s fun s => holdCutover m (jnRelay rx (.jnCutover m) (handedJn rx m.head (.jnCutover m) s)) :=
  does_handedJn hw hm hc rfl rfl

/-- The break of the consist in force is announced as a split by its reference, which is the active unit or the end of the old consist;
any other unit relays it (R227, R228). -/
theorem jnBreakRx_does {m : JnBreak} (hw : Whole rx s) (hm : ForMe rx s) (hc : FirstCopy m.head (.jnBreak m) s)
    (he : m.head.epochOf = s.survey.epoch) :
    Does (.jnBreakRx rx m) s fun s =>
      let u := handedJn rx m.head (.jnBreak m) s
      if isReference u && (isActive u || !hasSide u (u.survey.headSide.getD .front)) then announceSplit 1 m.headPos u
      else jnRelay rx (.jnBreak m) u :=
  does_handedJn hw hm hc rfl (if_neg (not_not_intro (he.trans (handedJn_epoch rx m.head _ (begin_ s)).symm)))

/-- An abandon of what is pending is relayed and drops it, where that is no split (R231). -/
theorem jnAbandonRx_drops {m : JnAbandon} {p : Pending} (hw : Whole rx s) (hm : ForMe rx s) (hc : FirstCopy m.head (.jnAbandon m) s)
    (hp : s.reform.pending = some p) (hs : p.subject = m.subject) (hcause : p.cause ≠ 2) :
    Does (.jnAbandonRx rx m) s fun s =>
      dropReform m.subject (jnRelay rx (.jnAbandon m) (handedJn rx m.head (.jnAbandon m) s)) := by
  refine does_handedJn hw hm hc rfl ?_
  simp only [jnRelay_reform, handedJn_reform, begin__reform, hp]
  exact if_pos ⟨hs, hcause⟩

end

/-- Settles O48: each first copy passes the test of its command, and what it does is what the state selects. -/
theorem reformMessagesHaveTheirEffect : Obligations.ReformMessagesHaveTheirEffect := by
  intro rx s hw hm
  refine ⟨fun m hc he => jnEndRx_stores hw hm hc he, fun m hc href => jnOfferRx_declines hw hm hc (declinesOffer_of_refused href),
    fun m hc hside hidle href => jnOfferRx_decides hw hm hc (declinesOffer_eq_false hside hidle href) href,
    fun m hc he => jnMergeRx_takes hw hm hc he, fun m hc hj => jnTrackRx_joins hw hm hc hj,
    fun m hc => ⟨fun hd => ?_, fun hd => ?_⟩, fun m hc => jnCutoverRx_holds hw hm hc,
    fun m hc he => ⟨fun href hact => ?_, fun href => ?_⟩, fun m p hc hp hs hcause => jnAbandonRx_drops hw hm hc hp hs hcause⟩
  · exact (jnReadyRx_does hw hm hc).congr (if_pos hd)
  · exact (jnReadyRx_does hw hm hc).congr (if_neg (by rw [begin__reform, hd]; exact Bool.false_ne_true))
  · refine (jnBreakRx_does hw hm hc he).congr (if_pos ?_)
    rw [isReference_handedJn, isActive_handedJn, show isReference (begin_ s) = true from href, show isActive (begin_ s) = true from hact]
    rfl
  · refine (jnBreakRx_does hw hm hc he).congr (if_neg ?_)
    rw [isReference_handedJn, show isReference (begin_ s) = false from href, Bool.false_and]
    exact Bool.false_ne_true

end Sys2Proof.Machine
end

section
/-! PROOFS. The planner's messages (R264 to R266, R287, R289, R290): what each does at the unit that it is handed to; the swap of a plan and
the release of RETIRING (R254, R255). -/

open Sys2Proof Sys2Proof.Machine

namespace Sys2Proof.Machine

/-! ### What handing on leaves -/

@[simp] theorem handed_planner (rx : MgRx) (m : MgMsg) (s : State) : (handed rx m s).planner = s.planner := by simp only [handed_fields]

@[simp] theorem isReference_handed (rx : MgRx) (m : MgMsg) (s : State) : isReference (handed rx m s) = isReference s := by
  rw [isReference, handed_survey, isReference]

@[simp] theorem isActive_handed (rx : MgRx) (m : MgMsg) (s : State) : isActive (handed rx m s) = isActive s := by
  simp only [isActive, handed_fields]

/-- The unit that plans for the consist: the active one of position 1 (R263, R264). -/
def isPlanner (s : State) : Bool := isReference s && isActive s

theorem isPlanner_handed (rx : MgRx) (m : MgMsg) (s : State) : isPlanner (handed rx m s) = isPlanner s := by
  rw [isPlanner, isReference_handed, isActive_handed, isPlanner]

theorem isPlanner_of_active {s : State} (href : isReference s = true) (hact : isActive s = true) : isPlanner s = true := by
  rw [isPlanner, href, hact]; rfl

theorem isPlanner_of_other {s : State} (href : isReference s = false) : isPlanner s = false := by
  rw [isPlanner, href, Bool.false_and]

section
variable {rx : MgRx} {s : State}

/-! ### Requests and results -/

/-- An active unit answers a SYNC of its rank; any other request is for position 1 (R264, R290). -/
def takeRequest (m : PlRequest) (s : State) : State :=
  if m.op = .sync then answerSync m s
  else if isReference s then submit { msg := m, tag := none, answered := false } s else s

theorem plRequestRx_does {m : PlRequest} (hw : Whole rx s) (hm : ForMe rx s) (hn : numbered s = true) (hact : isActive s = true) :
    Does (.plRequestRx rx m) s fun s => takeRequest m (handed rx (.plRequest m) s) := by
  have hact' : isActive (handed rx (.plRequest m) (begin_ s)) = true := (isActive_handed ..).trans hact
  refine does_handed hw hm rfl ((if_neg ?_).trans ?_)
  · rw [numbered_handed hn, hact']; decide
  · split
    case h_1 hop => exact (if_pos hop).symm
    case h_2 hop => exact (if_neg hop).symm

theorem takeRequest_sync {m : PlRequest} (hop : m.op = .sync) : takeRequest m s = answerSync m s := if_pos hop

theorem takeRequest_reference {m : PlRequest} (hop : m.op ≠ .sync) (href : isReference s = true) :
    takeRequest m s = submit { msg := m, tag := none, answered := false } s := (if_neg hop).trans (if_pos href)

theorem plResultRx_takes {m : PlResult} (hw : Whole rx s) (hm : ForMe rx s) (hpos : m.reqPos = s.survey.position) :
    Does (.plResultRx rx m) s fun s => takeResult m (handed rx (.plResult m) s) :=
  does_handed hw hm rfl (if_pos (by rw [handed_survey]; exact hpos))

/-! ### Changes -/

/-- How far a change's SERIAL is ahead of the last one taken, modulo 2^16 (R266). -/
def serialAhead (m : PlChange) (s : State) : Nat := (m.serial + 65536 - s.planner.lastSerial) % 65536

/-- A change is for the numbered units of its epoch, but not for the one that planned it (R265). -/
def ignoresChange (m : PlChange) (s : State) : Bool := !numbered s || m.epoch != s.survey.epoch || isPlanner s

/-- A SERIAL already taken is ignored, a gap or a boundary already passed silences, the next SERIAL is applied (R265, R266, R289). -/
def takeChange (m : PlChange) (s : State) : State :=
  if ignoresChange m s then s
  else if serialAhead m s = 0 ∨ 32767 < serialAhead m s then s
  else if serialAhead m s ≠ 1 ∨ boundary s (cycleAt s m.swap) ≤ s.clk.lt then losePlan 0 s
  else match planEnv s with
    | some env => applyChange env m s
    | none => s

theorem plChangeRx_does {m : PlChange} (hw : Whole rx s) (hm : ForMe rx s) :
    Does (.plChangeRx rx m) s fun s => takeChange m (handed rx (.plChange m) s) :=
  does_handed hw hm rfl rfl

theorem serialAhead_handed (x : MgMsg) (m : PlChange) (s : State) : serialAhead m (handed rx x s) = serialAhead m s := by
  rw [serialAhead, handed_planner, serialAhead]

theorem ignoresChange_handed {m : PlChange} (hn : numbered s = true) (he : m.epoch = s.survey.epoch) (href : isReference s = false)
    (x : MgMsg) : ignoresChange m (handed rx x (begin_ s)) = false := by
  have he' : m.epoch = (handed rx x (begin_ s)).survey.epoch := by rw [handed_survey]; exact he
  rw [ignoresChange, numbered_handed hn, bne_eq_false_iff_eq.mpr he', isPlanner_handed, isPlanner_of_other (s := begin_ s) href]; rfl

theorem takeChange_taken {m : PlChange} (h : serialAhead m s = 0 ∨ 32767 < serialAhead m s) : takeChange m s = s := by
  rw [takeChange, if_pos h, ite_self]

theorem takeChange_gap {m : PlChange} (hi : ignoresChange m s = false) (h2 : 2 ≤ serialAhead m s) (hle : serialAhead m s ≤ 32767) :
    takeChange m s = losePlan 0 s := by
  have hnew : ¬(serialAhead m s = 0 ∨ 32767 < serialAhead m s) := by omega
  have hgap : serialAhead m s ≠ 1 := by omega
  rw [takeChange, hi, if_neg Bool.false_ne_true, if_neg hnew, if_pos (.inl hgap)]

theorem takeChange_next {m : PlChange} {env : PlanEnv} (hi : ignoresChange m s = false) (h1 : serialAhead m s = 1)
    (hlt : s.clk.lt < boundary s (cycleAt s m.swap)) (henv : planEnv s = some env) : takeChange m s = applyChange env m s := by
  have hnew : ¬(serialAhead m s = 0 ∨ 32767 < serialAhead m s) := by omega
  have hahead : ¬(serialAhead m s ≠ 1 ∨ boundary s (cycleAt s m.swap) ≤ s.clk.lt) := by omega
  rw [takeChange, hi, if_neg Bool.false_ne_true, if_neg hnew, if_neg hahead, henv]

/-! ### Digests, tallies and records -/

theorem plDigestRx_keeps {m : PlDigest} (hw : Whole rx s) (hm : ForMe rx s) (href : isReference s = true) (hact : isActive s = true)
    (he : m.epoch = s.survey.epoch) :
    Does (.plDigestRx rx m) s fun s =>
      updPlanner (fun p => { p with reports := m :: p.reports.filter fun x => x.position != m.position }) (handed rx (.plDigest m) s) := by
  refine does_handed hw hm rfl (if_pos ?_)
  rw [isReference_handed, isActive_handed, handed_survey, Bool.and_eq_true, beq_iff_eq]
  exact ⟨isPlanner_of_active href hact, he⟩

theorem plTallyRx_takes {m : PlTally} (hw : Whole rx s) (hm : ForMe rx s) (hn : numbered s = true) (href : isReference s = false) :
    Does (.plTallyRx rx m) s fun s => takeTally m (handed rx (.plTally m) s) := by
  have hother : isPlanner (handed rx (.plTally m) (begin_ s)) = false :=
    (isPlanner_handed ..).trans (isPlanner_of_other (s := begin_ s) href)
  refine does_handed hw hm rfl (if_pos ?_)
  rw [isPlanner] at hother
  rw [numbered_handed hn, hother]; rfl

/-- A record of a cold start is kept with those of its set that are there, while the set is not whole (R263). -/
theorem plContractRx_keeps {m : PlContract} (hw : Whole rx s) (hm : ForMe rx s) (hn : numbered s = true) (hda : rx.da = allNodes)
    (href : isReference s = false) (he : m.epochOf = s.survey.epoch) (hcold : s.planner.coldDone = false) (htot : 0 < m.total)
    (hpart : (addTaken m s.planner.taken).length < m.total) :
    Does (.plContractRx rx m) s fun s =>
      updPlanner (fun p => { p with taken := addTaken m p.taken }) (handed rx (.plContract m) s) := by
  have hlocal : ¬rx.da = linkLocal := by rw [hda]; decide
  have hn' : ¬(!numbered (handed rx (.plContract m) (begin_ s))) = true := by rw [numbered_handed hn]; decide
  have hcross : ¬((handed rx (.plContract m) (begin_ s)).planner.coldDone ||
      m.epochOf != (handed rx (.plContract m) (begin_ s)).survey.epoch) = true := by
    rw [handed_planner, handed_survey, begin__planner, begin__survey, hcold, he, bne_self_eq_false]; decide
  have hother : ¬isPlanner (handed rx (.plContract m) (begin_ s)) = true := by
    rw [isPlanner_handed, isPlanner_of_other (s := begin_ s) href]; decide
  refine does_handed hw hm rfl ((if_neg hn').trans ((if_neg hlocal).trans ((if_pos hda).trans
    ((if_neg hcross).trans ((if_neg hother).trans ?_)))))
  simp only [handed_planner, begin__planner, if_neg (Nat.ne_of_gt htot), if_neg (Nat.ne_of_lt hpart)]
  rw [updPlanner, updPlanner, handed_planner]; rfl

end

/-! ### Swaps -/

section
variable {s : State}

/-- At the boundary that it is named for, a plan whose SHADOW is complete comes into force; without one the unit waits (R254, R257). -/
theorem swap_does {g : Stage} {rest : List Stage} (hr : running s = true) (hn : numbered s = true) (hst : s.planner.staged = g :: rest)
    (hw : s.gallery.waiting = false) :
    Does .swap s fun s =>
      let u := toLt (boundary s g.swap) s
      if u.gallery.shadowComplete && !u.reform.shadowDone then swapIn g u
      else logEvent 0x50 srcNode (le 4 g.swap) (updGallery (fun y => { y with waiting := true }) u) := by
  have hgo : ¬(!(running (begin_ s) && numbered (begin_ s))) = true := by
    rw [show running (begin_ s) = true from hr, show numbered (begin_ s) = true from hn]; decide
  refine does_of rfl ?_
  simp only [begin__planner, hst, List.head?_cons]
  refine (if_neg hgo).trans ?_
  have hnow (a b : Nat) : (if (begin_ s).gallery.waiting = true then a else b) = b := if_neg (by rw [begin__gallery, hw]; decide)
  have hstill (n : Nat) : ¬(toLt n (begin_ s)).gallery.waiting = true := by rw [toLt_gallery, begin__gallery, hw]; decide
  rw [hnow, if_neg (hstill _)]

/-- RETIRING is emptied on every port (R255). -/
def emptyRetiring (g : Gallery) : Gallery :=
  { g with banks := g.banks.map fun b => { b with retiring := [] }, retiringHeld := false }

theorem emptyRetiring_retiring (g : Gallery) : ∀ b ∈ (emptyRetiring g).banks, b.retiring = [] :=
  List.forall_mem_map.mpr fun _ _ => rfl

/-- RETIRING is emptied at the end of the second cycle after the swap (R255). -/
theorem retiringRelease_does {c : Nat} (hr : running s = true) (hc : s.gallery.lastSwap = some c) (hh : s.gallery.retiringHeld = true) :
    Does .retiringRelease s fun s => updGallery emptyRetiring (toLt (boundary s (c + 3)) s) := by
  refine does_of rfl ?_
  simp only [begin__gallery, hc]
  exact if_pos (by rw [show running (begin_ s) = true from hr, hh]; rfl)

theorem retiringRelease_empties {c : Nat} (hr : running s = true) (hc : s.gallery.lastSwap = some c)
    (hh : s.gallery.retiringHeld = true) :
    Completes .retiringRelease s fun t => t.gallery = emptyRetiring s.gallery ∧ t.planner = s.planner := by
  refine ⟨_, retiringRelease_does hr hc hh, ?_, ?_⟩
  · rw [after_gallery, updGallery_gallery, toLt_gallery, begin__gallery]
  · rw [after_planner, updGallery_planner, toLt_planner, begin__planner]

end

/-- Settles O50: each message passes the test of its command at the unit that the state shows; a change is taken by how far its SERIAL is
ahead; a swap asks whether SHADOW is complete. -/
theorem plannerMessagesAndSwaps : Obligations.PlannerMessagesAndSwaps := by
  intro rx s
  refine ⟨fun hw hm hn => ⟨fun m href hact hop => ?_, fun m hact hop => ?_, fun m hpos => plResultRx_takes hw hm hpos,
    fun m env he href h1 hu => ?_, fun m he href h2 hle => ?_, fun m ht => ?_,
    fun m href hact he => plDigestRx_keeps hw hm href hact he, fun m href => plTallyRx_takes hw hm hn href,
    fun m hda href he hcold htot hpart => plContractRx_keeps hw hm hn hda href he hcold htot hpart⟩,
    fun g rest hr hn hst hwait => ⟨fun hs hd => ?_, fun hs => ?_⟩, fun c hr hc hh => ?_⟩
  · exact (plRequestRx_does hw hm hn hact).congr (takeRequest_reference hop ((isReference_handed ..).trans href))
  · exact (plRequestRx_does hw hm hn hact).congr (takeRequest_sync hop)
  · obtain ⟨hlt, henv⟩ := hu
    exact (plChangeRx_does hw hm).congr
      (takeChange_next (ignoresChange_handed hn he href _) ((serialAhead_handed ..).trans h1) hlt henv)
  · have hahead := serialAhead_handed (rx := rx) (.plChange m) m (begin_ s)
    exact (plChangeRx_does hw hm).congr
      (takeChange_gap (ignoresChange_handed hn he href _) (Nat.le_trans h2 (Nat.le_of_eq hahead.symm)) (Nat.le_trans (Nat.le_of_eq hahead) hle))
  · exact (plChangeRx_does hw hm).congr (takeChange_taken (by rw [serialAhead_handed]; exact ht))
  · exact (swap_does hr hn hst hwait).congr (if_pos (by rw [toLt_gallery, toLt_reform, begin__gallery, begin__reform, hs, hd]; rfl))
  · refine (swap_does hr hn hst hwait).congr (if_neg ?_)
    rw [toLt_gallery, toLt_reform, begin__gallery, begin__reform]
    rcases hs with h | h
    · rw [h, Bool.false_and]; decide
    · rw [h, Bool.not_true, Bool.and_false]; decide
  · obtain ⟨t, ht, hgal, hpl⟩ := retiringRelease_empties hr hc hh
    refine ⟨t, ht, ?_, ?_, ?_, hpl⟩ <;> rw [hgal]
    · rfl
    · exact emptyRetiring_retiring s.gallery
    · exact hc

end Sys2Proof.Machine
end

section
/-! PROOFS. The planner's commands, whose requests go to position 1 (R260, R264, R267, R270, R541). -/

open Sys2Proof Sys2Proof.Machine

namespace Sys2Proof.Machine

section
variable {tag : BitVec 8} {c : Cmd} {s : State}

/-- Where the planner's commands are refused: on a standby, or without a position (R85, R264). -/
def plannerRefused (s : State) : Bool := standbyRefused s || !numbered s

theorem plannerRefused_false (hr : s.twin.role ≠ .standby) (hp : s.survey.position ≠ 0) : plannerRefused s = false := by
  simp [plannerRefused, standbyRefused, not_standby hr, numbered, hp]

/-- The commands that FACTORY_SAFE refuses as well (R541). -/
theorem plannerRefused_or_factorySafe (hr : s.twin.role ≠ .standby) (hp : s.survey.position ≠ 0) (hf : factorySafe s = false) :
    (plannerRefused s || factorySafe s) = false := by
  rw [plannerRefused_false hr hp, hf]; rfl

/-- The request that the started command sends (R264). -/
def plannerGo (tag : BitVec 8) (op : PlanOp) (c : Cmd) (s : State) : State := sendRequest (some tag) op c.epoch (park c 0 0 s)

/-- STREAM_DECLARE with a contract that R260 does not refuse. -/
theorem streamDeclare_does (h : Plain 0x0401 32 tag c s) (hr : s.twin.role ≠ .standby) (hp : s.survey.position ≠ 0)
    (hf : factorySafe s = false) (hc : contractBad c.inl = none) :
    Does (.streamDeclare tag) s (plannerGo tag (.declare (contractOf c.inl)) c) := by
  have hown : firstFail [(contractBad c.inl).bind fun i => badP true c i] = none := by rw [hc]; rfl
  exact doCmd h.1 rfl (plainBegin h (plannerRefused_or_factorySafe (s := begin_ s) hr hp hf) (none_free s) hown) rfl

theorem streamWithdraw_does (h : Plain 0x0402 1 tag c s) (hr : s.twin.role ≠ .standby) (hp : s.survey.position ≠ 0) :
    Does (.streamWithdraw tag) s (plannerGo tag (.withdraw (pB c 0)) c) :=
  doCmd h.1 rfl (plainBegin0 h (plannerRefused_false (s := begin_ s) hr hp) (none_free s)) rfl

/-- PLAN_REPACK, the first of its opcode in flight (R76). -/
theorem planRepack_does (h : Plain 0x0404 0 tag c s) (hr : s.twin.role ≠ .standby) (hp : s.survey.position ≠ 0)
    (hx : ∀ e ∈ s.cmdq.inflight, e.opcode = 0x0404 → e.tag ≠ tag → c.acc ≤ e.acc ∧ e.phase = .fetched) :
    Does (.planRepack tag) s (plannerGo tag .repack c) := by
  have hown : firstFail [exclusiveFail c (begin_ s)] = none := firstFail_cons (exclusive_ok (ready_begin h.1) hx) rfl
  exact doCmd h.1 rfl (plainBegin h (plannerRefused_false (s := begin_ s) hr hp) (none_free s) hown) rfl

theorem viewSelect_does (h : Plain 0x0406 32 tag c s) (hr : s.twin.role ≠ .standby) (hp : s.survey.position ≠ 0)
    (hf : factorySafe s = false) : Does (.viewSelect tag) s (plannerGo tag (.view (BitVec.ofNat 256 (pF c 0 32))) c) :=
  doCmd h.1 rfl (plainBegin0 h (plannerRefused_or_factorySafe (s := begin_ s) hr hp hf) (none_free s)) rfl

end

/-- Settles O15: a numbered unit that is no standby refuses none of the commands, and each passes its own checks. -/
theorem plannerCommandsAskPositionOne : Obligations.PlannerCommandsAskPositionOne := by
  intro tag c s hr hp
  exact ⟨fun h hf hc => streamDeclare_does h hr hp hf hc, fun h => streamWithdraw_does h hr hp, fun h hx => planRepack_does h hr hp hx,
    fun h hf => viewSelect_does h hr hp hf⟩

end Sys2Proof.Machine
end

section
/-! PROOFS. The rings of a car port and of the host station (R350, R351, R354), and PWR_HOLD (R516, R525). -/

open Sys2Proof Sys2Proof.Machine

namespace Sys2Proof.Machine

/-! ### What clearing the outputs leaves -/

@[simp] theorem running_begin (s : State) : running (begin_ s) = running s := rfl
@[simp] theorem serving_begin (s : State) : serving (begin_ s) = serving s := rfl
@[simp] theorem rxRing_begin (s : State) (r : Nat) : rxRing (begin_ s) r = rxRing s r := rfl
@[simp] theorem txRing_begin (s : State) (r : Nat) : txRing (begin_ s) r = txRing s r := rfl

/-! ### RING_SET -/

section
variable {tag : BitVec 8} {c : Cmd} {s : State}

/-- The object that RING_SET may name: the host station, or a car port that the part has, that is powered and free (R350). -/
def RingPortOk (c : Cmd) (s : State) : Prop := pB c 2 = 0x80 ∨ CodeOk c 2 0 0x0C s

theorem ringPort_present (h : RingPortOk c s) : (inRange 0 0x0C (pB c 2) && codeAbsent s (pB c 2)) = false := by
  obtain hp | ⟨_, _, hp, _⟩ := h
  · rw [hp]; rfl
  · rw [hp, Bool.and_false]

theorem ringPort_powered (h : RingPortOk c s) : (inRange 0 0x0C (pB c 2) && codeOff s (pB c 2)) = false := by
  obtain hp | ⟨_, _, _, hp, _⟩ := h
  · rw [hp]; rfl
  · rw [hp, Bool.and_false]

theorem ringPort_free (h : RingPortOk c s) (b : Nat) (hb : (if pB c 2 < 0x0C then blockOf (pB c 2) else none) = some b) : BlockFree s b := by
  obtain hp | ⟨_, hlt, _, _, hfree⟩ := h
  · rw [hp] at hb; cases hb
  · rw [if_pos hlt] at hb; exact hfree b hb

theorem ringPort_known (h : RingPortOk c s) : (!inRange 0 0x0C (pB c 2) && pB c 2 != 0x80) = false := by
  obtain hp | ⟨_, hlt, _⟩ := h
  · rw [hp]; rfl
  · simp [inRange, hlt]

/-- The checks of RING_SET that ask what the ring is bound to and what it is to be (R350). -/
def ringEntryChecks (c : Cmd) (s : State) : List Fail :=
  let entries := pF c 4 2
  [badP (entries != 0 && (ringLog2 entries).isNone) c 4, badP (entries != 0 && !ringBaseOk c ((ringLog2 entries).getD 0)) c 8,
    noResource (entries != 0 && ((ringOf c s).port.isSome || (boundAt s (pB c 1) (pB c 2)).isSome)) 5]

/-- RING_SET gets past the checks of its length, its epoch, its object and its ring, the ring being free or its own host's. -/
theorem ringSetChecks_ok (hr : s.twin.role ≠ .standby) (h : Plain 0x0506 16 tag c s) (h0 : pB c 0 ≤ 63) (h1 : pB c 1 ≤ 1)
    (hp : RingPortOk c s) (hh : (ringOf c s).port = none ∨ (ringOf c s).host = sqHost c.sq)
    (he : firstFail (ringEntryChecks c s) = none) : firstFail (ringSetChecks c s) = none := by
  obtain ⟨_, hlen, hbuf, hepoch⟩ := h
  have hother : ((ringOf c s).port.isSome && (ringOf c s).host != cmdHost c) = false := by
    rcases hh with hh | hh <;> simp [hh, cmdHost]
  have hown : firstFail ([badP (decide (63 < pB c 0)) c 0, badP (decide (1 < pB c 1)) c 1,
      badP (!inRange 0 0x0C (pB c 2) && pB c 2 != 0x80) c 2] ++ ringEntryChecks c s) = none := by
    rw [le_not_lt h0, le_not_lt h1, ringPort_known hp]; exact he
  have hlead : firstFail [lenCheck c 16 false, absent (inRange 0 0x0C (pB c 2) && codeAbsent s (pB c 2))] = none := by
    rw [lenCheck_ok hlen hbuf, ringPort_present hp]; rfl
  have hstate : firstFail (stateChecks c s (if pB c 2 < 0x0C then blockOf (pB c 2) else none)
      (isStandby s || (inRange 0 0x0C (pB c 2) && codeOff s (pB c 2)) || (decide (pB c 0 ≤ 63) && decide (pB c 1 ≤ 1)
        && (ringOf c s).port.isSome && (ringOf c s).host != cmdHost c))) = none := by
    rw [not_standby hr, ringPort_powered hp, Bool.and_assoc, hother, Bool.and_false]
    exact stateChecks_ok hepoch (ringPort_free hp)
  refine (firstFail_append ?_).trans hown
  rw [firstFail_append hlead, hstate]

theorem ringEntryChecks_unbind (h : pF c 4 2 = 0) : firstFail (ringEntryChecks c s) = none := by
  simp only [ringEntryChecks, h]; rfl

theorem ringEntryChecks_bind {n : Nat} (hn : ringLog2 (pF c 4 2) = some n) (hb : ringBaseOk c n = true) (hg : (ringOf c s).port = none)
    (hp : boundAt s (pB c 1) (pB c 2) = none) : firstFail (ringEntryChecks c s) = none := by
  simp [ringEntryChecks, hn, hb, hg, hp]

theorem ringSet_does (hr : s.twin.role ≠ .standby) (h : Plain 0x0506 16 tag c s) (h0 : pB c 0 ≤ 63) (h1 : pB c 1 ≤ 1)
    (hp : RingPortOk c s) (hh : (ringOf c s).port = none ∨ (ringOf c s).host = sqHost c.sq)
    (he : firstFail (ringEntryChecks c s) = none) : Does (.ringSet tag) s (ringSetGo c) :=
  doCmd (l := ringSetChecks) (g := ringSetGo) h.1 rfl (ringSetChecks_ok (s := begin_ s) hr h h0 h1 hp hh he) rfl

/-- A binding stands at once. -/
theorem ringSetGo_binds {n : Nat} (hn : ringLog2 (pF c 4 2) = some n) (s : State) :
    ringSetGo c s = finish c 0 0 (setBound (pB c 1) (pB c 2) (some (pB c 0)) (setRing (pB c 1) (pB c 0) (fun _ => {
      port := some (pB c 2), host := sqHost c.sq, log2 := n, base := pF c 8 8, head := 0, tail := 0, unbinding := none }) s)) := by
  simp only [ringSetGo, hn]; rfl

/-- Unbinding a ring that is not bound has nothing to wait for (log 49). -/
theorem ringSetGo_unbound (h : pF c 4 2 = 0) (hg : (ringOf c s).port = none) : ringSetGo c s = finish c 0 0 s := by
  have hn : ringLog2 (pF c 4 2) = none := by rw [h]; rfl
  simp only [ringSetGo, hn, hg]; rfl

/-- Unbinding a bound ring waits until the ring is quiet. -/
theorem ringSetGo_waits (h : pF c 4 2 = 0) (hg : (ringOf c s).port ≠ none) :
    ringSetGo c s = park c (pB c 0) (pB c 1) (setRing (pB c 1) (pB c 0) (fun g => { g with unbinding := some c.tag }) s) := by
  have hn : ringLog2 (pF c 4 2) = none := by rw [h]; rfl
  have hbound : ¬ (ringOf c s).port.isNone = true := by simpa using hg
  simp only [ringSetGo, hn]
  exact if_neg hbound

end

/-- Settles O14: the command passes its checks in each case, and the entry count and the ring say what it does. -/
theorem ringSetBindsAndUnbinds : Obligations.RingSetBindsAndUnbinds := by
  intro tag c s hr h h0 h1 hp
  refine ⟨fun n h4 h12 hn hb hg hat => ?_, fun hz hg => ?_, fun hz hg hh => ?_⟩
  · have hlog : ringLog2 (pF c 4 2) = some n := by rw [hn, ringLog2_pow h4 h12]
    exact (ringSet_does hr h h0 h1 hp (.inl hg) (ringEntryChecks_bind hlog hb hg hat)).congr (ringSetGo_binds hlog _)
  · exact (ringSet_does hr h h0 h1 hp (.inl hg) (ringEntryChecks_unbind hz)).congr (ringSetGo_unbound hz hg)
  · exact (ringSet_does hr h h0 h1 hp (.inr hh) (ringEntryChecks_unbind hz)).congr (ringSetGo_waits hz hg)

/-! ### Doorbells and PWR_HOLD -/

/-- The ring of a direction. -/
def dirRing (dir : Nat) (s : State) (r : Nat) : Ring := if dir = 0 then rxRing s r else txRing s r

section
variable {dir r : Nat} {h : HostId} {val : Word} {s : State}

/-- A doorbell of an unbound ring, or of the other host's, is ignored (R351). -/
theorem ringDoorbell_ignored (hg : (dirRing dir s r).port = none ∨ (dirRing dir s r).host ≠ h) : ringDoorbell dir h r val s = s :=
  if_pos (hg.imp_left fun hp => Option.isNone_iff_eq_none.mpr hp)

/-- A doorbell whose index lies in the ring and takes nothing back moves the tail (R64, R351). -/
theorem ringDoorbell_moves (hp : (dirRing dir s r).port ≠ none) (hh : (dirRing dir s r).host = h)
    (hi : bits val.toNat 11 0 < 2 ^ (dirRing dir s r).log2)
    (hk : ((dirRing dir s r).tail + 2 ^ (dirRing dir s r).log2 - (dirRing dir s r).head) % 2 ^ (dirRing dir s r).log2
      ≤ (bits val.toNat 11 0 + 2 ^ (dirRing dir s r).log2 - (dirRing dir s r).head) % 2 ^ (dirRing dir s r).log2) :
    ringDoorbell dir h r val s = setRing dir r (fun g => { g with tail := bits val.toNat 11 0 }) s := by
  refine (if_neg ?_).trans (if_neg ?_)
  · rintro (hn | hn)
    · exact hp (Option.isNone_iff_eq_none.mp hn)
    · exact hn hh
  · exact not_or.mpr ⟨Nat.not_le.mpr hi, Nat.not_lt.mpr hk⟩

end

section
variable {h : HostId} {r : Fin 64} {val : Word} {s : State}

theorem rxRingDoorbell_does (hs : s.store.service = true) : Does (.rxRingDoorbell h r val) s (ringDoorbell 0 h r val) :=
  does_of rfl (if_pos hs)

theorem txRingDoorbell_does (hs : s.store.service = true) : Does (.txRingDoorbell h r val) s (ringDoorbell 1 h r val) :=
  does_of rfl (if_pos hs)

theorem pwrHoldWrite_does (hs : s.store.service = true) : Does (.pwrHoldWrite h val) s (pwrHold val) :=
  does_of rfl (if_pos hs)

/-- Following a sleep's readiness changes at most the veto that is due (R516). -/
theorem readyTrack_power (s : State) : (readyTrack s).power = { s.power with vetoDue := (readyTrack s).power.vetoDue } := by
  unfold readyTrack; split <;> rfl

theorem pwrHold_power (val : Word) (s : State) :
    (pwrHold val s).power = { s.power with hold := val.getLsbD 0, vetoDue := (pwrHold val s).power.vetoDue } :=
  readyTrack_power _

end

/-- Settles O35: on a node in service a doorbell is its write, which the ring's host decides; PWR_HOLD is its bit and what follows it. -/
theorem ringDoorbellsAndPowerHold : Obligations.RingDoorbellsAndPowerHold := by
  intro h r val s hs
  refine ⟨?_, ?_, fun hg => ?_, fun hg => ?_, ?_⟩
  · rintro g rfl hp hh hi hk
    exact (rxRingDoorbell_does hs).congr (ringDoorbell_moves (dir := 0) hp hh hi hk)
  · rintro g rfl hp hh hi hk
    exact (txRingDoorbell_does hs).congr (ringDoorbell_moves (dir := 1) hp hh hi hk)
  · exact (rxRingDoorbell_does hs).congr (ringDoorbell_ignored (dir := 0) hg)
  · exact (txRingDoorbell_does hs).congr (ringDoorbell_ignored (dir := 1) hg)
  · have hpow := pwrHold_power val (begin_ s)
    exact ⟨_, pwrHoldWrite_does hs, congrArg Power.hold hpow, hpow⟩

/-! ### TX_FRAME_READ -/

/-- The tag of the frame that the next descriptors of a ring bound to a port make (R354). -/
def nextTx (s : State) (r port : Nat) (descs : List TxDesc) : TxTag :=
  { ring := r, desc := (txRing s r).head, count := descs.length, stamp := port != 0x80 && descs.any fun d => d.first && d.stamp }

/-- A frame's descriptors are used up (R351). -/
def useDescs (r : Nat) (descs : List TxDesc) (s : State) : State :=
  setTx r (fun g => { g with head := (g.head + descs.length) % 2 ^ g.log2 }) s

/-- A frame read from a ring is owed its write-back and goes its way (R354, R355). -/
def sendTx (port : Nat) (t : TxTag) (f : List Byte) (s : State) : State :=
  let s := { s with rings := { s.rings with owed := s.rings.owed ++ [t] } }
  sweepTx (if port = 0x80 then hostFrame t f s else carRingFrame port t f s)

/-- A frame read from a ring that is too long to send is written back as dropped, and a car port counts it (R354, R358). -/
def dropTx (port : Nat) (t : TxTag) (s : State) : State :=
  txWriteBack { tag := t, flags := txFlags false true, at_ := none } (if port < 12 then countCar port 0xB0 s else s)

section
variable {r : Fin 64} {descs : List TxDesc} {port : Nat} {s : State}

/-- The next frame of a bound ring that is not being unbound uses up its descriptors, and its length decides about it (R354). -/
theorem txFrameRead_does (hs : serving s = true) (hp : (txRing s r).port = some port) (hu : (txRing s r).unbinding = none)
    (hw : wholeFrame descs = true) (hl : descs.length ≤ posted (txRing s r)) :
    Does (.txFrameRead r descs) s fun t =>
      if txTooLong (txData descs) then dropTx port (nextTx s r port descs) (useDescs r descs t)
      else sendTx port (nextTx s r port descs) (txData descs) (useDescs r descs t) := by
  refine does_of rfl ?_
  have hread : ¬ (!(serving s && (txRing s r).unbinding.isNone && wholeFrame descs && decide (descs.length ≤ posted (txRing s r)))) = true := by
    simp [hs, hu, hw, hl]
  simp only [txRing_begin, serving_begin, hp]
  exact if_neg hread

theorem txFrameRead_sends (hs : serving s = true) (hp : (txRing s r).port = some port) (hu : (txRing s r).unbinding = none)
    (hw : wholeFrame descs = true) (hl : descs.length ≤ posted (txRing s r)) (hf : txTooLong (txData descs) = false) :
    Does (.txFrameRead r descs) s fun t => sendTx port (nextTx s r port descs) (txData descs) (useDescs r descs t) :=
  (txFrameRead_does hs hp hu hw hl).congr (if_neg (by simp [hf]))

theorem txFrameRead_drops (hs : serving s = true) (hp : (txRing s r).port = some port) (hu : (txRing s r).unbinding = none)
    (hw : wholeFrame descs = true) (hl : descs.length ≤ posted (txRing s r)) (hf : txTooLong (txData descs) = true) :
    Does (.txFrameRead r descs) s fun t => dropTx port (nextTx s r port descs) (useDescs r descs t) :=
  (txFrameRead_does hs hp hu hw hl).congr (if_pos hf)

/-! ### RING_UNBIND_DONE -/

/-- A receive ring is quiet at once (R350). -/
theorem rxUnbindDone_does {tag : BitVec 8} (hr : running s = true) (hu : (rxRing s r).unbinding = some tag) (hp : (rxRing s r).port = some port) :
    Does (.ringUnbindDone false r) s (atCommit (some tag) 0 fun s => setBound 0 port none (setRing 0 r (fun _ => {}) s)) := by
  refine does_of rfl ?_
  simp only [rxRing_begin, Bool.false_eq_true, if_false, hu, hp]
  exact if_pos (by simp [hr, ringQuiet])

/-- A transmit ring of the host station is quiet when no frame of it is owed its write-back (R350). -/
theorem txUnbindDone_does {tag : BitVec 8} (hr : running s = true) (hu : (txRing s r).unbinding = some tag) (hp : (txRing s r).port = some port)
    (hport : 12 ≤ port) (ho : ∀ o ∈ s.rings.owed, o.ring ≠ r) :
    Does (.ringUnbindDone true r) s (atCommit (some tag) 0 fun s => setBound 1 port none (setRing 1 r (fun _ => {}) s)) := by
  have hnone : (s.rings.owed.any fun t => t.ring == r.val) = false := List.any_eq_false.mpr fun o hin => by simpa using ho o hin
  refine does_of rfl ?_
  simp only [txRing_begin, if_true, hu, hp, Bool.true_and, decide_eq_false (Nat.not_lt.mpr hport), Bool.false_eq_true, if_false]
  exact if_pos (by simp [hr, ringQuiet, hnone])

end

/-- Settles O42: the length of the frame decides about it, and the port where a dropped one counts; a quiet ring is unbound. -/
theorem transmitRingsAreRead : Obligations.TransmitRingsAreRead := by
  intro r descs port s hs
  refine ⟨fun hp hu hw hl hf => txFrameRead_sends hs hp hu hw hl hf, fun hp hport hu hw hl hf => ?_, fun hp hport hu hw hl hf => ?_,
    fun tag hr hu hp => rxUnbindDone_does hr hu hp, fun tag hr hu hp hport ho => txUnbindDone_does hr hu hp hport ho⟩
  · exact (txFrameRead_drops hs hp hu hw hl hf).congr (congrArg (txWriteBack _) (if_pos hport))
  · exact (txFrameRead_drops hs hp hu hw hl hf).congr (congrArg (txWriteBack _) (if_neg (Nat.not_lt.mpr hport)))

end Sys2Proof.Machine
end

section
/-! PROOFS. The car ports: their links (R325 to R327, R347), reception (R328, R329), transmission (R126, R340, R347) and what they send by
their own action (R345, R346, R348, R359); the links of the backbone ports (R182, R252). -/

open Sys2Proof Sys2Proof.Machine

namespace Sys2Proof.Machine

/-! ### What clearing the outputs, time and counting leave of a port -/

@[simp] theorem carAt_begin (s : State) (n : Nat) : carAt (begin_ s) n = carAt s n := rfl
@[simp] theorem carWorks_begin (s : State) (n : Nat) : carWorks (begin_ s) n = carWorks s n := rfl
@[simp] theorem isActive_begin (s : State) : isActive (begin_ s) = isActive s := rfl
@[simp] theorem mayOriginate_begin (s : State) (n : Nat) : mayOriginate (begin_ s) n = mayOriginate s n := rfl
@[simp] theorem heldBytes_begin (s : State) (n : Nat) : heldBytes (begin_ s) n = heldBytes s n := rfl
@[simp] theorem nextDue_begin (s : State) (n : Nat) : nextDue (begin_ s) n = nextDue s n := rfl

@[simp] theorem carAt_toLt (l : Nat) (s : State) (n : Nat) : carAt (toLt l s) n = carAt s n := by simp [carAt]

@[simp] theorem isActive_countCar (n off : Nat) (s : State) : isActive (countCar n off s) = isActive s := by simp [isActive]

@[simp] theorem isActive_toLt (l : Nat) (s : State) : isActive (toLt l s) = isActive s := by simp [isActive]

theorem carAt_countCar_flags (n off : Nat) (s : State) : (carAt (countCar n off s) n).flags = (carAt s n).flags := by
  simp only [carAt, countCar, setCar_car, List.getD_eq_getElem?_getD, List.getElem?_modify_eq]
  cases s.car[n]? <;> rfl

/-! ### Links -/

section
variable {n : Fin 12} {p : BPort} {s : State}

theorem linkUp_car (hw : carWorks s n = true) (hl : (carAt s n).link = .training) (ht : s.clk.ps ≤ (carAt s n).linkPs + trainLimit) :
    Does (.linkUp (.car n)) s fun s => lpiCheck n (setLink n .up s) :=
  does_of rfl (if_pos (by simp [hw, hl, ht]))

theorem linkTrainTimeout_fails (hw : carWorks s n = true) (hl : (carAt s n).link = .training) :
    Does (.linkTrainTimeout n) s fun s => setLink n .failed (toPs ((carAt s n).linkPs + trainLimit) s) :=
  does_of rfl (if_pos (by simp [hw, hl]))

theorem linkFailedEnd_trains (hw : carWorks s n = true) (hl : (carAt s n).link = .failed) :
    Does (.linkFailedEnd n) s fun s => setLink n .training (toPs ((carAt s n).linkPs + failedTime) s) :=
  does_of rfl (if_pos (by simp [hw, hl]))

theorem linkDown_car (hr : running s = true) (hu : carUp (carAt s n) = true) :
    Does (.linkDown (.car n)) s fun s => setLink n .training (clearPort n s) :=
  does_of rfl (if_pos (by simp [hr, hu]))

theorem linkUp_bb (hr : running s = true) (hq : quarantined s (8 + p.idx) = false) (ht : underTest s (8 + p.idx) = false) :
    Does (.linkUp (.bb p)) s (bbUp p) := by
  have hfree : (running s && !quarantined s (8 + p.idx) && !underTest s (8 + p.idx)) = true := by simp [hr, hq, ht]
  exact does_of rfl (if_pos hfree)

theorem bbUp_of_down (h : (bbAt s p).up = false) :
    bbUp p s = neighbourChange (reopen (.bb p) 2 (assertPort (.bb p) 0 (setBb p (fun b => { b with up := true }) s))) :=
  if_neg (by simp [h])

/-- Only a unit that has cancelled a sleep sends a wake pulse (R517). -/
theorem vetoPulse_none (h : s.power.cancelled = none) : vetoPulse p s = s := by simp only [vetoPulse, h]

/-- A backbone link that goes down ends everything that hangs on it (log 22). -/
theorem linkDown_bb (hr : running s = true) (hc : s.power.cancelled = none) : Does (.linkDown (.bb p)) s (bbDown p) :=
  does_of rfl ((if_pos hr).trans (congrArg (bbDown p) (vetoPulse_none (s := begin_ s) hc)))

end

/-- Settles O38: each event passes its guard, and what it does is what the link's state selects. -/
theorem linksComeAndGo : Obligations.LinksComeAndGo := by
  intro n p s
  exact ⟨fun hw hl ht => linkUp_car hw hl ht, fun hw hl => linkTrainTimeout_fails hw hl, fun hw hl => linkFailedEnd_trains hw hl,
    fun hr hu => linkDown_car hr hu, fun hr hq ht hd => (linkUp_bb hr hq ht).congr (bbUp_of_down (s := begin_ s) hd),
    fun hr hc _ => linkDown_bb hr hc⟩

/-! ### Reception -/

section
variable {n sfd : Nat} {bytes : List Byte} {s : State}

/-- A bad frame is dropped where RX_KEEP_BAD is clear (R329). -/
theorem dropBad_drops (hk : (carAt s n).flags.getLsbD 0 = false) (off : Nat) : dropBad n sfd off bytes s = countCar n off s :=
  if_neg (by rw [carAt_countCar_flags, hk]; decide)

theorem carReceive_wrongLength (hl : lengthOk bytes = false) (hk : (carAt s n).flags.getLsbD 0 = false) :
    carReceive n sfd bytes s = countCar n 0x18 s :=
  (if_pos (by simp [hl])).trans (dropBad_drops hk _)

theorem carReceive_badFcs (hl : lengthOk bytes = true) (hf : fcsOf bytes ≠ .good) (hk : (carAt s n).flags.getLsbD 0 = false) :
    carReceive n sfd bytes s = countCar n 0x10 s := by
  refine (if_neg (by simp [hl])).trans ((if_pos ?_).trans (dropBad_drops hk _))
  exact bne_iff_ne.mpr hf

/-- A good frame is counted, and the unit's role decides who looks at it (R328, R329). -/
theorem carReceive_good (hl : lengthOk bytes = true) (hf : fcsOf bytes = .good) :
    carReceive n sfd bytes s =
      if !isActive (countCar n 0x00 s) then standbyRx n sfd (stripFcs bytes) (countCar n 0x00 s)
      else if isLinkLocalDa (frDa (stripFcs bytes)) then linkLocalRx n sfd (stripFcs bytes) (countCar n 0x00 s)
      else classCar n sfd (stripFcs bytes) (wakeStep n sfd bytes (learnSa n (frSa (stripFcs bytes)) (countCar n 0x00 s))) :=
  (if_neg (by simp [hl])).trans (if_neg (by simp [hf]))

theorem carReceive_active (hl : lengthOk bytes = true) (hf : fcsOf bytes = .good) (ha : isActive s = true)
    (hd : isLinkLocalDa (frDa (stripFcs bytes)) = false) :
    carReceive n sfd bytes s =
      classCar n sfd (stripFcs bytes) (wakeStep n sfd bytes (learnSa n (frSa (stripFcs bytes)) (countCar n 0x00 s))) := by
  rw [carReceive_good hl hf, isActive_countCar, ha, hd]
  exact (if_neg (by decide)).trans (if_neg (by decide))

/-- A unit that is not active takes nothing but 802.1AS: a standby (R328), and one that is STARTING too (log 48). -/
theorem carReceive_notActive (hl : lengthOk bytes = true) (hf : fcsOf bytes = .good) (ha : isActive s = false)
    (hd : isLinkLocalDa (frDa (stripFcs bytes)) = false) : carReceive n sfd bytes s = countCar n 0x00 s := by
  rw [carReceive_good hl hf, isActive_countCar, ha]
  exact (if_pos rfl).trans (if_neg (by simp [hd]))

end

theorem carRxFrame_receives {n : Fin 12} {sfd : Nat} {bytes : List Byte} {s : State} (hw : carWorks s n = true)
    (hu : carUp (carAt s n) = true) :
    Does (.carRxFrame n sfd bytes) s fun s => carReceive n sfd bytes (toLt (sfd + carWire (carAt s n) bytes.length) s) :=
  does_of rfl (if_pos (by simp [hw, hu]))

/-- Settles O39: a frame is received whole, and its length, its FCS and the unit's role select what becomes of it. -/
theorem carPortsReceive : Obligations.CarPortsReceive := by
  intro n sfd bytes s hw hu
  have hrx := carRxFrame_receives (sfd := sfd) (bytes := bytes) hw hu
  refine ⟨fun hl hk => hrx.congr (carReceive_wrongLength hl ?_), fun hl hf hk => hrx.congr (carReceive_badFcs hl hf ?_),
    fun hl hf ha hd => hrx.congr (carReceive_active hl hf ?_ hd), fun hl hf ha hd => hrx.congr (carReceive_notActive hl hf ?_ hd)⟩
  · simpa using hk
  · simpa using hk
  · simpa using ha
  · simpa using ha

/-! ### Transmission -/

section
variable {n : Fin 12} {s : State}

theorem carEgressStart_starts {q : Nat} {x : TxFrame} (hw : carWorks s n = true) (hl : (carAt s n).link = .up)
    (hs : (carAt s n).sending = none) (ha : isActive s = true)
    (hx : nextCar (dropOversize n (toLt (carAt s n).freeAt (begin_ s)))
      (carAt (dropOversize n (toLt (carAt s n).freeAt (begin_ s))) n) = some (q, x)) :
    Does (.carEgressStart n) s fun s => startCar n q x (dropOversize n (toLt (carAt s n).freeAt s)) := by
  refine does_of rfl ((if_pos (by simp [hw, hl, hs, ha])).trans ?_)
  simp only [carAt_begin, hx]

/-- A frame of a queue that is neither a slice nor a ring's is counted when it has left the port (R358). -/
theorem carFrameSent_counts {sfd : Nat} {stall : Bool} {x : TxFrame} (hr : running s = true) (hs : (carAt s n).sending = some x)
    (hslice : x.slice = none) (htx : x.tx = none) (hq : (carAt s n).sendingQ < 8) :
    Does (.carFrameSent n sfd stall) s fun s => lpiCheck n (countCar n 0x08
      (toLt (sfd + carWire (carAt s n) (wireLen x.bytes)) (setCar n (fun c => { c with sending := none }) s))) := by
  refine does_of rfl ?_
  simp only [carAt_begin, hs, hslice, htx]
  refine (if_neg (by simp [hr])).trans ?_
  exact congrArg (lpiCheck n) (if_neg (Nat.not_le.mpr hq))

theorem gateEntry_takes {g : Gate} (hr : running s = true) (hg : (carAt s n).gates[(carAt s n).gateIdx + 1]? = some g)
    (hb : (carAt s n).gateNext < boundary s ((cycleOf s (carAt s n).gateNext / s.time.hyper + 1) * s.time.hyper)) :
    Does (.gateEntry n) s fun s =>
      setCar n (fun c => { c with gateIdx := c.gateIdx + 1, gateNext := c.gateNext + g.interval * unitsPerNs })
        (toTick (toLt (carAt s n).gateNext s)) := by
  have hopen : (running s && decide ((carAt s n).gateNext < boundary s ((cycleOf s (carAt s n).gateNext / s.time.hyper + 1) * s.time.hyper)))
      = true := by rw [hr, decide_eq_true hb]; rfl
  refine does_of rfl ?_
  simp only [carAt_begin, hg]
  exact if_pos hopen

/-! ### Low-power idle -/

/-- The least of instants is the first where none is earlier. -/
theorem foldl_min_first {l : List Nat} {t : Nat} (h : ∀ y ∈ l, t ≤ y) : l.foldl min t = t := by
  induction l with
  | nil => rfl
  | cons y l ih =>
    rw [List.foldl_cons, Nat.min_eq_left (h y (by simp))]
    exact ih fun z hz => h z (by simp [hz])

/-- The instants that may end low-power idle, of which none is earlier than the first: that is when it ends (R347). -/
theorem lpiEnd_first {tw t : Nat} {ts : List Nat} (h : (((carAt s n).queues.flatten).map fun x => x.joined + tw * unitsPerNs)
    ++ ((nextDue s n).map fun t => t - lpiLead tw).toList = t :: ts) (hmin : ∀ y ∈ ts, t ≤ y) : lpiEnd s n tw = some t := by
  simp only [lpiEnd, h]
  rw [foldl_min_first hmin]

/-- With nothing queued the port leaves low-power idle for the next due delivery (R347). -/
theorem lpiEnd_due {t : Nat} (hq : (carAt s n).queues.flatten = []) (hd : nextDue s n = some t) (tw : Nat) :
    lpiEnd s n tw = some (t - lpiLead tw) := by
  refine lpiEnd_first (ts := []) ?_ (by simp)
  rw [hq, hd, List.map_nil, List.nil_append, Option.map_some, Option.toList_some]

/-- The frame that joined first ends low-power idle where no due delivery does so earlier (R347). -/
theorem lpiEnd_joined {x : TxFrame} {l : List TxFrame} {tw : Nat} (hq : (carAt s n).queues.flatten = x :: l)
    (hfirst : ∀ y ∈ l, x.joined ≤ y.joined) (hd : ∀ t, nextDue s n = some t → x.joined + tw * unitsPerNs ≤ t - lpiLead tw) :
    lpiEnd s n tw = some (x.joined + tw * unitsPerNs) := by
  refine lpiEnd_first (by rw [hq, List.map_cons, List.cons_append]) fun y hy => ?_
  rcases List.mem_append.mp hy with hy | hy
  · obtain ⟨z, hz, rfl⟩ := List.mem_map.mp hy
    exact Nat.add_le_add_right (hfirst z hz) _
  · obtain ⟨t, ht, rfl⟩ := Option.map_eq_some_iff.mp (Option.mem_toList.mp hy)
    exact hd t ht

/-- A port that leaves low-power idle sends again when its wake, begun for a due delivery, is over (R347). -/
theorem lpiExit_does {t : Nat} (hr : running s = true) (hl : (carAt s n).link = .upLpi) (ht : lpiEnd s n ((carAt s n).partnerTw.getD 0) = some t) :
    Does (.lpiExit n) s fun s =>
      let ready := if (carAt s n).queues.flatten = [] then t + (carAt s n).partnerTw.getD 0 * unitsPerNs else t
      setLink n .up (setCar n (fun c => { c with freeAt := max c.freeAt ready }) (toLt t s)) := by
  have ht' : lpiEnd (begin_ s) n ((carAt s n).partnerTw.getD 0) = some t := ht
  refine does_of rfl ((if_pos (by simp [hr, hl])).trans ?_)
  simp only [carAt_begin, ht']

end

/-- Settles O40: each event passes its guard; the frame that leaves is the port's next one, and the end of low-power idle is the first
instant that R347 names. -/
theorem carPortsTransmit : Obligations.CarPortsTransmit := by
  intro n s
  refine ⟨fun q x hw hl hs ha hx => carEgressStart_starts hw hl hs ha hx,
    fun sfd stall x hr hs hslice htx hq => carFrameSent_counts hr hs hslice htx hq,
    fun g hr hg hb => gateEntry_takes hr hg hb, fun t hr hl hq hd => ?_, fun x l hr hl hq hfirst hd => ?_⟩
  · refine (lpiExit_does hr hl (lpiEnd_due hq hd _)).congr ?_
    simp only [carAt_begin, hq, if_true]; rfl
  · refine (lpiExit_does hr hl (lpiEnd_joined hq hfirst hd)).congr ?_
    simp only [carAt_begin, hq, reduceCtorEq, if_false]; rfl

/-! ### What a port sends by its own action -/

section
variable {n : Fin 12} {s : State}

theorem lldpSend_does (hm : mayOriginate s n = true) (hf : (carAt s n).flags.getLsbD 1 = true) :
    Does (.lldpSend n) s fun s => countCar n 0x08 (emit (.lldp n (trainMac s.survey.position 0) (Config.minWake (carAt s n).mode)
      (Config.minWake (carAt s n).mode) ((carAt s n).partnerTw.getD 0)) s) :=
  does_of rfl (if_pos (by simp [hm, hf]))

/-- A message of a port on which 802.1AS is enabled leaves and is counted (R348). -/
theorem asSend_sends (hm : mayOriginate s n = true) (hon : (carAt s n).asOn = true) (o : State → Out) :
    asSend n o s = countCar n 0x08 (emit (o s) s) :=
  if_pos (by simp [hm, hon])

theorem asSyncSend_does (hm : mayOriginate s n = true) (hon : (carAt s n).asOn = true) :
    Does (.asSyncSend n) s fun s =>
      countCar n 0x08 (countCar n 0x08 (emit (.asSync n (asTime s.clk.lt).1 (asTime s.clk.lt).2.1 (asTime s.clk.lt).2.2) s)) :=
  does_of rfl ((if_pos (by simp [hm, hon])).trans (congrArg (countCar n 0x08) (asSend_sends (s := begin_ s) hm hon _)))

theorem asAnnounceSend_does (hm : mayOriginate s n = true) (hon : (carAt s n).asOn = true) :
    Does (.asAnnounceSend n) s fun s => countCar n 0x08 (emit (.asAnnounce n 1) s) :=
  does_of rfl (asSend_sends (s := begin_ s) hm hon _)

theorem asPdelaySend_does (hm : mayOriginate s n = true) (hon : (carAt s n).asOn = true) :
    Does (.asPdelaySend n) s fun s =>
      countCar n 0x08 (emit (.asPdelayReq n (asTime s.clk.lt).1 (asTime s.clk.lt).2.1 (asTime s.clk.lt).2.2) s) :=
  does_of rfl (asSend_sends (s := begin_ s) hm hon _)

theorem asNoPeer_does (hr : running s = true) (hon : (carAt s n).asOn = true) (hp : (carAt s n).asNoPeer = false) :
    Does (.asNoPeer n) s fun s => setCar n (fun c => { c with asNoPeer := true }) (toPs ((carAt s n).asPeerPs + 3000 * 10 ^ 9) s) :=
  does_of rfl (if_pos (by simp [hr, hon, hp]))

theorem mayOriginate_iff : mayOriginate s n = true ↔ carWorks s n = true ∧ carUp (carAt s n) = true ∧ isActive s = true := by
  simp only [mayOriginate, Bool.and_eq_true, and_assoc]

theorem pauseRefresh_does (hm : mayOriginate s n = true) (hf : (carAt s n).flags.getLsbD 2 = true) (hp : (carAt s n).pausing = true)
    (hh : 49152 < heldBytes s n) :
    Does (.pauseRefresh n) s fun s => sendPause n 0xFFFF (toPs ((carAt s n).pausePs + quantaPs (carAt s n) 32768) s) := by
  obtain ⟨hw, hu, ha⟩ := mayOriginate_iff.mp hm
  exact does_of rfl (if_pos (by simp [hw, hu, ha, hf, hp, hh]))

/-- With one pause left, time passes to its end (R345). -/
theorem pauseExpiry_does {t : Nat} (hr : running s = true) (ht : ((carAt s n).pausedUntil.filter fun x => decide (s.clk.ps < x)) = [t]) :
    Does (.pauseExpiry n) s (toPs t) := by
  have ht' : ((carAt (begin_ s) n).pausedUntil.filter fun x => decide ((begin_ s).clk.ps < x)) = [t] := ht
  refine does_of rfl ((if_neg (by simp [hr])).trans ?_)
  rw [ht']; rfl

end

/-- Settles O41: each event passes its guard, and sends its message or lets its time pass. -/
theorem carPortsOriginate : Obligations.CarPortsOriginate := by
  intro n s
  exact ⟨fun hm hf => lldpSend_does hm hf, fun hm hon => ⟨asSyncSend_does hm hon, asAnnounceSend_does hm hon, asPdelaySend_does hm hon⟩,
    fun hr hon hp => asNoPeer_does hr hon hp, fun hm hf hp hh => pauseRefresh_does hm hf hp hh, fun t hr ht => pauseExpiry_does hr ht⟩

end Sys2Proof.Machine
end

section
/-! PROOFS. The multidrop segments: reception (R361 to R366, R374), access to the pair (R367 to R369) and PLCA (R370 to R373). -/

open Sys2Proof Sys2Proof.Machine

namespace Sys2Proof.Machine

/-! ### What an operation leaves of a segment -/

@[simp] theorem mdAt_begin (s : State) (n : Nat) : mdAt (begin_ s) n = mdAt s n := rfl
@[simp] theorem mdWorks_begin (s : State) (n : Nat) : mdWorks (begin_ s) n = mdWorks s n := rfl

/-- A change of one segment that keeps a field keeps it at every segment, whether or not the segment exists. -/
theorem mdAt_setMd_keeps {α : Type} (field : MdSeg → α) {f : MdSeg → MdSeg} (hf : ∀ m, field (f m) = field m) (g n : Nat) (s : State) :
    field (mdAt (setMd g f s) n) = field (mdAt s n) := by
  simp only [mdAt, setMd_md, List.getD_eq_getElem?_getD, List.getElem?_modify]
  cases s.md[n]? with
  | none => rfl
  | some m =>
    by_cases hgn : g = n
    · simp [hgn, hf]
    · simp [hgn]

theorem mdAt_countMd_keeps {α : Type} (field : MdSeg → α) (hf : ∀ m c, field { m with counters := c } = field m) (g off n : Nat)
    (s : State) : field (mdAt (countMd g off s) n) = field (mdAt s n) :=
  mdAt_setMd_keeps field (fun m => hf m _) g n s

theorem mdAt_after (f : State → State) (s : State) (n : Nat) : mdAt (after f s) n = mdAt (f (begin_ s)) n := rfl
@[simp] theorem mdAt_mdNotice (before s : State) (n : Nat) : mdAt (mdNotice before s) n = mdAt s n := by rw [mdAt, mdNotice_md, mdAt]

theorem isActive_congr {s t : State} (h : t.twin = s.twin) : isActive t = isActive s := by rw [isActive, h, isActive]

theorem mdTransmits_iff {s : State} {g : Nat} : mdTransmits s g = true ↔ mdWorks s g = true ∧ isActive s = true := by
  simp only [mdTransmits, Bool.and_eq_true]

theorem mdCoordinates_iff {m : MdSeg} : mdCoordinates m = true ↔ m.mode = 1 ∧ m.nodeId = 0 := by
  simp only [mdCoordinates, Bool.and_eq_true, beq_iff_eq]

/-- A setting of the image, which no command waits for, takes effect at once unless the node coordinates (R373). -/
theorem mdCommit_untagged {g mode id count burst : Nat} {s : State} (hd : (mdAt s g).due = some (none, mode, id, count, burst))
    (hc : mdCoordinates (mdAt s g) = false) : mdCommit g s = mdTake g mode id count burst s := by
  simp only [mdCommit, hd]
  refine (if_neg (by simp [epochMoved])).trans (if_neg ?_)
  simp [doneOk, hc]

/-! ### A received frame -/

/-- A good frame ends its carrier and is counted (R368, R376). -/
def mdHeard (g : Nat) (s : State) : State := countMd g 0x00 (mdCarrier g 0 s)

/-- An address takes an entry of the station table; the event and its record say so (R363, R377). -/
def mdLearned (g i : Nat) (a : Mac) (s : State) : State :=
  assertMd g 5 (logEvent 0x70 (srcPort (0x20 + g)) (byte1 i ++ zeros 1 ++ macBytes a)
    (setMd g (fun m => { m with stations := tabSet {} m.stations i { addr := some a, pinned := false } }) s))

/-- A frame of an unknown sender is dropped (R363). -/
def mdUnknownSa (g : Nat) (s : State) : State := assertMd g 4 (countMd g 0x38 s)

/-- A classed frame of a station goes on with the station's train address as SA, and its DA is resolved (R365). -/
def mdForward (g i len : Nat) (f : List Byte) (s : State) : State :=
  resolveMd g (mdSfd s len) (resolveIn (frSa f) (stationMac s g i) (withSa f (stationMac s g i))) s

@[simp] theorem mdHeard_twin (g : Nat) (s : State) : (mdHeard g s).twin = s.twin := by simp [mdHeard, mdCarrier]
@[simp] theorem mdHeard_clk (g : Nat) (s : State) : (mdHeard g s).clk = s.clk := by simp [mdHeard, mdCarrier]

/-- Hearing a frame keeps each field of a segment but its counters and the end of its carrier. -/
theorem mdAt_mdHeard_keeps {α : Type} (field : MdSeg → α) (hf : ∀ m c p, field { m with counters := c, freePs := p } = field m) (g : Nat)
    (s : State) : field (mdAt (mdHeard g s) g) = field (mdAt s g) :=
  (mdAt_countMd_keeps field (fun m c => hf m c m.freePs) g 0x00 g _).trans (mdAt_setMd_keeps field (fun m => hf m m.counters _) g g s)

@[simp] theorem stationOf_mdHeard (g : Nat) (a : Mac) (s : State) : stationOf (mdHeard g s) g a = stationOf s g a := by
  simp only [stationOf, mdAt_mdHeard_keeps MdSeg.stations fun _ _ _ => rfl]

@[simp] theorem emptyStation_mdHeard (g : Nat) (s : State) : emptyStation (mdHeard g s) g = emptyStation s g := by
  simp only [emptyStation, stationAddr, mdAt_mdHeard_keeps MdSeg.stations fun _ _ _ => rfl]

@[simp] theorem learn_mdHeard (g : Nat) (s : State) : (mdAt (mdHeard g s) g).learn = (mdAt s g).learn :=
  mdAt_mdHeard_keeps MdSeg.learn (fun _ _ _ => rfl) g s

section
variable {g i : Nat} {a : Mac} {f : List Byte} {s : State}

theorem learnStation_known (h : stationOf s g a = some i) : learnStation g a s = (s, some i) := by
  simp only [learnStation, h]

theorem learnStation_learns (h : stationOf s g a = none) (hl : (mdAt s g).learn = true) (he : emptyStation s g = some i) :
    learnStation g a s = (mdLearned g i a s, some i) := by
  simp only [learnStation, h, hl, he]; rfl

theorem learnStation_drops (h : stationOf s g a = none) (hl : (mdAt s g).learn = false ∨ emptyStation s g = none) :
    learnStation g a s = (mdUnknownSa g s, none) := by
  rcases hl with hl | he
  · simp only [learnStation, h, hl]; rfl
  · cases hl : (mdAt s g).learn <;> simp only [learnStation, h, hl, he] <;> rfl

theorem classMd_plain (hr : isRc f = false) (hp : (isTagged f && frPcp f == 6) = false) : classMd g f s = (s, some f) :=
  (if_neg (by simp [hr])).trans (if_neg (by simp [hp]))

theorem classMd_demotes (hr : isRc f = false) (hp : (isTagged f && frPcp f == 6) = true) :
    classMd g f s = (countMd g 0x40 s, some (demote f)) :=
  (if_neg (by simp [hr])).trans (if_pos hp)

theorem classMd_admits {b : Bucket} (hr : isRc f = true) (hb : police s.clk.ps (f.length + 4) (mdAt s g).bucket = (b, true)) :
    classMd g f s = (setMd g (fun m => { m with bucket := b }) s, some f) := by
  refine (if_pos hr).trans ?_
  simp only [hb, if_true]

theorem classMd_refuses {b : Bucket} (hr : isRc f = true) (hb : police s.clk.ps (f.length + 4) (mdAt s g).bucket = (b, false)) :
    classMd g f s = (countMd g 0x48 (setMd g (fun m => { m with bucket := b }) s), none) := by
  refine (if_pos hr).trans ?_
  simp only [hb, Bool.false_eq_true, if_false]

end

/-- A good frame of a single sender, once it is heard: its sender is looked up, and on the active unit it is classed and goes on (R363 to
R365, R374). -/
def mdStationFrame (g : Nat) (bytes : List Byte) (s : State) : State :=
  match learnStation g (frSa (stripFcs bytes)) s with
  | (s, none) => s
  | (s, some i) =>
    if !isActive s then s
    else match classMd g (stripFcs bytes) s with
      | (s, none) => s
      | (s, some f) => mdForward g i bytes.length f s

section
variable {g i : Nat} {bytes : List Byte} {s u v : State}

theorem mdStationFrame_unknown (h : learnStation g (frSa (stripFcs bytes)) s = (u, none)) : mdStationFrame g bytes s = u := by
  simp only [mdStationFrame, h]

variable (h : learnStation g (frSa (stripFcs bytes)) s = (u, some i))
include h

theorem mdStationFrame_notActive (ha : isActive u = false) : mdStationFrame g bytes s = u := by
  simp only [mdStationFrame, h]
  exact if_pos (by simp [ha])

theorem mdStationFrame_drops (ha : isActive u = true) (hc : classMd g (stripFcs bytes) u = (v, none)) : mdStationFrame g bytes s = v := by
  simp only [mdStationFrame, h, hc]
  exact if_neg (by simp [ha])

theorem mdStationFrame_forwards {f : List Byte} (ha : isActive u = true) (hc : classMd g (stripFcs bytes) u = (v, some f)) :
    mdStationFrame g bytes s = mdForward g i bytes.length f v := by
  simp only [mdStationFrame, h, hc]
  exact if_neg (by simp [ha])

end

/-- What becomes of the state when the sender of a frame is known, or is learned (R363). -/
def MdTaken (g i : Nat) (a : Mac) (s : State) (taken : State → State) : Prop :=
  (stationOf s g a = some i ∧ taken = mdHeard g) ∨
    (stationOf s g a = none ∧ (mdAt s g).learn = true ∧ emptyStation s g = some i ∧ taken = fun s => mdLearned g i a (mdHeard g s))

/-- A station whose frame is taken has an entry; the role and the clock stay as they are. -/
theorem learnStation_taken {g i : Nat} {a : Mac} {s : State} {taken : State → State} (h : MdTaken g i a s taken) :
    learnStation g a (mdHeard g (begin_ s)) = (taken (begin_ s), some i) ∧ isActive (taken (begin_ s)) = isActive s ∧
      (taken (begin_ s)).clk = s.clk := by
  rcases h with ⟨hs, rfl⟩ | ⟨hs, hl, he, rfl⟩
  · exact ⟨learnStation_known ((stationOf_mdHeard ..).trans hs), isActive_congr (by simp), by simp⟩
  · exact ⟨learnStation_learns ((stationOf_mdHeard ..).trans hs) ((learn_mdHeard ..).trans hl) ((emptyStation_mdHeard ..).trans he),
      isActive_congr (by simp [mdLearned, assertMd]), by simp [mdLearned, assertMd]⟩

section
variable {g : Fin 2} {bytes : List Byte} {s : State}

theorem mdRxFrame_wrongLength (hw : mdWorks s g = true) (hl : lengthOk bytes = false) :
    Does (.mdRxFrame g bytes) s fun s => countMd g 0x18 (mdCarrier g 0 s) :=
  does_of rfl ((if_neg (by simp [hw])).trans (if_pos (by simp [hl])))

theorem mdRxFrame_badFcs (hw : mdWorks s g = true) (hl : lengthOk bytes = true) (hf : fcsOf bytes ≠ .good) :
    Does (.mdRxFrame g bytes) s fun s => countMd g 0x10 (mdCarrier g 0 s) :=
  does_of rfl ((if_neg (by simp [hw])).trans ((if_neg (by simp [hl])).trans (if_pos (bne_iff_ne.mpr hf))))

/-! A good frame at a segment that works. -/

variable (hw : mdWorks s g = true) (hl : lengthOk bytes = true) (hf : fcsOf bytes = .good)
include hw hl hf

theorem mdRxFrame_linkLocal (hd : isLinkLocalDa (frDa (stripFcs bytes)) = true) : Does (.mdRxFrame g bytes) s (mdHeard g) :=
  does_of rfl ((if_neg (by simp [hw])).trans ((if_neg (by simp [hl])).trans ((if_neg (by simp [hf])).trans (if_pos hd))))

theorem mdRxFrame_groupSa (hd : isLinkLocalDa (frDa (stripFcs bytes)) = false) (hg : isGroup (frSa (stripFcs bytes)) = true) :
    Does (.mdRxFrame g bytes) s fun s => mdUnknownSa g (mdHeard g s) :=
  does_of rfl ((if_neg (by simp [hw])).trans ((if_neg (by simp [hl])).trans ((if_neg (by simp [hf])).trans
    ((if_neg (by simp [hd])).trans (if_pos hg)))))

/-! A good frame of a single sender that goes beyond its link. -/

variable (hd : isLinkLocalDa (frDa (stripFcs bytes)) = false) (hg : isGroup (frSa (stripFcs bytes)) = false)
include hd hg

theorem mdRxFrame_looksUp : Does (.mdRxFrame g bytes) s fun s => mdStationFrame g bytes (mdHeard g s) :=
  does_of rfl ((if_neg (by simp [hw])).trans ((if_neg (by simp [hl])).trans ((if_neg (by simp [hf])).trans
    ((if_neg (by simp [hd])).trans (if_neg (by simp [hg]))))))

theorem mdRxFrame_unknownSa (hs : stationOf s g (frSa (stripFcs bytes)) = none)
    (hn : (mdAt s g).learn = false ∨ emptyStation s g = none) :
    Does (.mdRxFrame g bytes) s fun s => mdUnknownSa g (mdHeard g s) := by
  refine (mdRxFrame_looksUp hw hl hf hd hg).congr (mdStationFrame_unknown (learnStation_drops ?_ ?_))
  · exact (stationOf_mdHeard ..).trans hs
  · rwa [learn_mdHeard, emptyStation_mdHeard]

variable {i : Nat} {taken : State → State} (ht : MdTaken g i (frSa (stripFcs bytes)) s taken)
include ht

theorem mdRxFrame_notActive (ha : isActive s = false) : Does (.mdRxFrame g bytes) s taken := by
  obtain ⟨hlearn, hact, -⟩ := learnStation_taken ht
  exact (mdRxFrame_looksUp hw hl hf hd hg).congr (mdStationFrame_notActive hlearn (hact.trans ha))

theorem mdRxFrame_forwards (classed : State → State) {f : List Byte} (ha : isActive s = true)
    (hc : classMd g (stripFcs bytes) (taken (begin_ s)) = (classed (begin_ s), some f)) :
    Does (.mdRxFrame g bytes) s fun s => mdForward g i bytes.length f (classed s) := by
  obtain ⟨hlearn, hact, -⟩ := learnStation_taken ht
  exact (mdRxFrame_looksUp hw hl hf hd hg).congr (mdStationFrame_forwards hlearn (hact.trans ha) hc)

theorem mdRxFrame_drops (classed : State → State) (ha : isActive s = true)
    (hc : classMd g (stripFcs bytes) (taken (begin_ s)) = (classed (begin_ s), none)) : Does (.mdRxFrame g bytes) s classed := by
  obtain ⟨hlearn, hact, -⟩ := learnStation_taken ht
  exact (mdRxFrame_looksUp hw hl hf hd hg).congr (mdStationFrame_drops hlearn (hact.trans ha) hc)

theorem mdRxFrame_polices {b : Bucket} {ok : Bool} (ha : isActive s = true) (hr : isRc (stripFcs bytes) = true)
    (hb : police s.clk.ps ((stripFcs bytes).length + 4) (mdAt (taken (begin_ s)) g).bucket = (b, ok)) :
    (ok = true → Does (.mdRxFrame g bytes) s fun s =>
      mdForward g i bytes.length (stripFcs bytes) (setMd g (fun m => { m with bucket := b }) (taken s))) ∧
    (ok = false → Does (.mdRxFrame g bytes) s fun s => countMd g 0x48 (setMd g (fun m => { m with bucket := b }) (taken s))) := by
  obtain ⟨-, -, hclk⟩ := learnStation_taken ht
  rw [← hclk] at hb
  constructor <;> rintro rfl
  · exact mdRxFrame_forwards hw hl hf hd hg ht _ ha (classMd_admits hr hb)
  · exact mdRxFrame_drops hw hl hf hd hg ht _ ha (classMd_refuses hr hb)

end

/-! ### Access to the pair -/

section
variable {g : Fin 2} {s : State}

/-- The next frame starts where access lets it: under CSMA/CD outside a backoff wait, under PLCA with places left (R368, R371). -/
theorem mdTxStart_starts {q : Nat} {f : List Byte} (hw : mdWorks s g = true) (ha : isActive s = true) (hp : (mdAt s g).onPair = false)
    (hd : (mdAt s g).due = none) (hn : mdNext (mdAt s g) = some (q, f)) (hb : mdCsma (mdAt s g) = true → (mdAt s g).backoffPs = none)
    (hc : mdCsma (mdAt s g) = false → 0 < (mdAt s g).credit) :
    Does (.mdTxStart g) s fun s => mdStart g q f (if mdCsma (mdAt s g) then toPs (mdAt s g).freePs s else s) := by
  have hmay : (if mdCsma (mdAt s g) then (mdAt s g).backoffPs.isNone else decide (0 < (mdAt s g).credit)) = true := by
    cases hm : mdCsma (mdAt s g) with
    | true => simp [hb hm]
    | false => simp [hc hm]
  refine does_of rfl ((if_pos (mdTransmits_iff.mpr ⟨hw, ha⟩)).trans ?_)
  rw [mdSent_idle (s := begin_ s) hp, mdCommit_none (s := begin_ s) hd]
  simp only [mdAt_begin, hn]
  exact if_pos hmay

theorem mdCollision_late (hw : mdWorks s g = true) (ha : isActive s = true) (hp : (mdAt s g).onPair = true) :
    Does (.mdCollision g true) s fun s => mdDrop g (assertMd g 3 (countMd g 0x28 (emit (.mdJam g) (countMd g 0x20
      (setMd g (fun m => { m with freePs := s.clk.ps + 3200000 + mdGapPs }) s))))) := by
  have hon : (mdTransmits (begin_ s) g && (mdAt (begin_ s) g).onPair) = true := Bool.and_eq_true_iff.mpr ⟨mdTransmits_iff.mpr ⟨hw, ha⟩, hp⟩
  exact does_of rfl ((if_pos hon).trans (if_pos rfl))

theorem mdBackoffEnd_ends {t : Nat} (hw : mdWorks s g = true) (ht : (mdAt s g).backoffPs = some t) :
    Does (.mdBackoffEnd g) s fun s => setMd g (fun m => { m with backoffPs := none }) (toPs t s) := by
  refine does_of rfl ?_
  simp only [mdAt_begin, ht]
  exact if_pos hw

/-! ### PLCA -/

theorem plcaBeaconSend_sends (hw : mdWorks s g = true) (ha : isActive s = true) (hp : (mdAt s g).onPair = false)
    (hd : (mdAt s g).due = none) (hm : (mdAt s g).mode = 1) (hi : (mdAt s g).nodeId = 0) :
    Does (.plcaBeaconSend g) s fun s =>
      countMd g 0x60 (emit (.mdBeacon g) (setMd g (fun m => { m with beaconPs := s.clk.ps, credit := 0 }) s)) := by
  have hco : mdCoordinates (mdAt s g) = true := mdCoordinates_iff.mpr ⟨hm, hi⟩
  refine does_of rfl ((if_pos (Bool.and_eq_true_iff.mpr ⟨mdTransmits_iff.mpr ⟨hw, ha⟩, hco⟩)).trans ?_)
  rw [mdSent_idle (s := begin_ s) hp]
  simp only [mdAt_begin, hd]
  exact if_pos hco

theorem plcaOpportunity_opens (hw : mdWorks s g = true) (ha : isActive s = true) (hp : (mdAt s g).onPair = false)
    (hm : (mdAt s g).mode = 1) (hfb : (mdAt s g).fallback = false) :
    Does (.plcaOpportunity g) s (setMd g fun m => { m with credit := if m.credit = 1 + m.burst then 0 else 1 + m.burst }) := by
  refine does_of rfl ((if_pos ?_).trans ?_)
  · simp [mdTransmits, hw, ha, hm, hfb]
  · rw [mdSent_idle (s := begin_ s) hp]

theorem plcaBurstTimer_ends (hw : mdWorks s g = true) (ha : isActive s = true) :
    Does (.plcaBurstTimer g) s fun s => setMd g (fun m => { m with credit := 0 }) (mdSent g s) :=
  does_of rfl (if_pos (mdTransmits_iff.mpr ⟨hw, ha⟩))

theorem plcaFallback_falls (hw : mdWorks s g = true) (hm : (mdAt s g).mode = 1) (hi : (mdAt s g).nodeId ≠ 0)
    (hfb : (mdAt s g).fallback = false) :
    Does (.plcaFallback g) s fun s =>
      let u := countMd g 0x78 (toPs ((mdAt s g).beaconPs + 400000000) s)
      mdNotice u (setMd g (fun m => { m with fallback := true, credit := 0 }) u) :=
  does_of rfl (if_pos (by simp [hw, hm, hi, hfb]))

theorem plcaBeaconRx_csma (hw : mdWorks s g = true) (hm : (mdAt s g).mode = 0) : Does (.plcaBeaconRx g) s (countMd g 0x68) :=
  does_of rfl ((if_pos hw).trans (if_pos ((mdAt_countMd_keeps MdSeg.mode (fun _ _ => rfl) ..).trans hm)))

/-- A BEACON opens a follower's cycle and ends its fallback (R372). -/
def mdFollow (g : Nat) (s : State) : State :=
  setMd g (fun m => { m with fallback := false, beaconPs := s.clk.ps, credit := 0, backoffPs := none }) s

theorem plcaBeaconRx_follows (hw : mdWorks s g = true) (hm : (mdAt s g).mode = 1) (hi : (mdAt s g).nodeId ≠ 0) :
    Does (.plcaBeaconRx g) s fun s => mdNotice (countMd g 0x68 s) (mdFollow g (countMd g 0x68 s)) := by
  have hmode : (mdAt (countMd g 0x68 (begin_ s)) g).mode = 1 := (mdAt_countMd_keeps MdSeg.mode (fun _ _ => rfl) ..).trans hm
  have hid : (mdAt (countMd g 0x68 (begin_ s)) g).nodeId ≠ 0 :=
    fun h => hi ((mdAt_countMd_keeps MdSeg.nodeId (fun _ _ => rfl) ..).symm.trans h)
  refine does_of rfl ((if_pos hw).trans ((if_neg (by simp [hmode])).trans (if_neg ?_)))
  exact fun hco => hid (mdCoordinates_iff.mp hco).2

theorem plcaBeaconRx_endsFallback (hlen : g.val < s.md.length) (hw : mdWorks s g = true) (hm : (mdAt s g).mode = 1)
    (hi : (mdAt s g).nodeId ≠ 0) : Completes (.plcaBeaconRx g) s fun t =>
      (mdAt t g).fallback = false ∧ (mdAt t g).credit = 0 ∧ (mdAt t g).backoffPs = none ∧ (mdAt t g).beaconPs = s.clk.ps := by
  refine ⟨_, plcaBeaconRx_follows hw hm hi, ?_⟩
  have hlen' : g.val < (countMd g 0x68 (begin_ s)).md.length := by simpa [countMd] using hlen
  simp only [mdAt_after, mdAt_mdNotice, mdFollow, mdAt_setMd hlen', true_and]
  rfl

theorem due_mdSent (k : Nat) (s : State) : (mdAt (mdSent k s) k).due = (mdAt s k).due := by
  rw [mdSent]
  split
  · exact (mdAt_countMd_keeps MdSeg.due (fun _ _ => rfl) ..).trans (mdAt_setMd_keeps MdSeg.due (by intro; rfl) ..)
  · rfl

theorem mdConfigApply_idle (hw : mdWorks s g = true) (hd : (mdAt s g).due = none) : Does (.mdConfigApply g) s (mdSent g) :=
  does_of rfl ((if_pos hw).trans (mdCommit_none ((due_mdSent ..).trans hd)))

theorem mdConfigApply_takes {mode id count burst : Nat} (hw : mdWorks s g = true)
    (hd : (mdAt s g).due = some (none, mode, id, count, burst)) (hp : (mdAt s g).onPair = false)
    (hc : mdCoordinates (mdAt s g) = false) : Does (.mdConfigApply g) s (mdTake g mode id count burst) := by
  refine does_of rfl ((if_pos hw).trans ?_)
  rw [mdSent_idle (s := begin_ s) hp]
  exact mdCommit_untagged (s := begin_ s) hd hc

end

/-- Settles O43: each event of a segment passes its guard; a good frame's way is decided by its sender's entry, the unit's role and the
frame's class. -/
theorem segmentsFollowCsmaAndPlca : Obligations.SegmentsFollowCsmaAndPlca := by
  intro g bytes s hw
  refine ⟨fun hl => mdRxFrame_wrongLength hw hl, fun hl hf => mdRxFrame_badFcs hw hl hf, fun hl hf hd hg => mdRxFrame_groupSa hw hl hf hd hg,
    fun q f ha hp hd hn hb hc => mdTxStart_starts hw ha hp hd hn hb hc, fun ha hp => mdCollision_late hw ha hp,
    fun t ht => mdBackoffEnd_ends hw ht, fun ha hp hd hm hi => plcaBeaconSend_sends hw ha hp hd hm hi,
    fun ha hp hm hfb => plcaOpportunity_opens hw ha hp hm hfb, fun ha => plcaBurstTimer_ends hw ha,
    fun hm hi hfb => plcaFallback_falls hw hm hi hfb,
    fun hlen => ⟨fun hm => plcaBeaconRx_csma hw hm, fun hm hi => plcaBeaconRx_endsFallback hlen hw hm hi,
      fun hd => mdConfigApply_idle hw hd, fun mode id count burst hd hp hc => mdConfigApply_takes hw hd hp hc⟩,
    fun i hl hf => ⟨fun hd => mdRxFrame_linkLocal hw hl hf hd, fun hd hg => ⟨fun taken ht => ⟨?_, ?_, ?_, ?_⟩, ?_⟩⟩⟩
  · exact fun ha => mdRxFrame_notActive hw hl hf hd hg ht ha
  · exact fun ha hr hp => mdRxFrame_forwards hw hl hf hd hg ht _ ha (classMd_plain hr hp)
  · exact fun ha hr hp => mdRxFrame_forwards hw hl hf hd hg ht _ ha (classMd_demotes hr hp)
  · exact fun ha hr b ok hb => mdRxFrame_polices hw hl hf hd hg ht ha hr hb
  · exact fun hs hn => mdRxFrame_unknownSa hw hl hf hd hg hs hn

end Sys2Proof.Machine
end

section
/-! PROOFS. The event router: what a step leaves of the requests (R443), and what the hosts' registers do (R438 to R447, R451). -/

open Sys2Proof Sys2Proof.Machine

namespace Sys2Proof.Machine

/-! ### The step -/

theorem step_front {c : Instr} {rest : List Instr} {s : State} (h : s.pending = c :: rest) : step s = exec c (s.withPending rest) := by
  rw [step, h]

/-- Settles O1: the queue's front decides the step. -/
theorem stepRunsTheFrontCommand : Obligations.StepRunsTheFrontCommand := fun _ _ _ h => step_front h

/-- A step that answers a next state ends as every command ends: with the arbitration of R443. -/
theorem step_next_after {s t : State} (h : step s = .next t) : ∃ f u, t = after f u := by
  cases hp : s.pending with
  | nil =>
    rw [step, hp] at h
    cases h
    exact ⟨_, _, rfl⟩
  | cons c rest =>
    rw [step_front hp] at h
    rcases exec_runs_or_stops c (s.withPending rest) with ⟨f, hf⟩ | ⟨-, -, hf⟩
    · rw [hf, run_eq] at h
      cases h
      exact ⟨f, _, rfl⟩
    · rw [hf] at h
      cases h

/-! ### The requests -/

/-- Arbitration itself changes nothing that makes a candidate. -/
theorem candidate_settle {s : State} {t : Nat} {e : Nat × SrcCfg} : Candidate (settle s) t e ↔ Candidate s t e := by
  obtain ⟨hstack, hthr⟩ := targetAt_settle s t
  have htop : topPrio (targetAt (settle s) t) = topPrio (targetAt s t) := by rw [topPrio, hstack, topPrio]
  rw [Candidate, hthr, htop]
  rfl

theorem requestsStand_settle (s : State) : RequestsStand (settle s) := by
  intro t x hx
  have hreq : x.request = request s t := by
    rw [show (settle s).router.targets = requestsNow s from rfl, requestsNow, List.getElem?_mapIdx] at hx
    obtain ⟨y, -, rfl⟩ := Option.map_eq_some_iff.mp hx
    rfl
  rw [hreq, request_iff]
  exact and_congr_right fun _ => exists_congr fun _ => candidate_settle.symm

/-- Settles O32: every step ends with the arbitration, after which the requests stand. -/
theorem everyStepKeepsTheRequests : Obligations.EveryStepKeepsTheRequests := by
  intro s t h
  obtain ⟨f, u, rfl⟩ := step_next_after h
  exact requestsStand_settle (f (begin_ u))


/-! ### Pending and mask words -/

section
variable {h : HostId} {n : Fin 21} {val : Word} {s : State}

theorem intPendSet_does (hs : s.store.service = true) : Does (.intPendSet h n val) s (pendSet h n val) := does_of rfl (if_pos hs)
theorem intPendClr_does (hs : s.store.service = true) : Does (.intPendClr h n val) s (pendClr h n val) := does_of rfl (if_pos hs)
theorem intMaskSet_does (hs : s.store.service = true) : Does (.intMaskSet h n val) s (maskSet h n val) := does_of rfl (if_pos hs)
theorem intMaskClr_does (hs : s.store.service = true) : Does (.intMaskClr h n val) s (maskClr h n val) := does_of rfl (if_pos hs)

end

/-- Settles O28: a word is the list of the sources that it may change, of which the pending words keep the edge sources. -/
theorem pendingAndMaskWords : Obligations.PendingAndMaskWords := by
  intro h n val s hs mine edge
  have hmine (id : Nat) : (wordIds h n val (begin_ s)).contains id = mine id := wordIds_contains h n val (begin_ s) id
  have hedge (id : Nat) : ((wordIds h n val (begin_ s)).filter (isEdge s.part)).contains id = edge id := by
    rw [filter_contains, hmine]
  refine ⟨⟨_, intPendSet_does hs, fun id hid => ?_, rfl, rfl, rfl⟩, ⟨_, intPendClr_does hs, fun id hid => ?_, rfl, rfl, rfl⟩,
    ⟨_, intMaskSet_does hs, fun id hid => ?_, rfl, rfl, rfl⟩, ⟨_, intMaskClr_does hs, fun id hid => ?_, rfl, rfl, rfl⟩⟩
  · exact (getLsbD_setBits _ s.router.pend id hid).trans (by rw [← hedge]; rfl)
  · exact (getLsbD_clrBits _ s.router.pend id hid).trans (by rw [← hedge]; rfl)
  · exact (getLsbD_setBits _ s.router.mask id hid).trans (by rw [hmine])
  · exact (getLsbD_clrBits _ s.router.mask id hid).trans (by rw [hmine])

/-! ### Routing -/

section
variable {h : HostId} {id : Nat} {val : Word} {s : State}

theorem srcCfgWrite_does (hs : s.store.service = true) : Does (.srcCfgWrite h id val) s (srcCfgWrite h id val) := does_of rfl (if_pos hs)

/-- A host may take a source that is unrouted, the firmware's or its own (R440). -/
def MayTake (h : HostId) (s : State) (id : Nat) : Prop :=
  unrouted s id = true ∨ targetHost (srcCfg s id).target = none ∨ targetHost (srcCfg s id).target = some h

/-- What R440 makes of an accepted write. -/
def writtenCfg (val : Word) : SrcCfg :=
  if bits val.toNat 3 0 = 0 then {} else { prio := bits val.toNat 3 0, target := bits val.toNat 11 8 }

theorem srcCfgWrite_accepted (h1 : 1 ≤ id) (h2 : id ≤ 640) (hm : MayTake h s id)
    (ht : bits val.toNat 3 0 = 0 ∨ targetHost (bits val.toNat 11 8) = some h) :
    srcCfgWrite h id val s = updRouter (fun r => { r with cfg := tabSet {} r.cfg id (writtenCfg val) }) s :=
  if_pos ⟨h1, h2, hm, ht⟩

theorem srcCfgWrite_refused (hn : ¬ MayTake h s id ∨ (bits val.toNat 3 0 ≠ 0 ∧ targetHost (bits val.toNat 11 8) ≠ some h)) :
    srcCfgWrite h id val s = s := by
  refine if_neg ?_
  rintro ⟨-, -, hm, ht⟩
  rcases hn with hn | ⟨hp, hh⟩
  · exact hn hm
  · exact ht.elim hp hh

/-- A written source reads what was written, and every other source its routing as before. -/
theorem srcCfg_written (hok : RoutingOk s) {x : SrcCfg} {t : State} (ht : t.router.cfg = tabSet {} s.router.cfg id x) (j : Nat) :
    srcCfg t j = if j = id then x else srcCfg s j := by
  rw [srcCfg, ht, tabGet_tabSet {} (wf_above hok.1), srcCfg]

/-- An accepted write, and what it leaves. -/
theorem srcCfgWrite_routes (hs : s.store.service = true) (hok : RoutingOk s) (h1 : 1 ≤ id) (h2 : id ≤ 640) (hm : MayTake h s id)
    (ht : bits val.toNat 3 0 = 0 ∨ targetHost (bits val.toNat 11 8) = some h) : Completes (.srcCfgWrite h id val) s fun t =>
      srcCfg t id = writtenCfg val ∧ (∀ j, j ≠ id → srcCfg t j = srcCfg s j) ∧ RoutingOk t := by
  have hdoes := (srcCfgWrite_does (h := h) (id := id) (val := val) hs).congr (srcCfgWrite_accepted (s := begin_ s) h1 h2 hm ht)
  refine ⟨_, hdoes, ?_, fun j hj => ?_, routing_keeps hok h1 h2 _ rfl⟩
  · exact (srcCfg_written hok rfl id).trans (if_pos rfl)
  · exact (srcCfg_written hok rfl j).trans (if_neg hj)

end

/-- Settles O29: a write is accepted or refused as a whole. -/
theorem routingObeysOwnership : Obligations.RoutingObeysOwnership := by
  intro h id val s hs hok h1 h2 prio target mayTake
  refine ⟨fun hm hp hh => ?_, fun hm hp => ?_, fun hn => ?_⟩
  · obtain ⟨t, ht, hcfg, hrest⟩ := srcCfgWrite_routes hs hok h1 h2 hm (.inr hh)
    exact ⟨t, ht, hcfg.trans (if_neg hp), hrest⟩
  · obtain ⟨t, ht, hcfg, hrest⟩ := srcCfgWrite_routes hs hok h1 h2 hm (.inl hp)
    refine ⟨t, ht, ?_, hrest⟩
    rw [unrouted, hcfg, writtenCfg, if_pos hp]
    rfl
  · exact (srcCfgWrite_does hs).congr (srcCfgWrite_refused (s := begin_ s) hn)

/-! ### The winner -/

section
variable {s : State} {t : Nat}

/-- With a candidate, the winner is the best one: the highest priority, then the lowest ID (R443). -/
theorem winner_best (hok : RoutingOk s) (hq : quarantined s 7 = false) (hc : ∃ e, Candidate s t e) :
    ∃ e, Candidate s t e ∧ winner s t = (e.1, e.2.prio) ∧ (∀ e', Candidate s t e' → e'.2.prio ≤ e.2.prio) ∧
      ∀ e', Candidate s t e' → e'.2.prio = e.2.prio → e.1 ≤ e'.1 := by
  have hprio {e : Nat × SrcCfg} (he : Candidate s t e) : 0 < e.2.prio := by obtain ⟨-, -, hp, -⟩ := he; exact hp
  have hwin : winner s t = (s.router.cfg.filter (isCandidate s t)).foldl better (0, 0) := if_neg (by simp [hq])
  obtain ⟨hw, -, hmax, hlow⟩ := fold_better (s.router.cfg.filter (isCandidate s t)) (0, 0)
    (tabAbove_filter_none _ (wf_above hok.1)) fun e he => .inr (hprio (cand_iff.mpr he))
  rw [← hwin] at hw hmax hlow
  rcases hw with hw | ⟨e, he, -, hw⟩
  · obtain ⟨e, he⟩ := hc
    have hle := hmax e (cand_iff.mp he)
    rw [hw] at hle
    exact absurd (hprio he) (Nat.not_lt.mpr hle)
  · rw [hw] at hmax hlow
    exact ⟨e, cand_iff.mpr he, hw, fun e' he' => hmax e' (cand_iff.mp he'), fun e' he' => hlow e' (cand_iff.mp he')⟩

/-- A candidate that no other precedes is the winner. -/
theorem winner_of_best (hok : RoutingOk s) (hq : quarantined s 7 = false) {e : Nat × SrcCfg} (he : Candidate s t e)
    (hbest : ∀ e', Candidate s t e' → e'.2.prio < e.2.prio ∨ (e'.2.prio = e.2.prio ∧ e.1 ≤ e'.1)) : winner s t = (e.1, e.2.prio) := by
  obtain ⟨w, hw, hwin, hmax, hlow⟩ := winner_best hok hq ⟨e, he⟩
  have hle := hmax e he
  obtain ⟨hp, hid⟩ := (hbest w hw).resolve_left (Nat.not_lt.mpr hle)
  rw [hwin, hp, Nat.le_antisymm (hlow e he hp.symm) hid]

end

/-! ### CLAIM -/

/-- The winner enters service: it goes on the stack, and an edge source loses its pending bit (R444). -/
def claimed (t : Nat) (w : Nat × Nat) (s : State) : State :=
  updRouter (fun r => { r with
      service := r.service ||| BitVec.twoPow 641 w.1
      pend := if isEdge s.part w.1 then r.pend &&& ~~~(BitVec.twoPow 641 w.1) else r.pend })
    (setTarget t (fun x => { x with stack := w :: x.stack, request := false }) s)

section
variable {h : HostId} {t : Fin 16} {s : State}

theorem claimRead_nothing {wide : Bool} (hn : wide = true ∨ targetHost t ≠ some h ∨ (winner s t).1 = 0) : claimRead h t wide s = (s, 0) :=
  if_pos hn

theorem claimRead_winner {id prio : Nat} (hh : targetHost t = some h) (hw : winner s t = (id, prio)) (hid : id ≠ 0) :
    claimRead h t false s = (claimed t (id, prio) s, w32 id) := by
  rw [claimRead, hw]
  exact if_neg (by simp [hh, hid])

theorem claim_reads_zero (hn : targetHost t ≠ some h ∨ (winner s t).1 = 0) : Does (.claim h t false) s (emit (.readData [0])) := by
  refine does_of rfl ?_
  simp only [claimRead_nothing (s := begin_ s) (wide := false) (.inr hn), claimData]
  rfl

theorem claim_wide : Does (.claim h t true) s (emit (.readData [w32 (targetAt s t).threshold, 0])) := by
  refine does_of rfl ?_
  simp only [claimRead_nothing (s := begin_ s) (h := h) (t := t) (wide := true) (.inl rfl), claimData]
  rfl

theorem claim_winner {id prio : Nat} (hh : targetHost t = some h) (hw : winner s t = (id, prio)) (hid : id ≠ 0) :
    Does (.claim h t false) s fun s => emit (.readData [w32 id]) (claimed t (id, prio) s) := by
  refine does_of rfl ?_
  simp only [claimRead_winner (s := begin_ s) hh hw hid, claimData]
  rfl

end

/-! What an effect has sent, and the stacks that it has left, stand after the arbitration. -/

theorem mem_after_out {f : State → State} {s : State} {o : Out} (h : o ∈ (f (begin_ s)).out) : o ∈ (after f s).out :=
  List.mem_append_left _ h

theorem stack_after (f : State → State) (s : State) (t : Nat) : (targetAt (after f s) t).stack = (targetAt (f (begin_ s)) t).stack :=
  (targetAt_settle (f (begin_ s)) t).1

theorem getLsbD_or_twoPow_ne {w i j : Nat} (x : BitVec w) (h : j ≠ i) : (x ||| BitVec.twoPow w i).getLsbD j = x.getLsbD j := by
  simp [BitVec.getLsbD_twoPow, Ne.symm h]

theorem getLsbD_and_not_twoPow_ne {w i j : Nat} (x : BitVec w) (h : j ≠ i) :
    (x &&& ~~~(BitVec.twoPow w i)).getLsbD j = x.getLsbD j := by
  simp only [BitVec.getLsbD_and, BitVec.getLsbD_not, BitVec.getLsbD_twoPow]
  by_cases hj : j < w
  · simp [hj, Ne.symm h]
  · simp [BitVec.getLsbD_of_ge x j (Nat.not_lt.mp hj)]

theorem getLsbD_and_not_twoPow_self {w i : Nat} (x : BitVec w) : (x &&& ~~~(BitVec.twoPow w i)).getLsbD i = false := by
  simp [BitVec.getLsbD_twoPow]

section
variable {h : HostId} {t : Fin 16} {s : State}

/-- What the state shows after a CLAIM with a winner. -/
theorem claim_completes (ht : t.val < s.router.targets.length) (hh : targetHost t = some h) {id prio : Nat} (hw : winner s t = (id, prio))
    (h1 : 1 ≤ id) (h2 : id ≤ 640) : Completes (.claim h t false) s fun u =>
      Out.readData [w32 id] ∈ u.out ∧ (targetAt u t).stack = (id, prio) :: (targetAt s t).stack ∧ u.router.service.getLsbD id = true ∧
      (isEdge s.part id = true → u.router.pend.getLsbD id = false) ∧
      ∀ j, j ≠ id → u.router.pend.getLsbD j = s.router.pend.getLsbD j ∧ u.router.service.getLsbD j = s.router.service.getLsbD j := by
  refine ⟨_, claim_winner hh hw (Nat.pos_iff_ne_zero.mp h1), mem_after_out (List.mem_append_right _ (List.mem_singleton.mpr rfl)), ?_, ?_,
    fun he => ?_, fun j hj => ⟨?_, getLsbD_or_twoPow_ne s.router.service hj⟩⟩
  · rw [stack_after]
    exact congrArg Target.stack (targetAt_setTarget (s := begin_ s) _ ht)
  · exact (bit_set id s.router.service id h2).trans (by simp)
  · refine (congrArg (BitVec.getLsbD · id) (if_pos he)).trans ?_
    exact getLsbD_and_not_twoPow_self s.router.pend
  · show (if isEdge s.part id then s.router.pend &&& ~~~(BitVec.twoPow 641 id) else s.router.pend).getLsbD j = _
    split
    · exact getLsbD_and_not_twoPow_ne s.router.pend hj
    · rfl

/-- The best candidate is claimed. -/
theorem claim_best (ht : t.val < s.router.targets.length) (hh : targetHost t = some h) (hok : RoutingOk s) {e : Nat × SrcCfg}
    (he : Candidate s t e) (hw : winner s t = (e.1, e.2.prio)) : Completes (.claim h t false) s fun u =>
      Out.readData [w32 e.1] ∈ u.out ∧ (targetAt u t).stack = (e.1, e.2.prio) :: (targetAt s t).stack ∧
      u.router.service.getLsbD e.1 = true ∧ (isEdge s.part e.1 = true → u.router.pend.getLsbD e.1 = false) ∧
      ∀ j, j ≠ e.1 → u.router.pend.getLsbD j = s.router.pend.getLsbD j ∧ u.router.service.getLsbD j = s.router.service.getLsbD j := by
  obtain ⟨h1, h2⟩ := hok.2 e he.1
  exact claim_completes ht hh hw h1 h2

end

/-! ### COMPLETE -/

section
variable {h : HostId} {t : Fin 16} {val : Word} {s : State}

theorem complete_does (hs : s.store.service = true) : Does (.complete h t val) s (completeWrite h t val) := does_of rfl (if_pos hs)

/-- What follows a write at COMPLETE counts as a rise where the request stays true (R446). -/
def reRequest (t : Nat) (s : State) : State := setTarget t (fun x => { x with request := false }) s

theorem stack_reRequest (ht : t.val < s.router.targets.length) : (targetAt (reRequest t s) t).stack = (targetAt s t).stack := by
  rw [reRequest, targetAt_setTarget _ ht]

/-- The top of the stack leaves it and its service (R444). -/
def completed (t id : Nat) (rest : List (Nat × Nat)) (s : State) : State :=
  updRouter (fun r => { r with service := r.service &&& ~~~(BitVec.twoPow 641 id) })
    (setTarget t (fun x => { x with stack := rest }) (reRequest t s))

theorem completeWrite_top (ht : t.val < s.router.targets.length) (hh : targetHost t = some h) {p : Nat} {rest : List (Nat × Nat)}
    (hst : (targetAt s t).stack = (bits val.toNat 9 0, p) :: rest) : completeWrite h t val s = completed t (bits val.toNat 9 0) rest s := by
  have hst' := (stack_reRequest ht).trans hst
  rw [reRequest] at hst'
  rw [completeWrite, if_neg (by simp [hh])]
  simp only [hst', if_true]
  rfl

theorem completeWrite_fault (ht : t.val < s.router.targets.length) (hh : targetHost t = some h)
    (hst : (targetAt s t).stack = [] ∨ topId (targetAt s t) ≠ bits val.toNat 9 0) :
    completeWrite h t val s = orderFault t (topId (targetAt s t)) (bits val.toNat 9 0) (reRequest t s) := by
  have hst' := stack_reRequest ht
  rw [reRequest] at hst'
  rw [completeWrite, if_neg (by simp [hh])]
  simp only [hst']
  rw [topId] at hst ⊢
  cases hstk : (targetAt s t).stack with
  | nil => rfl
  | cons e rest =>
    rw [hstk] at hst
    exact if_neg (hst.resolve_left (List.cons_ne_nil e rest))

/-- COMPLETE with the ID at the top of the stack. -/
theorem complete_top (ht : t.val < s.router.targets.length) (hs : s.store.service = true) (hh : targetHost t = some h) {p : Nat}
    {rest : List (Nat × Nat)} (hst : (targetAt s t).stack = (bits val.toNat 9 0, p) :: rest) : Completes (.complete h t val) s fun u =>
      (targetAt u t).stack = rest ∧ u.router.service = s.router.service &&& ~~~(BitVec.twoPow 641 (bits val.toNat 9 0)) ∧
      u.router.faultCount = s.router.faultCount := by
  refine ⟨_, (complete_does hs).congr (completeWrite_top (s := begin_ s) ht hh hst), ?_, rfl, rfl⟩
  rw [stack_after]
  exact congrArg Target.stack (targetAt_setTarget _ (by simpa [reRequest, setTarget] using ht))

/-- Source 1 is an edge source that every part has (R436). -/
theorem edge1 (s : State) : (isEdge s.part 1 && canAssert s 1) = true := by
  have hpresent : absentId s.part 1 = false := by simp [absentId]
  rw [isEdge, canAssert, hpresent]
  rfl

/-- What an order fault makes of the router (R444). -/
theorem orderFault_router (expected given : Nat) (s : State) : (orderFault t expected given s).router =
    { s.router with
      pend := s.router.pend ||| BitVec.twoPow 641 1
      faultCount := sat 32 (s.router.faultCount + 1)
      faultOverrun := s.router.faultOverrun || s.router.faultValid
      faultValid := true
      faultTarget := if s.router.faultValid then s.router.faultTarget else t.val
      faultExpected := if s.router.faultValid then s.router.faultExpected else expected
      faultGiven := if s.router.faultValid then s.router.faultGiven else given } := by
  rw [orderFault, assertEdge, if_pos (edge1 _)]
  cases hv : s.router.faultValid <;> simp [updRouter, hv]

/-- COMPLETE with any other ID, or with an empty stack. -/
theorem complete_fault (ht : t.val < s.router.targets.length) (hs : s.store.service = true) (hh : targetHost t = some h)
    (hst : (targetAt s t).stack = [] ∨ topId (targetAt s t) ≠ bits val.toNat 9 0) : Completes (.complete h t val) s fun u =>
      (targetAt u t).stack = (targetAt s t).stack ∧ u.router.service = s.router.service ∧ u.router.pend.getLsbD 1 = true ∧
      u.router.faultCount = min (s.router.faultCount + 1) (2 ^ 32 - 1) ∧
      (s.router.faultValid = false → u.router.faultValid = true ∧ u.router.faultTarget = t ∧
        u.router.faultExpected = topId (targetAt s t) ∧ u.router.faultGiven = bits val.toNat 9 0) ∧
      (s.router.faultValid = true → u.router.faultOverrun = true ∧ u.router.faultGiven = s.router.faultGiven) := by
  have hdoes : Does (.complete h t val) s fun u => orderFault t (topId (targetAt s t)) (bits val.toNat 9 0) (reRequest t u) :=
    (complete_does hs).congr (completeWrite_fault (s := begin_ s) ht hh hst)
  have hr := orderFault_router (t := t) (topId (targetAt s t)) (bits val.toNat 9 0) (reRequest t (begin_ s))
  have hserv := congrArg Router.service hr
  have hcount := congrArg Router.faultCount hr
  have hvalid := congrArg Router.faultValid hr
  have hgiven := congrArg Router.faultGiven hr
  refine ⟨_, hdoes, ?_, hserv, ?_, hcount,
    fun hv => ⟨hvalid, (congrArg Router.faultTarget hr).trans ?_, (congrArg Router.faultExpected hr).trans ?_, hgiven.trans ?_⟩,
    fun hv => ⟨(congrArg Router.faultOverrun hr).trans ?_, hgiven.trans ?_⟩⟩
  · rw [stack_after, targetAt, congrArg Router.targets hr]
    exact stack_reRequest (s := begin_ s) ht
  · refine (congrArg (fun r : Router => r.pend.getLsbD 1) hr).trans ((bit_set 1 _ 1 (by decide)).trans ?_)
    exact Bool.or_true _
  · exact if_neg (by simp [reRequest, hv])
  · exact if_neg (by simp [reRequest, hv])
  · exact if_neg (by simp [reRequest, hv])
  · simp [reRequest, hv]
  · exact if_pos hv

end

/-- Settles O31: CLAIM reads the winner, which is the best candidate or none; COMPLETE is judged by the top of the stack. -/
theorem claimAndComplete : Obligations.ClaimAndComplete := by
  intro h t val s ht
  refine ⟨fun hq => ⟨fun hc hh hok => ?_, fun hn => ?_, fun hh => claim_reads_zero (.inl hh), claim_wide⟩,
    fun hs hh => ⟨fun p rest hst => ?_, ?_⟩, fun hh => ⟨fun e hok hq he hbest => ?_, fun p rest hs hst => ?_⟩⟩
  · obtain ⟨e, he, hw, hmax, hlow⟩ := winner_best hok hq hc
    exact ⟨e, he, hmax, hlow, claim_best ht hh hok he hw⟩
  · exact claim_reads_zero (.inr (by rw [winner_none hn]))
  · obtain ⟨u, hu, hstack, hserv, hcount⟩ := complete_top ht hs hh hst
    refine ⟨u, hu, hstack, ?_, fun j hj => ?_, hcount⟩ <;> rw [hserv]
    · exact getLsbD_and_not_twoPow_self s.router.service
    · exact getLsbD_and_not_twoPow_ne s.router.service hj
  · rintro expected rfl hst
    exact complete_fault ht hs hh hst
  · obtain ⟨u, hu, hread, hstack, hserv, -⟩ := claim_best ht hh hok he (winner_of_best hok hq he hbest)
    exact ⟨u, hu, hread, hstack, hserv⟩
  · obtain ⟨u, hu, hstack, hserv, -⟩ := complete_top ht hs hh hst
    exact ⟨u, hu, hstack, hserv⟩

/-! ### Thresholds, faults and MSI-X vectors -/

section
variable {h : HostId} {t : Fin 16} {val : Word} {s : State}

theorem thresholdWrite_does (hs : s.store.service = true) : Does (.thresholdWrite h t val) s (thresholdWrite h t val) :=
  does_of rfl (if_pos hs)

theorem thresholdWrite_own (hh : targetHost t = some h) :
    thresholdWrite h t val s = setTarget t (fun x => { x with threshold := bits val.toNat 3 0 }) s := if_pos hh

theorem thresholdWrite_other (hh : targetHost t ≠ some h) : thresholdWrite h t val s = s := if_neg hh

theorem intFaultAck_does (hs : s.store.service = true) : Does (.intFaultAck h val) s (faultAck val) := does_of rfl (if_pos hs)

end

section
variable {v : Fin 10} {s : State}

/-- One vector's mask bit is cleared (R552). -/
def unmasked (v : Nat) (s : State) : State := setMsix v (fun m => { m with masked := false }) s

theorem msixVectorUnmask_does (hs : s.store.service = true) :
    Does (.msixVectorUnmask (.vector v)) s fun s => releaseMsix (unmasked v s) := does_of rfl (if_pos hs)

theorem masked_unmasked (hv : v.val < s.router.msix.length) : ((unmasked v s).router.msix.getD v {}).masked = false := by
  simp [unmasked, setMsix, List.getD, hv]

/-- A vector that nothing holds back any more is freed of the message that it held (R447). -/
theorem mem_freedVectors (hv : v.val < s.router.msix.length) (hf : s.router.functionMask = false) (hd : s.router.d0 = true)
    (hb : s.router.busMaster = true) (hp : s.router.pba.getLsbD v = true) : v.val ∈ freedVectors (unmasked v s) := by
  have hheld : msixHeld (unmasked v s).router v = false := by
    rw [msixHeld, masked_unmasked hv]
    simp [unmasked, setMsix, hf, hd, hb]
  rw [freedVectors, List.mem_filter, hheld]
  exact ⟨List.mem_range.mpr v.isLt, by simpa [unmasked, setMsix] using hp⟩

/-- The messages of the freed vectors leave, and nothing of theirs is pending. -/
theorem releaseMsix_frees (hm : v.val ∈ freedVectors s) (hr : request s (v + 4) = true) :
    Out.msix v ∈ (releaseMsix s).out ∧ (releaseMsix s).router.pba.getLsbD v = false :=
  ⟨List.mem_append_right _ (List.mem_map.mpr ⟨v, List.mem_filter.mpr ⟨hm, hr⟩, rfl⟩),
    foldl_clr_bit _ _ _ v.isLt (.inr hm)⟩

/-- A vector that is not masked gets no pending bit from the arbitration (R447). -/
theorem pba_settle (hp : s.router.pba.getLsbD v = false) (hn : msixHeld s.router v = false) : (settle s).router.pba.getLsbD v = false :=
  foldl_or_bit _ _ _ _ hp (by simp [hn])

end

/-- Settles O30: each write is one of the router's registers; unmasking frees the vector's message. -/
theorem thresholdAckAndUnmask : Obligations.ThresholdAckAndUnmask := by
  intro h t val s hs
  refine ⟨fun hh => (thresholdWrite_does hs).congr (thresholdWrite_own hh), fun hh => (thresholdWrite_does hs).congr (thresholdWrite_other hh),
    fun hb => (intFaultAck_does hs).congr (if_pos hb), fun hb => (intFaultAck_does hs).congr (if_neg (Bool.eq_false_iff.mp hb)),
    fun v hv hf hd hm hp hr => ?_⟩
  have hfree := mem_freedVectors (s := begin_ s) hv hf hd hm hp
  obtain ⟨hout, hpba⟩ := releaseMsix_frees hfree hr
  have hmask : ((releaseMsix (unmasked v (begin_ s))).router.msix.getD v {}).masked = false := masked_unmasked hv
  have hheld : msixHeld (releaseMsix (unmasked v (begin_ s))).router v = false := by
    obtain ⟨-, hn⟩ := List.mem_filter.mp hfree
    rw [Bool.and_eq_true, Bool.not_eq_true'] at hn
    exact hn.2
  exact ⟨_, msixVectorUnmask_does hs, mem_after_out hout, pba_settle hpba hheld, hmask⟩

end Sys2Proof.Machine
end

section
/-! PROOFS. Settings that pass the lane to the partner before they take effect (R417). -/

open Sys2Proof Sys2Proof.Machine

namespace Sys2Proof.Machine

section
variable {op : Nat} {tag : BitVec 8} {c : Cmd} {s : State} {i : Instr} {effect : Effect}

/-- An active unit that hears its partner passes a setting on and waits. -/
theorem startSetting_passes (ha : isActive s = true) (hl : laneUp s = true) (effect : Effect) (c : Cmd) (buf : List Byte) :
    startSetting effect c buf s = passedOn c buf s :=
  if_pos (Bool.and_eq_true_iff.mpr ⟨ha, hl⟩)

variable (ha : isActive s = true) (hl : laneUp s = true) (hr : Ready op tag c s)
include ha hl hr

theorem setting_passes {l : Cmd → State → List Fail}
    (hi : exec i s = run (withCmd op tag fun c s => checked c (l c s) (startSetting effect c []) s) s)
    (hk : firstFail (l c (begin_ s)) = none) : Does i s (passedOn c []) :=
  doCmd hr hi hk (startSetting_passes (s := begin_ s) ha hl effect c [])

theorem bufferedSetting_passes {l : Cmd → Option (List Byte) → State → List Fail} {buf : Option (List Byte)} {bs : List Byte}
    (hb : inBuffer c buf s = some bs)
    (hi : exec i s = run (withCmd op tag fun c s =>
      checked c (l c (inBuffer c buf s) s) (fun t => startSetting effect c ((inBuffer c buf s).getD []) t) s) s)
    (hk : firstFail (l c (some bs) (begin_ s)) = none) : Does i s (passedOn c bs) := by
  have hb' : inBuffer c buf (begin_ s) = some bs := hb
  refine doCmdAt (l := fun c s => l c (inBuffer c buf s) s) (g := fun c s => startSetting effect c ((inBuffer c buf s).getD [])) hr hi ?_ ?_
  · rw [hb']; exact hk
  · rw [hb']; exact startSetting_passes (s := begin_ s) ha hl effect c bs

end

/-- Settles O12: each setting passes its own checks and goes to the lane. -/
theorem settingsPassTheLaneFirst : Obligations.SettingsPassTheLaneFirst := by
  intro tag c s buf l ha hl hb
  exact ⟨fun hr hk => setting_passes (effect := glkConfigEffect) ha hl hr rfl hk,
    fun hr hk => setting_passes (effect := cameraBindEffect) ha hl hr rfl hk,
    fun hr hk => setting_passes (effect := vsuConfigEffect) ha hl hr rfl hk,
    fun hr hk => setting_passes (effect := portConfigEffect) ha hl hr rfl hk,
    fun hr hk => setting_passes (effect := ucastFilterEffect) ha hl hr rfl hk,
    fun hr hk => setting_passes (effect := wakePatternEffect) ha hl hr rfl hk,
    fun hr hk => bufferedSetting_passes (effect := gateListEffect) ha hl hr hb rfl hk,
    fun hr hk => setting_passes (effect := asConfigEffect) ha hl hr rfl hk,
    fun hr hk => setting_passes (effect := mdConfigEffect) ha hl hr rfl hk,
    fun hr hk => setting_passes (effect := canConfigEffect) ha hl hr rfl hk,
    fun hr hk => bufferedSetting_passes (effect := canBufferEffect) ha hl hr hb rfl hk,
    fun hr hk => bufferedSetting_passes (effect := canScheduleEffect) ha hl hr hb rfl hk,
    fun hr hk => setting_passes (effect := canWakeEffect) ha hl hr rfl hk⟩

end Sys2Proof.Machine
end

section
/-! PROOFS. The commands of a CAN controller: its settings on a unit with no partner (R379, R386, R398, R399, R405, R417), its receive records
and its frames at an instant (R390 to R395). -/

open Sys2Proof Sys2Proof.Machine

namespace Sys2Proof.Machine

/-! ### The checks of a command of a controller -/

section
variable {op len least : Nat} {tag : BitVec 8} {c : Cmd} {k : Fin 4} {s : State} {hi : Nat}

/-- A controller's number from its port code. -/
theorem ctlOf (h : pB c 0 = 0x30 + k.val) : pB c 0 - 0x30 = k.val := by omega

theorem codeOk_inRange {n lo hi : Nat} (h : CodeOk c n lo hi s) : inRange lo hi (pB c n) = true := by
  obtain ⟨hlo, hhi, -⟩ := h
  simp [inRange, hlo, hhi]

/-- The length and object of a command on a controller that nothing refuses. -/
theorem canLead_ok {bf : Bool} (hl : c.plen = len) (hb : c.buffer = bf) (he : EpochOk c s) (hc : CodeOk c 0 0x30 hi s) :
    firstFail ([lenCheck c len bf] ++ objectState c s 0 0x30 hi false) = none := by
  rw [lenCheck_ok hl hb, List.singleton_append, firstFail_none, objectState_ok he hc]

/-- The same with a buffer. -/
theorem canLead_buffered {n : Nat} (h : Buffered op len least tag c s) (hc : CodeOk c 0 0x30 hi s) (hn : n ≤ least) :
    firstFail ([lenCheck c len true] ++ objectState c s 0 0x30 hi false ++ descChecks c n) = none := by
  obtain ⟨-, hl, hb, he, hd⟩ := h
  rw [firstFail_append (canLead_ok hl hb he hc), descChecks_ok (descOk_mono hd hn)]

end

/-! ### Receive records -/

section
variable {tag : BitVec 8} {c : Cmd} {k : Fin 4} {s : State}

theorem canReadChecks_own (hc : CodeOk c 0 0x30 0x34 s) (hk : pB c 0 = 0x30 + k.val) (hr : readable (canAt s k) (pB c 1) = true) :
    firstFail [badP (!inRange 0x30 0x34 (pB c 0)) c 0, badP (!readable (canAt s (pB c 0 - 0x30)) (pB c 1)) c 1] = none := by
  rw [codeOk_inRange hc, ctlOf hk, hr]
  rfl

theorem canReadLock_does {wr : Bool} (hrole : s.twin.role ≠ .standby) (hk : pB c 0 = 0x30 + k.val) (hc : CodeOk c 0 0x30 0x34 s)
    (h : Buffered 0x0703 2 80 tag c s) (ht : Takes c wr) (hr : readable (canAt s k) (pB c 1) = true) :
    Does (.canReadLock tag wr) s fun s => finish c 0 (readOf (canAt s k) (pB c 1)).2
      (afterRead k (pB c 1) (delivered c (fitRecord c.bufLen (readOf (canAt s k) (pB c 1)).1) s)) := by
  refine doCmd h.1 rfl ?_ ?_
  · rw [canReadChecks, standbyRefused, not_standby (s := begin_ s) hrole]
    exact (firstFail_append (canLead_buffered (s := begin_ s) h hc (Nat.le_refl _))).trans (canReadChecks_own (s := begin_ s) hc hk hr)
  · simp only [ctlOf hk, outBuffer_takes ht]

theorem canReadRelease_does (hrole : s.twin.role ≠ .standby) (hk : pB c 0 = 0x30 + k.val) (hc : CodeOk c 0 0x30 0x34 s)
    (h : Plain 0x0704 2 tag c s) (hr : readable (canAt s k) (pB c 1) = true) :
    Does (.canReadRelease tag) s fun s => finish c 0 0 (if pB c 1 ≤ 127 then setBuf k (pB c 1) unlockBuf s
      else setCan k (fun x => { x with fifos := x.fifos.modify (pB c 1 - 0x80) (List.drop 1) }) s) := by
  obtain ⟨hready, hl, hb, he⟩ := h
  refine doCmd hready rfl ?_ ?_
  · rw [canReadChecks, standbyRefused, not_standby (s := begin_ s) hrole]
    refine (firstFail_append ?_).trans (canReadChecks_own (s := begin_ s) hc hk hr)
    exact (firstFail_append (canLead_ok (s := begin_ s) hl hb he hc)).trans rfl
  · simp only [ctlOf hk]

theorem readable_buffer {x : CanCtl} {p : Nat} (hp : p ≤ 127) (hb : (bufAt x p).kind = 1) : readable x p = true := by
  simp [readable, hp, hb]

theorem readable_fifo {x : CanCtl} {p : Nat} (h1 : 0x80 ≤ p) (h2 : p ≤ 0x83) : readable x p = true := by
  simp [readable, h1, h2]

/-! ### CAN_TX_AT -/

/-- A transmit buffer of a controller on which CAN_TX_AT is not refused (R382, R394, R396). -/
structure TxBufferFree (x : CanCtl) (b : Nat) : Prop where
  hears : x.state ≠ .listenOnly
  talks : x.listenOnly = false
  unnamed : matrixNames x b = false
  transmit : (bufAt x b).kind = 2
  served : (bufAt x b).suspended = false
  idle : (bufAt x b).pending = false
  untagged : (bufAt x b).txTag = none

theorem canTxAtChecks_ok (hrole : s.twin.role ≠ .standby) (hk : pB c 0 = 0x30 + k.val) (hc : CodeOk c 0 0x30 0x34 s)
    (h : Plain 0x0705 20 tag c s) (hb : pB c 1 ≤ 127) (hfree : TxBufferFree (canAt s k) (pB c 1)) (hlate : pF c 16 4 ≤ 1000000000)
    (htarget : txTarget c ≤ c.atLt / 65536 + 60000000000) : firstFail (canTxAtChecks c s) = none := by
  obtain ⟨-, hl, hbf, he⟩ := h
  obtain ⟨h1, h2, h3, h4, h5, h6, h7⟩ := hfree
  have hrefuse : (standbyRefused s || (inRange 0x30 0x34 (pB c 0) && decide (pB c 1 ≤ 127) && ((canAt s k).state == .listenOnly ||
      (canAt s k).listenOnly || matrixNames (canAt s k) (pB c 1) || (bufAt (canAt s k) (pB c 1)).suspended ||
      (bufAt (canAt s k) (pB c 1)).kind != 2))) = false := by
    rw [standbyRefused, not_standby hrole]
    simp [h1, h2, h3, h4, h5]
  have hown : firstFail [badP (!inRange 0x30 0x34 (pB c 0)) c 0, badP (decide (127 < pB c 1)) c 1,
      badP (decide (c.atLt / 65536 + 60000000000 < txTarget c)) c 8, badP (decide (1000000000 < pF c 16 4)) c 16,
      noResource ((bufAt (canAt s k) (pB c 1)).pending || (bufAt (canAt s k) (pB c 1)).txTag.isSome) 3] = none := by
    rw [codeOk_inRange hc, le_not_lt hb, le_not_lt htarget, le_not_lt hlate, h6, h7]
    rfl
  rw [canTxAtChecks, ctlOf hk, hrefuse]
  exact (firstFail_append (canLead_ok hl hbf he hc)).trans hown

theorem canTxAt_does (hrole : s.twin.role ≠ .standby) (hk : pB c 0 = 0x30 + k.val) (hc : CodeOk c 0 0x30 0x34 s)
    (h : Plain 0x0705 20 tag c s) (hb : pB c 1 ≤ 127) (hfree : TxBufferFree (canAt s k) (pB c 1)) (hlate : pF c 16 4 ≤ 1000000000)
    (htarget : txTarget c ≤ c.atLt / 65536 + 60000000000) : Does (.canTxAt tag) s (canTxAtGo c) :=
  doCmd (l := canTxAtChecks) (g := canTxAtGo) h.1 rfl (canTxAtChecks_ok (s := begin_ s) hrole hk hc h hb hfree hlate htarget) rfl

theorem canTxAtGo_late (hl : txTarget c + pF c 16 4 < c.atLt / 65536) : canTxAtGo c s = finish c 0x70 ((s.clk.ps - c.atPs) / 10 ^ 9) s :=
  if_pos hl

theorem canTxAtGo_waits (hk : pB c 0 = 0x30 + k.val) (hl : c.atLt / 65536 ≤ txTarget c + pF c 16 4) :
    canTxAtGo c s = setBuf k (pB c 1) (fun b => { b with
      txTag := some c.tag, target := txTarget c, late := pF c 16 4, pending := decide (txTarget c ≤ s.clk.lt / 65536),
      attempted := false, kept := none }) (park c k (pB c 1) s) := by
  rw [canTxAtGo, ctlOf hk]
  exact if_neg (Nat.not_lt.mpr hl)

end

/-- Settles O13: each command passes its checks, and its effect is that of its buffer. -/
theorem canRecordsAndTimedFrames : Obligations.CanRecordsAndTimedFrames := by
  intro tag c k s hrole hk hc
  refine ⟨fun wr h ht hr => canReadLock_does hrole hk hc h ht hr, fun h hp hb => ?_, fun h h1 h2 => ?_,
    fun h hb h1 h2 h3 h4 h5 h6 h7 hlate htarget => ?_⟩
  · exact (canReadRelease_does hrole hk hc h (readable_buffer hp hb)).congr (congrArg (finish c 0 0) (if_pos hp))
  · exact (canReadRelease_does hrole hk hc h (readable_fifo h1 h2)).congr (congrArg (finish c 0 0) (if_neg (by omega)))
  · have hdoes := canTxAt_does hrole hk hc h hb ⟨h1, h2, h3, h4, h5, h6, h7⟩ hlate htarget
    refine ⟨fun hl => hdoes.congr ?_, fun hl => hdoes.congr (canTxAtGo_late hl)⟩
    rw [canTxAtGo_waits hk hl, ready_tag h.1]

/-! ### Settings of a controller on a unit with no partner -/

section
variable {op : Nat} {tag : BitVec 8} {c : Cmd} {buf : List Byte} {k : Fin 4} {s t : State} {effect : Effect}

/-- A setting of a unit with no partner is what its effect makes of the state with the setting noted (R417). -/
theorem startSetting_solo (hs : Solo s) (ht : effect (some c.tag) c buf (noteSetting (settingsOf c buf) (park c 0 0 s)) = t)
    (hp : t.twin.partner = none) : startSetting effect c buf s = t := by
  have htake : takeSetting effect (some c.tag) c buf (park c 0 0 s) = t := ht
  rw [start_alone, htake]
  · simp [passesSettings, laneUp, hs.2]
  · rw [htake]; exact hp

/-- A setting whose effect comes to a commit takes effect and completes. -/
theorem startSetting_commits {prep e : State → State} (hr : Ready op tag c s) (hs : Solo s) (he : EpochOk c s)
    (ht : effect (some c.tag) c buf (noteSetting (settingsOf c buf) (park c 0 0 s)) =
      atCommit (some c.tag) 0 e (prep (noteSetting (settingsOf c buf) (park c 0 0 s))))
    (hprep : ∀ u, (prep u).cmdq = u.cmdq ∧ (prep u).survey = u.survey ∧ (prep u).twin = u.twin)
    (hcmdq : ∀ u, (e u).cmdq = u.cmdq) (htwin : ∀ u, (e u).twin = u.twin) :
    startSetting effect c buf s = settingTaken c buf (fun u => e (prep u)) s := by
  obtain ⟨hq, hv, hw⟩ := hprep (noteSetting (settingsOf c buf) (park c 0 0 s))
  have htag := ready_tag hr
  refine startSetting_solo hs (ht.trans ?_) ?_
  · rw [htag]
    exact atCommit_ok hr he hq hv (hcmdq _)
  · rw [settingTaken, finish_twin, htwin, hw]
    exact hs.2

end

section
variable {tag : BitVec 8} {c : Cmd} {k : Fin 4} {s : State}

/-! CAN_CONFIG. -/

/-- The configuration that CAN_CONFIG gives a controller (R379, R380). -/
def canTiming (c : Cmd) (x : CanCtl) : CanCtl :=
  { x with mode := pB c 1 % 4, listenOnly := bitOf (pB c 1) 7, timing := slice c.inl 4 12 }

/-- The same as it waits for the end of a frame. -/
def canDue (tag : BitVec 8) (c : Cmd) (x : CanCtl) : CanCtl := { x with due := some (some tag, BitVec.ofNat 8 (pB c 1), slice c.inl 4 12) }

theorem canConfigChecks_ok (hs : Solo s) (hk : pB c 0 = 0x30 + k.val) (hc : CodeOk c 0 0x30 0x34 s) (h : Plain 0x0701 16 tag c s)
    (htx : txAtInFlight s k = false) (hbits : bits (pB c 1) 6 2 = 0) (ht : timingBad (pB c 1 % 4) (slice c.inl 4 12) = none) :
    firstFail (canConfigChecks false c none s) = none := by
  obtain ⟨-, hl, hb, he⟩ := h
  have hrefuse : (standbyRefuses false s || (inRange 0x30 0x34 (pB c 0) && txAtInFlight s k)) = false := by
    rw [solo_refuses hs, htx, Bool.and_false]; rfl
  have hown : firstFail [badP (bits (pB c 1) 6 2 != 0) c 1,
      (timingBad (pB c 1 % 4) (slice c.inl 4 12)).bind fun i => badP true c (4 + i)] = none := by
    rw [hbits, ht]; rfl
  rw [canConfigChecks]
  simp only [ctlOf hk, hrefuse]
  exact codeChecks hl hb he hc hown

/-- A controller goes OFF and starts as its configuration has it (R379, R384). -/
def canRetimed (k : Nat) (c : Cmd) (s : State) : State := canRestart k (setCan k (canTiming c) (setCanState k .off s))

/-- Nothing is due any more. -/
def clearDue (k : Nat) (s : State) : State := setCan k (fun x => { x with due := none }) s

theorem takeCanConfig_due (hlen : k.val < s.can.length) :
    takeCanConfig k (setCan k (canDue tag c) s) = atCommit (some tag) 0 (canRetimed k c) (clearDue k s) := by
  have hat : canAt (setCan k (canDue tag c) s) k = canDue tag c (canAt s k) := canAt_setCan' hlen
  have hmode : (BitVec.ofNat 8 (pB c 1)).toNat % 4 = pB c 1 % 4 := by
    rw [BitVec.toNat_ofNat]; omega
  have hlisten : (BitVec.ofNat 8 (pB c 1)).getLsbD 7 = bitOf (pB c 1) 7 := by
    rw [BitVec.getLsbD_ofNat]; rfl
  rw [takeCanConfig, hat]
  simp only [canDue, hmode, hlisten, setCan_setCan]
  rfl

theorem canConfig_does {e : State → State} (hs : Solo s) (hk : pB c 0 = 0x30 + k.val) (hc : CodeOk c 0 0x30 0x34 s)
    (h : Plain 0x0701 16 tag c s) (htx : txAtInFlight s k = false) (hbits : bits (pB c 1) 6 2 = 0)
    (ht : timingBad (pB c 1 % 4) (slice c.inl 4 12) = none) (he : startSetting canConfigEffect c [] (begin_ s) = e (begin_ s)) :
    Does (.canConfig tag) s e :=
  doCmd (l := fun c s => canConfigChecks false c none s) (g := fun c s => startSetting canConfigEffect c [] s) h.1 rfl
    (canConfigChecks_ok (s := begin_ s) hs hk hc h htx hbits ht) he

theorem canConfigEffect_idle (hk : pB c 0 = 0x30 + k.val) (hf : canInFrame s k = false) (hlen : k.val < s.can.length) (buf : List Byte) :
    canConfigEffect (some tag) c buf s = atCommit (some tag) 0 (canRetimed k c) (clearDue k (draw s)) := by
  rw [canConfigEffect]
  simp only [ctlOf hk, hf]
  exact takeCanConfig_due (s := draw s) hlen

theorem canConfigEffect_inFrame (hk : pB c 0 = 0x30 + k.val) (hf : canInFrame s k = true) (buf : List Byte) :
    canConfigEffect (some tag) c buf s = setCan k (canDue tag c) (draw s) := by
  rw [canConfigEffect]
  simp only [ctlOf hk, hf]
  rfl

theorem canConfig_idle (hs : Solo s) (hk : pB c 0 = 0x30 + k.val) (hc : CodeOk c 0 0x30 0x34 s)
    (h : Plain 0x0701 16 tag c s) (htx : txAtInFlight s k = false) (hbits : bits (pB c 1) 6 2 = 0)
    (ht : timingBad (pB c 1 % 4) (slice c.inl 4 12) = none) (hlen : k.val < s.can.length) (hf : canInFrame s k = false) :
    Does (.canConfig tag) s (settingTaken c [] fun s => canRetimed k c (clearDue k (draw s))) := by
  refine canConfig_does hs hk hc h htx hbits ht ?_
  refine startSetting_commits (s := begin_ s) (prep := fun s => clearDue k (draw s)) (e := canRetimed k c) h.1 hs h.2.2.2
    (canConfigEffect_idle (s := noteSetting (settingsOf c []) (park c 0 0 (begin_ s))) hk hf hlen []) (fun u => ⟨rfl, rfl, rfl⟩) (fun u => ?_) (fun u => ?_)
  · simp [canRetimed]
  · simp [canRetimed]

theorem canConfig_inFrame (hs : Solo s) (hk : pB c 0 = 0x30 + k.val) (hc : CodeOk c 0 0x30 0x34 s)
    (h : Plain 0x0701 16 tag c s) (htx : txAtInFlight s k = false) (hbits : bits (pB c 1) 6 2 = 0)
    (ht : timingBad (pB c 1 % 4) (slice c.inl 4 12) = none) (hf : canInFrame s k = true) :
    Does (.canConfig tag) s fun s => setCan k (canDue tag c) (draw (noteSetting (settingsOf c []) (park c 0 0 s))) := by
  refine canConfig_does hs hk hc h htx hbits ht (startSetting_solo (s := begin_ s) hs ?_ ?_)
  · rw [ready_tag h.1]
    exact canConfigEffect_inFrame (s := noteSetting (settingsOf c []) (park c 0 0 (begin_ s))) hk hf []
  · exact hs.2

/-! CAN_BUFFER_SET, CAN_SCHEDULE_SET and CAN_WAKE_FILTER_SET. -/

theorem bufferFail_ok {mode : Nat} {d : List Byte} (h32 : 32 ≤ d.length) (hb : bufferBad mode d = none) (hl : d.length = bufferLen d) :
    bufferFail mode d = none := by
  rw [bufferFail, if_neg (Nat.not_lt.mpr h32), hb]
  exact if_pos hl

theorem canBufferChecks_ok {d : List Byte} (hs : Solo s) (hk : pB c 0 = 0x30 + k.val) (hc : CodeOk c 0 0x30 0x34 s)
    (h : Buffered 0x0702 2 4 tag c s) (hp : pB c 1 ≤ 127) (h32 : 32 ≤ d.length) (hb : bufferBad (canAt s k).mode d = none)
    (hl : d.length = bufferLen d) (hn : fld d 0 1 = 2 ∨ matrixNames (canAt s k) (pB c 1) = false) :
    firstFail (canBufferChecks false c (some d) s) = none := by
  have hnames : (fld d 0 1 != 2 && matrixNames (canAt s k) (pB c 1)) = false := by
    rcases hn with hn | hn <;> simp [hn]
  have hrefuse : (standbyRefuses false s || (inRange 0x30 0x34 (pB c 0) && (some d).isSome && fld d 0 1 != 2 &&
      matrixNames (canAt s k) (pB c 1))) = false := by
    rw [solo_refuses hs, Bool.and_assoc, hnames, Bool.and_false]; rfl
  have hown : firstFail [unread (some d), badP (!inRange 0x30 0x34 (pB c 0)) c 0, badP (decide (127 < pB c 1)) c 1,
      bufferFail (canAt s k).mode d] = none := by
    rw [codeOk_inRange hc, le_not_lt hp, bufferFail_ok h32 hb hl]; rfl
  rw [canBufferChecks]
  simp only [ctlOf hk, Option.getD_some, hrefuse]
  exact (firstFail_append (canLead_buffered h hc (by omega))).trans hown

theorem canBufferEffect_untagged {d : List Byte} (hk : pB c 0 = 0x30 + k.val) (ht : (bufAt (canAt s k) (pB c 1)).txTag = none)
    (tag : Option (BitVec 8)) : canBufferEffect tag c d s = atCommit tag 0 (setBuf k (pB c 1) fun b => bufferOf b d) s := by
  refine atCommit_congr ?_
  simp only [ctlOf hk, ht]

theorem canBufferSet_does {buf : Option (List Byte)} {d : List Byte} (hs : Solo s) (hk : pB c 0 = 0x30 + k.val)
    (hc : CodeOk c 0 0x30 0x34 s) (h : Buffered 0x0702 2 4 tag c s) (hbuf : inBuffer c buf s = some d) (hp : pB c 1 ≤ 127)
    (h32 : 32 ≤ d.length) (hb : bufferBad (canAt s k).mode d = none) (hl : d.length = bufferLen d)
    (hn : fld d 0 1 = 2 ∨ matrixNames (canAt s k) (pB c 1) = false) (ht : (bufAt (canAt s k) (pB c 1)).txTag = none) :
    Does (.canBufferSet tag buf) s (settingTaken c d (setBuf k (pB c 1) fun b => bufferOf b d)) := by
  have hbuf' : inBuffer c buf (begin_ s) = some d := hbuf
  refine doCmdAt (l := fun c s => canBufferChecks false c (inBuffer c buf s) s)
    (g := fun c s => startSetting canBufferEffect c ((inBuffer c buf s).getD [])) h.1 rfl ?_ ?_ <;> rw [hbuf']
  · exact canBufferChecks_ok (s := begin_ s) hs hk hc h hp h32 hb hl hn
  · exact startSetting_commits (s := begin_ s) (prep := id) h.1 hs h.2.2.2.1 
      (canBufferEffect_untagged (s := noteSetting (settingsOf c d) (park c 0 0 (begin_ s))) hk ht _) (fun _ => ⟨rfl, rfl, rfl⟩)
      (fun _ => rfl) fun _ => rfl

theorem canScheduleChecks_ok {d : List Byte} (hs : Solo s) (hk : pB c 0 = 0x30 + k.val) (hc : CodeOk c 0 0x30 0x34 s)
    (h : Buffered 0x0706 1 4 tag c s) (hl : d.length = 8192) (hm : matrixBad (canAt s k) s.time.l d = none) :
    firstFail (canScheduleChecks false c (some d) s) = none := by
  have hown : firstFail [failIf ((some d).isSome && d.length != 8192) 0x11 (24 + 0xFFFF * 2 ^ 16), unread (some d),
      badP (!inRange 0x30 0x34 (pB c 0)) c 0, (matrixBad (canAt s k) s.time.l d).map fun i => (0x11, 24 + i * 2 ^ 16)] = none := by
    rw [codeOk_inRange hc, hl, hm]; rfl
  rw [canScheduleChecks]
  simp only [ctlOf hk, Option.getD_some, solo_refuses hs]
  exact (firstFail_append (canLead_buffered h hc (by omega))).trans hown

/-- The matrix that a buffer gives; none where every entry is empty (R398, R399). -/
def matrixOf (d : List Byte) : Option Matrix := if matrixCells d = [] then none else some { bc := fld d 6 2, cells := matrixCells d }

theorem canScheduleSet_does {buf : Option (List Byte)} {d : List Byte} (hs : Solo s) (hk : pB c 0 = 0x30 + k.val)
    (hc : CodeOk c 0 0x30 0x34 s) (h : Buffered 0x0706 1 4 tag c s) (hbuf : inBuffer c buf s = some d) (hl : d.length = 8192)
    (hm : matrixBad (canAt s k) s.time.l d = none) : Does (.canScheduleSet tag buf) s fun s =>
      setCan k (fun x => { x with matrixDue := some (some tag,
          s.time.cycles + (max (if boundary s (cycleOf s c.atLt) = c.atLt then cycleOf s c.atLt + 2 else cycleOf s c.atLt + 3)
            (cycleNow s + 1) - cycleNow s), matrixOf d) })
        (noteSetting (settingsOf c d) (park c 0 0 s)) := by
  have hbuf' : inBuffer c buf (begin_ s) = some d := hbuf
  refine doCmdAt (l := fun c s => canScheduleChecks false c (inBuffer c buf s) s)
    (g := fun c s => startSetting canScheduleEffect c ((inBuffer c buf s).getD [])) h.1 rfl ?_ ?_ <;> rw [hbuf']
  · exact canScheduleChecks_ok (s := begin_ s) hs hk hc h hl hm
  · refine startSetting_solo (s := begin_ s) hs ?_ hs.2
    rw [canScheduleEffect, ctlOf hk, ready_tag h.1]
    rfl

theorem canWakeFilterSet_does (hs : Solo s) (hk : pB c 0 = 0x30 + k.val) (hc : CodeOk c 0 0x30 0x34 s) (h : Plain 0x0707 20 tag c s)
    (h2 : k.val < 2) (h7 : pB c 1 ≤ 7) (h8 : pB c 2 ≤ 8) (h3 : pB c 3 < 8) (hid : pF c 4 4 < 2 ^ 29) :
    Does (.canWakeFilterSet tag) s (settingTaken c [] (setCan k fun x => { x with wake := tabSet {} x.wake (pB c 1) {
      dlc := pB c 2, flags := BitVec.ofNat 8 (pB c 3), ident := w32 (pF c 4 4), mask := w32 (pF c 8 4),
      dataMask := BitVec.ofNat 64 (pF c 12 8) } })) := by
  obtain ⟨hr, hl, hb, he⟩ := h
  obtain ⟨hlo, -, hrest⟩ := hc
  refine solo_does (effect := canWakeEffect) (l := fun c s => canWakeChecks false c none s) hr hs he rfl ?_ (fun t => ?_) (fun _ => rfl)
    fun _ => rfl
  · have hown : firstFail [badP (decide (7 < pB c 1)) c 1, badP (decide (8 < pB c 2)) c 2, badP (decide (8 ≤ pB c 3)) c 3,
        badP (decide (2 ^ 29 ≤ pF c 4 4)) c 4] = none := by
      rw [le_not_lt h7, le_not_lt h8, decide_eq_false (Nat.not_le.mpr h3), decide_eq_false (Nat.not_le.mpr hid)]; rfl
    simp only [canWakeChecks, solo_refuses (s := begin_ s) hs]
    exact codeChecks (s := begin_ s) hl hb he ⟨hlo, by omega, hrest⟩ hown
  · refine atCommit_congr ?_
    rw [ctlOf hk]

end

/-- Settles O11: each setting passes its checks; what it changes at once it commits, and what waits for a frame or a boundary is due. -/
theorem canSettingsTakeEffect : Obligations.CanSettingsTakeEffect := by
  intro tag c k s hs hk hc
  exact ⟨fun h htx hbits ht hlen => ⟨fun hf => canConfig_idle hs hk hc h htx hbits ht hlen hf,
      fun hf => canConfig_inFrame hs hk hc h htx hbits ht hf⟩,
    fun buf d h hbuf hp h32 hb hl hn ht => canBufferSet_does hs hk hc h hbuf hp h32 hb hl hn ht,
    fun buf d h hbuf hl hm => canScheduleSet_does hs hk hc h hbuf hl hm,
    fun h h2 h7 h8 h3 hid => canWakeFilterSet_does hs hk hc h h2 h7 h8 h3 hid⟩

end Sys2Proof.Machine
end

section
/-! PROOFS. A CAN controller on its bus: reception and states (R381, R384, R389, R391), transmission, errors and the schedule matrix (R384,
R393 to R395, R401). -/

open Sys2Proof Sys2Proof.Machine

namespace Sys2Proof.Machine

/-! ### What a change of a controller leaves -/

@[simp] theorem canAt_begin (s : State) (n : Nat) : canAt (begin_ s) n = canAt s n := rfl
@[simp] theorem canWorks_begin (s : State) (n : Nat) : canWorks (begin_ s) n = canWorks s n := rfl

/-- Two changes that agree at the controller are one. -/
theorem setCan_congr {n : Nat} {f g : CanCtl → CanCtl} {s : State} (h : f (canAt s n) = g (canAt s n)) : setCan n f s = setCan n g s := by
  rw [setCan, setCan, modify_congr]
  intro x hx
  have hat : canAt s n = x := by rw [canAt, List.getD_eq_getElem?_getD, hx, Option.getD_some]
  rw [← hat]
  exact h

theorem canAt_setCan_keeps {α : Type} (field : CanCtl → α) {f : CanCtl → CanCtl} (hf : ∀ c, field (f c) = field c) (g n : Nat) (s : State) :
    field (canAt (setCan g f s) n) = field (canAt s n) := by
  simp only [canAt, setCan, List.getD_eq_getElem?_getD, List.getElem?_modify]
  by_cases hg : g = n
  · cases hs : s.can[n]? with
    | none => simp [hg]
    | some c => simp [hg, hf]
  · simp [hg]

section
variable {k : Fin 4} {s : State}

theorem canEnds_of_works (hw : canWorks s k = true) : canEnds s k = true := by rw [canEnds, hw, Bool.true_or]

/-! ### Reception -/

variable {sof : Word} {f : CanFrame} (hw : canWorks s k = true)
include hw

section
variable (ha : canAccepts (canAt s k).mode f.format = true) (hh : canHears (canAt s k) = true)
include ha hh

theorem canReceives : (canEnds (begin_ s) k && canHears (canAt (begin_ s) k) && canAccepts (canAt (begin_ s) k).mode f.format) = true := by
  rw [canEnds_of_works (s := begin_ s) hw, canAt_begin, hh, ha]
  rfl

theorem canFrameRx_listens (hst : (canAt s k).state = .listenOnly) :
    Does (.canFrameRx k sof f) s fun s => canFrameEnd k (takeFrame k sof f s) := by
  refine does_of rfl ((if_pos (canReceives hw ha hh)).trans ?_)
  simp only [canAt_begin, hst]
  rfl

theorem canFrameRx_active (hst : (canAt s k).state = .errorActive) (hr : (canAt s k).recv ≤ 127) :
    Does (.canFrameRx k sof f) s fun s =>
      canFrameEnd k (takeFrame k sof f (canJudge k (canCompany k (setCan k (fun c => { c with recv := c.recv - 1 }) s)))) := by
  have hcount : setCan k (fun c => { c with recv := recAfter (begin_ s) k c.recv }) (begin_ s) =
      setCan k (fun c => { c with recv := c.recv - 1 }) (begin_ s) :=
    setCan_congr (congrArg (fun r => { canAt s k with recv := r }) (if_neg (Nat.not_lt.mpr hr)))
  have hdraw : ¬ 127 < (canAt s k).recv := Nat.not_lt.mpr hr
  refine does_of rfl ((if_pos (canReceives hw ha hh)).trans ?_)
  simp only [canAt_begin, hst, hcount, if_neg hdraw]
  rfl

end

/-! ### States -/

theorem canIntegrated_does : Does (.canIntegrated k) s fun s =>
    if (canAt s k).state == .integrating then setCanState k (if (canAt s k).listenOnly then .listenOnly else .errorActive) s
    else setCan k (fun c => { c with awaitsIdle := false }) s :=
  does_of rfl (if_neg (by simp [hw]))

theorem canBusoffRecovery_recovers (hst : (canAt s k).state = .busOff) : Does (.canBusoffRecovery k) s fun s =>
    setCanState k .errorActive (setCan k (fun c => { c with tec := 0, recv := 0, ackErrors := 0 }) s) :=
  does_of rfl (if_pos (by simp [hw, hst]))

theorem canProtocolException_waits (hh : canHears (canAt s k) = true)
    (hp : (canAt s k).mode = 1 ∨ bitOf (fld (canAt s k).timing 9 1) 2 = false) : Does (.canProtocolException k) s fun s =>
      canFrameEnd k (assertCan k 14 (setCan k (fun c => { c with awaitsIdle := true }) s)) := by
  have hpxd : pxdSet (canAt s k) = false := by
    rcases hp with hp | hp <;> simp [pxdSet, hp]
  refine does_of rfl (if_pos ?_)
  rw [canEnds_of_works (s := begin_ s) hw, canAt_begin, hh, hpxd]
  rfl

omit hw in
theorem canProtocolException_disabled (hm : (canAt s k).mode ≠ 1) (hp : bitOf (fld (canAt s k).timing 9 1) 2 = true) :
    Does (.canProtocolException k) s id := by
  have hpxd : pxdSet (canAt s k) = true := by simp [pxdSet, hp, hm]
  exact does_of rfl (if_neg (by simp [hpxd]))

theorem canLockStale_unlocks {b : Fin 128} {t : Nat} (hl : (bufAt (canAt s k) b).locked = some t) :
    Does (.canLockStale k b) s fun s => assertCan k 13 (setBuf k b unlockBuf (toPs (t + 10 ^ 12) s)) := by
  refine does_of rfl ?_
  simp only [canAt_begin, hl]
  exact if_pos hw

end

/-- Settles O44: each event passes its guard, and the controller's state selects its effect. -/
theorem canControllersReceive : Obligations.CanControllersReceive := by
  intro k sof f b s hw
  refine ⟨fun ha hh hst => canFrameRx_listens hw ha hh hst, fun ha hh hst hr => canFrameRx_active hw ha hh hst hr,
    fun hst => (canIntegrated_does hw).congr (if_neg (by simpa using hst)), fun hst hl => (canIntegrated_does hw).congr ?_,
    fun hst hl => (canIntegrated_does hw).congr ?_, fun hst => canBusoffRecovery_recovers hw hst,
    fun hh hp => canProtocolException_waits hw hh hp, fun _ hm hp => canProtocolException_disabled hm hp,
    fun t hl => canLockStale_unlocks hw hl⟩
  · simp only [canAt_begin, hst, hl]; rfl
  · simp only [canAt_begin, hst, hl]; rfl

/-! ### Transmission -/

section
variable {k : Fin 4} {s : State} (hw : canWorks s k = true)
include hw

theorem canTxStart_wins {i : Nat} {f : CanFrame} {sof : Word} (hm : canMaySend (canAt s k) = true)
    (hb : txBest (txCandidates s k) = some (i, f)) : Does (.canTxStart k true sof) s fun s =>
      let u := setCan k (fun c => { c with aloneTry := false }) (setBuf k i (fun b => { b with attempted := true }) s)
      let f := { f with esi := (canAt u k).state == .errorPassive && f.format == .fd }
      emit (.can k f) (setCan k (fun c => { c with sending := some (i, sof, f) }) u) := by
  have hb' : txBest (txCandidates (begin_ s) k) = some (i, f) := hb
  refine does_of rfl ((if_neg (by simp [hw, hm])).trans ?_)
  simp only [hb']
  rfl

theorem canTxSuccess_completes {i : Nat} {sof : Word} {f : CanFrame} (hs : (canAt s k).sending = some (i, sof, f))
    (hc : (bufAt (canAt s k) i).ctrl.getLsbD 0 = false) : Does (.canTxSuccess k) s fun s =>
      let u := canJudge k (canCompany k (setCan k (fun c => { c with sending := none, tec := c.tec - 1, ackErrors := 0 }) s))
      canFrameEnd k (atCommit (bufAt (canAt s k) i).txTag sof.toNat id (setBuf k i (fun b => { notPending b with clashes := 0 }) u)) := by
  refine does_of rfl ?_
  simp only [canAt_begin, hs, hc]
  exact if_neg (by simp [canEnds_of_works (s := begin_ s) hw])

/-! ### Errors -/

/-- An error at a controller that takes part in error handling is counted, and the state follows (R384). -/
theorem canError_counts {ack : Bool} {ti ri : Nat} (hh : canHears (canAt s k) = true) (hst : (canAt s k).state = .errorActive)
    {count : CanCtl → CanCtl} (hcount : countError ack ti ri (canAt s k) = count (canAt s k)) :
    Does (.canError k ack false ti ri) s fun s => canFrameEnd k (canJudge k (attemptFails k false (setCan k count s))) := by
  refine does_of rfl ((if_neg (by simp [canEnds_of_works (s := begin_ s) hw, hh])).trans ((if_neg (by simp [hst])).trans ?_))
  rw [setCan_congr (s := begin_ s) hcount]

omit hw in
theorem countError_receiver {c : CanCtl} (h : c.sending = none) (ack : Bool) (ti ri : Nat) :
    countError ack ti ri c = { c with recv := c.recv + ri } := by
  simp [countError, tecAdd, recAdd, h]

omit hw in
theorem countError_unacknowledged {c : CanCtl} {x : Nat × Word × CanFrame} (h : c.sending = some x) (ti ri : Nat) :
    countError true ti ri c = { c with tec := if c.tec < 128 then c.tec + 8 else c.tec, ackErrors := c.ackErrors + 1 } := by
  have htec : c.tec + (if c.tec < 128 then 8 else 0) = if c.tec < 128 then c.tec + 8 else c.tec := by split <;> rfl
  simp [countError, tecAdd, recAdd, h, htec]

/-! ### Frames at an instant -/

theorem canTxTarget_pends {b : Fin 128} {t : BitVec 8} (ht : (bufAt (canAt s k) b).txTag = some t) (hp : (bufAt (canAt s k) b).pending = false) :
    Does (.canTxTarget k b) s fun s => setBuf k b (fun x => { x with pending := true }) (toLt ((bufAt (canAt s k) b).target * 65536) s) :=
  does_of rfl (if_pos (by simp [hw, ht, hp]))

theorem canTxLate_ends {b : Fin 128} {t : BitVec 8} {c : Cmd} (ht : (bufAt (canAt s k) b).txTag = some t) (hc : cmdOf s t = some c)
    (hs : (canAt s k).sending = none) : Does (.canTxLate k b) s fun s =>
      let x := bufAt (canAt s k) b
      let s := assertCan k 10 (setBuf k b notPending (toLt ((x.target + x.late) * 65536) s))
      finishTag t 0x70 ((s.clk.ps - c.atPs) / 10 ^ 9) s := by
  have htag : c.tag = t := by simpa using List.find?_some hc
  have hc' : cmdOf (begin_ s) t = some c := hc
  refine does_of rfl ?_
  simp only [canAt_begin, ht, Option.bind_some, hc', hs, htag]
  exact if_pos (by simp [hw])

/-! ### The schedule matrix -/

theorem canWindowEnd_closes {m : Matrix} {j : Nat} (hm : (canAt s k).matrix = some m) (hj : (canAt s k).column = some j) :
    Does (.canWindowEnd k) s fun s => closeWindow k (toLt (windowEnd s (canAt s k) m j) s) := by
  refine does_of rfl ?_
  simp only [canAt_begin, hm, hj]
  exact if_pos hw

omit hw in
/-- Without an open window there is nothing to close. -/
theorem closeWindow_closed {n : Nat} (h : (canAt s n).column = none) : closeWindow n s = setCan n (fun c => { c with column := none }) s := by
  have hcell : openCell (canAt s n) = none := by
    rw [openCell, h]
    split
    · next hk => cases hk
    · rfl
  simp only [closeWindow, hcell]

/-- The next column of the row begins (R401). -/
def columnBegins (n j lt : Nat) (s : State) : State := setCan n (fun c => { c with column := some j }) (toLt lt (closeWindow n s))

/-- The cell's buffer is pending, unless it is suspended (R401, R402). -/
def pendCell (n : Nat) (s : State) : State :=
  match openCell (canAt s n) with
  | some e =>
    if (e.kind = 1 ∨ e.kind = 2) ∧ !(bufAt (canAt s n) e.buffer).suspended then
      setBuf n e.buffer (fun b => { notPending b with pending := true }) s
    else s
  | none => s

omit hw in
theorem canAt_pendCell {α : Type} (field : CanCtl → α) (hf : ∀ c b, field { c with buffers := b } = field c) (n : Nat) (s : State) :
    field (canAt (pendCell n s) n) = field (canAt s n) := by
  rw [pendCell]
  split
  · split
    · exact canAt_setCan_keeps field (fun c => hf c _) n n s
    · rfl
  · rfl

theorem canColumnStart_begins {m : Matrix} {j t : Nat} (hm : (canAt s k).matrix = some m) (hr : matrixRuns s k = true)
    (hc : (canAt s k).column = none)
    (hf : (usedColumns s.time.l m).find? (fun x => decide (s.clk.lt ≤ rowStart s (canAt s k) + x.2 * 65536)) = some (j, t)) :
    Does (.canColumnStart k) s fun s => pendCell k (columnBegins k j (rowStart s (canAt s k) + t * 65536) s) := by
  have hf' : (usedColumns (begin_ s).time.l m).find?
      (fun x => decide ((begin_ s).clk.lt ≤ rowStart (begin_ s) (canAt s k) + x.2 * unitsPerNs)) = some (j, t) := hf
  have hguard : ¬ (!(canWorks (begin_ s) k && matrixRuns (begin_ s) k)) = true := by
    rw [canWorks_begin, hw, show matrixRuns (begin_ s) k = true from hr]
    decide
  refine does_of rfl ?_
  simp only [canAt_begin, hm, hc, if_neg hguard]
  split
  · next hnone => exact absurd (hf'.symm.trans hnone) (by simp)
  · next hsome =>
    cases hf'.symm.trans hsome
    rfl

end

/-- Settles O45: each event passes its guard; what it counts and completes is what the state selects. -/
theorem canControllersTransmit : Obligations.CanControllersTransmit := by
  intro k b sof s hw
  refine ⟨fun i f hm hb => canTxStart_wins hw hm hb, fun i f hs hc => canTxSuccess_completes hw hs hc,
    fun ack ti ri hh hst hs => canError_counts hw hh hst (count := fun c => { c with recv := c.recv + ri }) (countError_receiver hs ack ti ri),
    fun x ti ri hh hst hs => canError_counts hw hh hst
      (count := fun c => { c with tec := if c.tec < 128 then c.tec + 8 else c.tec, ackErrors := c.ackErrors + 1 })
      (countError_unacknowledged hs ti ri),
    fun t ht hp => canTxTarget_pends hw ht hp, fun t c ht hc hs => canTxLate_ends hw ht hc hs, fun m j hm hj => canWindowEnd_closes hw hm hj,
    fun m j t hm hr hc hf hlen => ⟨_, canColumnStart_begins hw hm hr hc hf, ?_⟩⟩
  have hlen' : k.val < (toLt (rowStart s (canAt s k) + t * 65536) (closeWindow k (begin_ s))).can.length := by
    rw [toLt_can, closeWindow_closed (s := begin_ s) hc, setCan_can, List.length_modify]
    exact hlen
  constructor
  · refine (canAt_pendCell CanCtl.column (fun _ _ => rfl) _ _).trans ?_
    exact congrArg CanCtl.column (canAt_setCan' hlen')
  · refine (canAt_pendCell CanCtl.row (fun _ _ => rfl) _ _).trans ((canAt_setCan_keeps CanCtl.row (by intro; rfl) ..).trans ?_)
    rw [canAt, toLt_can, closeWindow_closed (s := begin_ s) hc]
    exact canAt_setCan_keeps CanCtl.row (by intro; rfl) k k (begin_ s)

end Sys2Proof.Machine
end

section
/-! PROOFS. The Creleber lane (R412 to R418): heartbeats, mirrors and settings, and the ends of their waits. -/

open Sys2Proof Sys2Proof.Machine

namespace Sys2Proof.Machine

@[simp] theorem laneOn_begin (s : State) : laneOn (begin_ s) = laneOn s := rfl
@[simp] theorem roleOn_begin (s : State) : roleOn (begin_ s) = roleOn s := rfl
@[simp] theorem isStandby_begin (s : State) : isStandby (begin_ s) = isStandby s := rfl

/-! ### Heartbeats -/

/-- A heartbeat's sender is the partner, heard now (R413, R414). -/
def beatTaken (m : Heartbeat) (s : State) : State :=
  updTwin (fun t => { t with partner := some m, heardPs := s.clk.ps, imageDiff := m.gen != BitVec.ofNat 8 s.store.generation }) s

/-- What a heartbeat makes of the unit in its role (R422, R429, R430). -/
def beatActs (m : Heartbeat) (s : State) : State :=
  revertTrack (match s.twin.role with
    | .active => beatActive m s
    | .standby => beatStandby m s
    | .starting => s)

section
variable {m : Heartbeat} {s : State}

theorem countBeat_up (h : s.twin.laneFault = false) : countBeat s = s := if_pos (by simp [h])

/-- Checking the partner leaves the lane as it is. -/
theorem laneFault_checkPartner (m : Heartbeat) (s : State) : (checkPartner m s).twin.laneFault = s.twin.laneFault := by
  simp only [checkPartner]
  (repeat' split) <;> simp

variable (hl : laneOn s = true)
include hl

theorem heartbeatSend_sends : Does .heartbeatSend s sendBeat := does_of rfl (if_pos hl)

theorem heartbeatRx_known (hf : s.twin.laneFault = false) (hp : (s.twin.partner.map fun h => h.origin) = some m.origin) :
    Does (.heartbeatRx m) s fun s => beatActs m (decideClaim (beatTaken m s)) := by
  obtain ⟨h, hpartner, horigin⟩ := Option.map_eq_some_iff.mp hp
  have hsame : (h.origin != m.origin) = false := by simp [horigin]
  have hcount : countBeat (beatTaken m (begin_ s)) = beatTaken m (begin_ s) := countBeat_up hf
  refine does_of rfl ((if_neg (by simp [hl])).trans ?_)
  simp only [begin__twin, hpartner, hsame]
  exact congrArg (fun u => beatActs m (decideClaim u)) hcount

theorem heartbeatRx_first (hf : s.twin.laneFault = false) (hp : s.twin.partner = none) :
    Does (.heartbeatRx m) s fun s => beatActs m (decideClaim (checkPartner m (beatTaken m s))) := by
  have hcount : countBeat (checkPartner m (beatTaken m (begin_ s))) = checkPartner m (beatTaken m (begin_ s)) :=
    countBeat_up ((laneFault_checkPartner ..).trans hf)
  refine does_of rfl ((if_neg (by simp [hl])).trans ?_)
  simp only [begin__twin, hp]
  exact congrArg (fun u => beatActs m (decideClaim u)) hcount

end

/-! ### Mirrors -/

/-- The latest mirror, of age 0 (R414). -/
def mirrorHeld (m : Mirror) (s : State) : State := updTwin (fun t => { t with mirror := some m, mirrorAge := 0 }) s

theorem cycleMirrorRx_does {m : Mirror} {s : State} (hl : laneOn s = true) (hn : s.twin.numbering = none) :
    Does (.cycleMirrorRx m) s fun s =>
      if isStandby s then compareDigest m (adoptMirror m (mirrorHeld m s)) else mirrorHeld m s := by
  refine does_of rfl ((if_neg (by simp [hl])).trans ?_)
  simp only [updTwin_twin, begin__twin, hn]
  rfl

/-! ### Settings -/

section
variable {s : State}

theorem settingsRx_applies {m : Settings} (hl : laneOn s = true) (hs : isStandby s = true) : Does (.settingsRx m) s fun s =>
    emit (.lane (.settingsAck (settingsCmd m).tag (applySetting (settingsCmd m) m.buffer s).2)) (applySetting (settingsCmd m) m.buffer s).1 :=
  does_of rfl (if_pos (Bool.and_eq_true_iff.mpr ⟨hl, hs⟩))

theorem settingsAckRx_settles {tag : BitVec 8} {status : Nat} {a : Option (BitVec 8) × Settings × Nat} (hl : laneOn s = true)
    (ha : isActive s = true) (hf : (s.twin.awaiting.find? fun a => (settingsCmd a.2.1).tag == tag) = some a) :
    Does (.settingsAckRx tag status) s fun s =>
      staleEnds a.1.isNone (settleSetting a.1 a.2.1 (updTwin (fun t => { t with awaiting := t.awaiting.erase a }) s)) := by
  refine does_of rfl ((if_neg (by simp [hl, ha])).trans ?_)
  simp only [begin__twin, hf]

theorem settingsTimeout_settles {a : Option (BitVec 8) × Settings × Nat} {rest : List (Option (BitVec 8) × Settings × Nat)}
    (hr : running s = true) (ha : isActive s = true) (hw : s.twin.awaiting = a :: rest) : Does .settingsTimeout s fun s =>
      settleSetting a.1 a.2.1 (updTwin (fun t => { t with awaiting := rest, settingsStale := true }) (toPs (a.2.2 + 200000000) s)) := by
  refine does_of rfl ?_
  simp only [begin__twin, hw]
  exact if_neg (by simp [hr, ha])

/-! ### The end of the lane -/

/-- No heartbeat has come for 150,000 ns (R414, R430). -/
def laneFails (s : State) : State :=
  revertTrack (updTwin (fun t => { t with laneFault := true, goodBeats := 0 }) (toPs (s.twin.heardPs + 150000000) s))

theorem role_revertTrack (s : State) : (revertTrack s).twin.role = s.twin.role := by
  rw [revertTrack]
  split <;> rfl

theorem role_laneFails (s : State) : (laneFails s).twin.role = s.twin.role :=
  (role_revertTrack _).trans (by simp)

theorem laneFaultTimeout_faults (hr : roleOn s = true) (hp : s.twin.partner.isSome = true) (hf : s.twin.laneFault = false)
    (hs : isStandby s = false) : Does .laneFaultTimeout s laneFails := by
  have hs' : isStandby (laneFails (begin_ s)) = false := by rw [isStandby, role_laneFails]; exact hs
  refine does_of rfl ((if_pos (by simp [hr, hp, hf])).trans (if_neg ?_))
  exact fun h => Bool.false_ne_true (hs'.symm.trans (Bool.and_eq_true_iff.mp h).1)

theorem heartbeatSendTimeout_releases (hr : running s = true) (ht : hasTwin s.part = true) (hd : s.twin.drivesActl = true) :
    Does .heartbeatSendTimeout s fun s => updTwin (fun t => { t with drivesActl := false }) (toPs (s.twin.sentPs + 150000000) s) :=
  does_of rfl (if_pos (by simp [hr, ht, hd]))

end

/-- Settles O54: each message of the lane and each end of a wait passes its guard; the unit's role selects what follows. -/
theorem theLaneCarriesTheTwin : Obligations.TheLaneCarriesTheTwin := by
  intro s
  refine ⟨fun hl => ⟨heartbeatSend_sends hl, fun m hf => ⟨fun hp => heartbeatRx_known hl hf hp, fun hp => heartbeatRx_first hl hf hp⟩,
      fun m hn => ⟨fun hs => (cycleMirrorRx_does hl hn).congr (if_pos hs), fun hs => ?_⟩, fun m hs => settingsRx_applies hl hs,
      fun tag status a ha hf => settingsAckRx_settles hl ha hf⟩,
    fun a rest hr ha hw => settingsTimeout_settles hr ha hw, fun hr hp hf hs => laneFaultTimeout_faults hr hp hf hs,
    fun hr ht hd => ⟨_, heartbeatSendTimeout_releases hr ht hd, ?_⟩⟩
  · have hdoes : Does (.cycleMirrorRx m) s (mirrorHeld m) :=
      (cycleMirrorRx_does hl hn).congr (if_neg fun h => Bool.false_ne_true (hs.symm.trans h))
    exact ⟨_, hdoes, rfl⟩
  · exact congrArg (fun t : Twin => { t with drivesActl := false }) (toPs_twin (s.twin.sentPs + 150000000) (begin_ s))

end Sys2Proof.Machine
end

section
/-! PROOFS. The roles of a pair (R422 to R425, R428 to R430) and the unit's own faults (R419, R420, R436). -/

open Sys2Proof Sys2Proof.Machine

namespace Sys2Proof.Machine

/-! ### Starting -/

section
variable {s : State}

/-- ACTL reads high, or low. -/
def actlReads (level : Bool) (s : State) : State := updTwin (fun t => { t with actlHigh := level }) s

@[simp] theorem roleOn_actlReads (level : Bool) (s : State) : roleOn (actlReads level s) = roleOn s := rfl
@[simp] theorem isStandby_actlReads (level : Bool) (s : State) : isStandby (actlReads level s) = isStandby s := rfl

theorem actlLow_finds (hr : roleOn s = true) (hs : s.twin.role = .starting) : Does .actlLow s fun s => becomeStandby (actlReads false s) :=
  does_of rfl (if_pos (Bool.and_eq_true_iff.mpr ⟨hr, beq_iff_eq.mpr hs⟩))

theorem twinStartWait_ends (hr : roleOn s = true) (hs : s.twin.role = .starting) (ha : s.twin.actlHigh = true) (hb : barred s = false) :
    Does .twinStartWait s fun s => becomeActive (toPs (s.twin.waitPs + startWait s * 1000) s) :=
  does_of rfl (if_pos (by simp [hr, hs, ha, show barred (begin_ s) = false from hb]))

/-! ### Taking over -/

theorem actlHigh_takes (hr : roleOn s = true) (hs : isStandby s = true) (he : eligible (cutForTakeover (actlReads true (begin_ s))) = true) :
    Does .actlHigh s fun s => takeoverCheck (cutForTakeover (actlReads true s)) := by
  have hon : (roleOn (actlReads true (begin_ s)) && isStandby (actlReads true (begin_ s))) = true := Bool.and_eq_true_iff.mpr ⟨hr, hs⟩
  exact does_of rfl ((if_neg fun h => Bool.false_ne_true ((congrArg not hon).symm.trans h)).trans (if_pos he))

theorem takeoverBoundary_takes {a : Nat} (hr : roleOn s = true) (hs : isStandby s = true) (ha : s.twin.takeoverAt = some a)
    (hb : barred s = false) : Does .takeoverBoundary s fun s =>
      takeRole (takeoverCycle s a) (toLt (boundary s (takeoverCycle s a)) s) := by
  refine does_of rfl ?_
  simp only [begin__twin, ha]
  exact if_pos (by simp [hr, hs, show barred (begin_ s) = false from hb])

theorem takeoverClear_clears (ha : isActive s = true) (ht : s.twin.takeover = true) (hc : 64 ≤ s.twin.takeoverCycles) :
    Does .takeoverClear s (updTwin fun t => { t with takeover := false }) :=
  does_of rfl (if_pos (by simp [ha, ht, hc]))

/-! ### Handover -/

/-- The instant of an announced handover (R429). -/
def toHandover (s : State) : State := toLt (boundary s s.twin.handoverCycle) s

/-- What either unit does at the boundary of an acknowledged handover (R429). -/
def handoverActs (s : State) : State :=
  match s.twin.role with
  | .active => if s.twin.handover then handOver s else s
  | .standby => takeHandover s
  | .starting => s

theorem handoverBoundary_acts (hr : roleOn s = true) (hc : s.twin.handoverCycle ≠ 0) (ha : s.twin.handoverAck = true) :
    Does .handoverBoundary s fun s => handoverActs (toHandover s) :=
  does_of rfl (if_neg (by simp [hr, hc, ha]))

theorem handoverActs_standby (h : isStandby s = true) : handoverActs s = takeHandover s := by
  rw [handoverActs, show s.twin.role = .standby from beq_iff_eq.mp h]

theorem handoverActs_active (h : isActive s = true) (hh : s.twin.handover = true) : handoverActs s = handOver s := by
  rw [handoverActs, show s.twin.role = .active from beq_iff_eq.mp h]
  exact if_pos hh

theorem toHandover_twin (s : State) : (toHandover s).twin = s.twin := toLt_twin _ s

theorem handoverLapse_drops (hr : roleOn s = true) (ha : isActive s = true) (hh : s.twin.handover = true) (hn : s.twin.handoverAck = false) :
    Does .handoverLapse s fun s => dropHandover (toLt (boundary s (s.twin.handoverCycle - 1)) s) :=
  does_of rfl (if_pos (by simp [hr, ha, hh, hn]))

theorem revertTimer_asks {p : Nat} (hm : mayRevert s = true) (hp : s.twin.revertPs = some p) :
    Does .revertTimer s fun s => updTwin (fun t => { t with revertReq := true }) (toPs (p + 10000 * 10 ^ 9) s) := by
  refine does_of rfl ?_
  simp only [begin__twin, hp]
  exact if_pos hm

end

/-! ### The unit's own faults -/

section
variable {s : State} (hr : running s = true)
include hr

theorem actlReadbackFault_yields (ht : hasTwin s.part = true) (ha : isActive s = true) (hd : s.twin.drivesActl = true) :
    Does .actlReadbackFault s fun s => yieldRole 11 (updTwin (fun t => { t with actlFault := true }) s) :=
  does_of rfl (if_pos (by simp [hr, ht, ha, hd]))

theorem fabricEccError_does (fatal : Bool) : Does (.fabricEccError fatal) s fun s =>
    if fatal then yieldRole 0 (updTwin (fun t => { t with fabricEcc := true }) s) else assertEdge 2 s :=
  does_of rfl (if_neg (by simp [hr]))

theorem guardianSelfFail_yields : Does .guardianSelfFail s fun s => yieldRole 1 (updTwin (fun t => { t with guardianSelf := true }) s) :=
  does_of rfl (if_pos hr)

theorem watchdogFire_yields : Does .watchdogFire s fun s =>
    yieldRole 3 (updTwin (fun t => { t with watchdog := true, firedPs := if t.watchdog then t.firedPs else s.clk.ps }) s) :=
  does_of rfl (if_pos hr)

theorem timeLockFault_yields : Does .timeLockFault s fun s => yieldRole 2 (updTwin (fun t => { t with timeLock := true })
    (timeSilence (updTime (fun t => { t with timeLock := true, lockCycles := 0 }) s))) :=
  does_of rfl (if_pos hr)

theorem memEccError_asserts : Does .memEccError s (assertEdge 7) := does_of rfl (if_pos hr)

end

/-- Source 7 is an edge source that every part has (R436). -/
theorem edge7 (s : State) : (isEdge s.part 7 && canAssert s 7) = true := by
  have hpresent : absentId s.part 7 = false := by simp [absentId]
  rw [isEdge, canAssert, hpresent]
  rfl

theorem pend_assertEdge7 (s : State) : (assertEdge 7 s).router.pend = s.router.pend ||| BitVec.twoPow 641 7 := by
  rw [assertEdge, if_pos (edge7 s)]

/-- A junction sensor's level is its bit (R436). -/
def tempSet (k : Nat) (above : Bool) (x : BitVec 2) : BitVec 2 :=
  if above then x ||| BitVec.twoPow 2 k else x &&& ~~~(BitVec.twoPow 2 k)

theorem getLsbD_tempSet_self {k : Nat} (hk : k < 2) (above : Bool) (x : BitVec 2) : (tempSet k above x).getLsbD k = above := by
  cases above
  · exact (BitVec.getLsbD_and ..).trans (by simp [BitVec.getLsbD_twoPow])
  · exact (BitVec.getLsbD_or ..).trans (by simp [hk])

theorem getLsbD_tempSet_ne {j k : Nat} (h : j ≠ k) (above : Bool) (x : BitVec 2) : (tempSet k above x).getLsbD j = x.getLsbD j := by
  cases above
  · exact getLsbD_and_not_twoPow_ne x h
  · exact getLsbD_or_twoPow_ne x h

/-- Settles O55: each event passes its guard in the role that it concerns; a fault sets its flag and yields. -/
theorem rolesAndNodeFaults : Obligations.RolesAndNodeFaults := by
  intro s
  refine ⟨fun hr hs => ⟨actlLow_finds hr hs, fun ha hb => twinStartWait_ends hr hs ha hb⟩,
    fun hr hs => ⟨?_, fun a ha hb => takeoverBoundary_takes hr hs ha hb, fun hc ha => (handoverBoundary_acts hr hc ha).congr ?_⟩,
    fun hr ha hh => ⟨fun hc hack => (handoverBoundary_acts hr hc hack).congr ?_, fun hn => handoverLapse_drops hr ha hh hn⟩,
    fun ha ht hc => ⟨_, takeoverClear_clears ha ht hc, rfl⟩, fun p hm hp => ⟨_, revertTimer_asks hm hp, ?_⟩,
    fun hr => ⟨fun ht ha hd => actlReadbackFault_yields hr ht ha hd, fabricEccError_does hr true, fabricEccError_does hr false,
      guardianSelfFail_yields hr, watchdogFire_yields hr, timeLockFault_yields hr, ⟨_, memEccError_asserts hr, ?_, fun j hj => ?_⟩⟩,
    fun k above => ⟨_, rfl, getLsbD_tempSet_self k.isLt above s.router.tempHigh, fun j hj => getLsbD_tempSet_ne hj above s.router.tempHigh, rfl⟩⟩
  · rintro u rfl he
    exact actlHigh_takes hr hs he
  · exact handoverActs_standby (by rw [isStandby, toHandover_twin]; exact hs)
  · exact handoverActs_active (by rw [isActive, toHandover_twin]; exact ha) (by rw [toHandover_twin]; exact hh)
  · exact congrArg (fun t : Twin => { t with revertReq := true }) (toPs_twin (p + 10000 * 10 ^ 9) (begin_ s))
  · refine (congrArg (BitVec.getLsbD · 7) (pend_assertEdge7 (begin_ s))).trans ((bit_set 7 _ 7 (by decide)).trans ?_)
    exact Bool.or_true _
  · exact (congrArg (BitVec.getLsbD · j) (pend_assertEdge7 (begin_ s))).trans (getLsbD_or_twoPow_ne s.router.pend hj)

end Sys2Proof.Machine
end

section
/-! PROOFS. Resets, what they keep and what starts again, and the wake of a parked unit (R510, R520 to R531). -/

open Sys2Proof Sys2Proof.Machine

namespace Sys2Proof.Machine

/-- Going to an instant ends there, or where the clock already stands. -/
theorem toPs_ps (n : Nat) (s : State) : (toPs n s).clk.ps = max s.clk.ps n := by
  have hgo : s.clk.ps + (n - s.clk.ps) = max s.clk.ps n := by omega
  rw [← hgo, toPs, advancePs]
  split <;> rfl

/-! ### The wake of a parked unit -/

/-- A parked unit that wakes: a reset with its cause, a wake pulse on every backbone port, and the relays as they stood (R520 to R522). -/
def awake (cause : Nat) (s : State) : State :=
  updPower (fun p => { p with waking := true, bypA := s.power.bypA, bypB := s.power.bypB })
    (BPort.all.foldl (fun s p => emit (.wakePulse p) s) (startReset cause false s))

section
variable {s : State}

theorem wakeUp_park (hm : s.power.mode = .park) : wakeUp s = awake 5 s := by
  rw [wakeUp, if_neg (by simp [hm]), hm]; rfl

theorem wakeUp_deepPark (hm : s.power.mode = .deepPark) : wakeUp s = awake 6 s := by
  rw [wakeUp, if_neg (by simp [hm]), hm]; rfl

theorem awake_pulses (cause : Nat) (p : BPort) : Out.wakePulse p ∈ (awake cause s).out := by
  have hout : (awake cause s).out = s.out ++ [.wakePulse .laf] ++ [.wakePulse .lar] ++ [.wakePulse .lbf] ++ [.wakePulse .lbr] := rfl
  rw [hout]
  cases p <;> simp

end

/-! ### RSTn -/

/-- RSTn low at a unit that is awake (R528). -/
def rstnReset (s : State) : State := onlyReason 12 (startReset 2 false (draw { s with store := { s.store with rstLow := true } }))

/-- RSTn low at a parked unit: it stays parked, with the bypass outputs low (R530). -/
def rstnHold (s : State) : State :=
  updPower (fun p => { p with bypA := false, bypB := false }) (draw { s with store := { s.store with rstLow := true } })

/-- RSTn high again. -/
def rstnHigh (s : State) : State := { s with store := { s.store with rstLow := false } }

section
variable {width : Nat} {s : State}

theorem rstnLow_ignored (hw : width < 100) : Does (.rstnLow width) s id := by
  have hcounts : rstnCounts width (begin_ s) = false := by simp [rstnCounts]; omega
  exact does_of rfl (if_pos (Or.inl hcounts))

/-- RSTn low for 1 µs and not low before acts as the unit's mode says. -/
theorem rstnLow_does {f : State → State} (hw : 1000 ≤ width) (hl : s.store.rstLow = false)
    (hf : (match s.power.mode with
      | .unpowered => draw { begin_ s with store := { s.store with rstLow := true } }
      | .park => rstnHold (begin_ s)
      | .deepPark => rstnHold (begin_ s)
      | _ => rstnReset (begin_ s)) = f (begin_ s)) : Does (.rstnLow width) s f := by
  have hcounts : rstnCounts width (begin_ s) = true := by simp [rstnCounts, hw]
  refine does_of rfl ((if_neg (by simp [hcounts, hl])).trans (Eq.trans ?_ hf))
  rfl

theorem rstnLow_resets (hw : 1000 ≤ width) (hl : s.store.rstLow = false)
    (hm : s.power.mode = .run ∨ s.power.mode = .doze ∨ s.power.mode = .parking) : Does (.rstnLow width) s rstnReset := by
  refine rstnLow_does hw hl ?_
  obtain h | h | h := hm <;> rw [h]

theorem rstnLow_holds (hw : 1000 ≤ width) (hl : s.store.rstLow = false) (hm : s.power.mode = .park ∨ s.power.mode = .deepPark) :
    Does (.rstnLow width) s rstnHold := by
  refine rstnLow_does hw hl ?_
  obtain h | h := hm <;> rw [h]

theorem rstnRise_park (hl : s.store.rstLow = true) (hm : s.power.mode = .park) :
    Does .rstnRise s fun s => awake 5 (latchReason 12 (rstnHigh s)) :=
  does_of rfl ((if_neg (by simp [hl])).trans ((if_pos (Or.inl hm)).trans (wakeUp_park hm)))

theorem rstnRise_deepPark (hl : s.store.rstLow = true) (hm : s.power.mode = .deepPark) :
    Does .rstnRise s fun s => awake 6 (latchReason 12 (rstnHigh s)) :=
  does_of rfl ((if_neg (by simp [hl])).trans ((if_pos (Or.inr hm)).trans (wakeUp_deepPark hm)))

theorem rstnRise_awake (hl : s.store.rstLow = true) (hp : s.power.mode ≠ .park) (hd : s.power.mode ≠ .deepPark) : Does .rstnRise s rstnHigh :=
  does_of rfl ((if_neg (by simp [hl])).trans (if_neg (not_or.mpr ⟨hp, hd⟩)))

end

/-! ### The other sources -/

section
variable {s : State}

theorem powerOn_resets (hm : s.power.mode = .unpowered) : Does .powerOn s (startReset 1 true) := does_of rfl (if_pos hm)

variable {rails : BitVec 3}

theorem brownOut_resets (h : rails ≠ 0) (hr : s.store.released = true) (hm : s.power.mode = .run ∨ s.power.mode = .doze) :
    Does (.brownOut rails) s fun s => startReset 4 false (sumpEvent 0xE8 (railData rails) s) := by
  have hbad : ¬rails = 0#3 := h
  exact does_of rfl (if_pos (by simpa [hbad, hr] using hm))

theorem watchdogReset_resets {core : Fin 4} (hw : s.twin.watchdog = true) (hr : s.store.released = true) :
    Does (.watchdogReset core) s fun s => startReset 3 false
      (sumpEvent 0xF7 (byte1 core) (toPs (s.twin.firedPs + 20 * 10 ^ 9) s)) :=
  does_of rfl (if_pos (by simp [hw, hr]))

variable (hm : s.power.mode = .run) (hr : s.store.released = false)
include hm hr

theorem awaitsRails_begin : awaitsRails (begin_ s) = true := by simp [awaitsRails, hm, hr]

theorem railTimeout_holds (h : rails ≠ 0) (hh : s.power.railHold = false) : Does (.railTimeout rails) s fun s =>
    let s := toPs (s.power.railPs + 10 * 10 ^ 9) s
    updPower (fun p => { p with railHold := true, wakeOut := false, railPs := s.clk.ps }) (sumpEvent 0xE8 (railData rails) s) := by
  have hbad : ¬rails = 0#3 := h
  exact does_of rfl (if_pos (by simp [awaitsRails_begin hm hr, hbad, hh]))

theorem railRetry_rises (hh : s.power.railHold = true) : Does .railRetry s fun s =>
    let s := toPs (s.power.railPs + 100 * 10 ^ 9) s
    updPower (fun p => { p with railHold := false, wakeOut := true, railPs := s.clk.ps }) s :=
  does_of rfl (if_pos (by simp [awaitsRails_begin hm hr, hh]))

end

/-- Settles O58: each reset source by the rule of its command, with what the reset leaves. -/
theorem resetSourcesReset : Obligations.ResetSourcesReset := by
  intro s
  refine ⟨powerOn_resets, ⟨_, rfl, rfl, rfl, rfl, rfl, rfl, rfl, rfl⟩, fun rails => brownOut_resets, fun core => watchdogReset_resets,
    fun width => rstnLow_ignored, fun width hw hl => ⟨fun hm => ?_, fun hm => ?_⟩, fun hl => ⟨rstnRise_awake hl, fun hm => ?_⟩,
    fun rails h hm hr => railTimeout_holds hm hr h, fun hm hr hh => ?_⟩
  · exact ⟨_, rstnLow_resets hw hl (hm.imp_right Or.inl), rfl, rfl, rfl, rfl, rfl, rfl, rfl⟩
  · exact ⟨_, rstnLow_holds hw hl hm, rfl, rfl, rfl⟩
  · exact ⟨_, rstnRise_park hl hm, rfl, rfl, rfl, rfl⟩
  · have hps : (toPs (s.power.railPs + 100 * 10 ^ 9) (begin_ s)).clk.ps = max s.clk.ps (s.power.railPs + 10 ^ 11) :=
      toPs_ps _ (begin_ s)
    refine ⟨_, railRetry_rises hm hr hh, ?_, hps⟩
    rw [← hps]
    exact congrArg (fun p : Power => { p with
      railHold := false, wakeOut := true, railPs := (toPs (s.power.railPs + 100 * 10 ^ 9) (begin_ s)).clk.ps }) (toPs_power _ (begin_ s))

/-! ### What a reset keeps, and the boot -/

/-- The stored life-cycle state is one of those that are ever stored (R478). -/
theorem storedLc_mem {copies : List Word} {c : Nat} (h : storedLc copies = some c) : c ∈ [1, 2, 3, 5] := List.mem_of_find?_eq_some h

theorem readLifeCycle_stored {s : State} {c : Nat} (h : storedLc s.test.copies = some c) : (readLifeCycle s).test.lc = c := by
  rw [readLifeCycle, h]; rfl

theorem readLifeCycle_none {s : State} (h : storedLc s.test.copies = none) : (readLifeCycle s).test.lc = 3 := by
  rw [readLifeCycle, h]
  exact congrArg SelfTest.lc (logEvent_test ..)

/-- MAINTENANCE is never stored, so no start is in it (R478). -/
theorem readLifeCycle_ne_maintenance (s : State) : (readLifeCycle s).test.lc ≠ 4 := by
  cases h : storedLc s.test.copies with
  | none => rw [readLifeCycle_none h]; decide
  | some c =>
    rw [readLifeCycle_stored h]
    rintro rfl
    exact absurd (storedLc_mem h) (by decide)

section
variable {straps : Straps} {failed : BitVec 34} {s : State}

/-- The boot up to its tests (R531, R532). -/
def bootToTests (straps : Straps) (failed : BitVec 34) (s : State) : State :=
  bootTests failed (readLifeCycle (readLog (quarantined (releaseReset straps s) 32) (releaseReset straps s)))

/-- Step 8 ends with the cycle of the line time that the boot began at (R531). -/
def bootEnd (s : State) : State :=
  let v := updStore (fun x => { x with step := 8 }) (bootRecords (applyImage (chooseImage s)))
  { v with time := { v.time with cycle := cycleNow v } }

/-- The boot: it ends Dark at its tests, or at the end of step 8. -/
def bootGo (straps : Straps) (failed : BitVec 34) (s : State) : State :=
  if (bootToTests straps failed s).test.dark.isSome then bootToTests straps failed s else bootEnd (bootToTests straps failed s)

theorem execResetRelease_eq : exec (.resetRelease straps failed) s =
    run (fun s => if s.store.released || s.store.rstLow || s.power.railHold || s.power.mode != .run then s else bootGo straps failed s) s := by
  show execResetRelease straps failed s = _
  unfold execResetRelease
  unfold bootGo bootToTests bootEnd
  rfl

section
variable (hr : s.store.released = false) (hl : s.store.rstLow = false) (hh : s.power.railHold = false) (hm : s.power.mode = .run)
include hr hl hh hm

theorem resetRelease_boots : Does (.resetRelease straps failed) s (bootGo straps failed) :=
  does_of execResetRelease_eq (if_neg (by simp [hr, hl, hh, hm]))

theorem resetRelease_lit (hd : (bootToTests straps failed (begin_ s)).test.dark = none) :
    Does (.resetRelease straps failed) s fun s => bootEnd (bootToTests straps failed s) :=
  (resetRelease_boots hr hl hh hm).congr (by rw [bootGo, hd]; rfl)

theorem resetRelease_dark (hd : (bootToTests straps failed (begin_ s)).test.dark ≠ none) :
    Does (.resetRelease straps failed) s (bootToTests straps failed) :=
  (resetRelease_boots hr hl hh hm).congr (by rw [bootGo, if_pos (Option.isSome_iff_ne_none.mpr hd)])

end

theorem bootComplete_serves (hr : running s = true) (hs : s.store.service = false) (h8 : s.store.step = 8) : Does .bootComplete s fun s =>
    let u := draw { s with
      store := { s.store with service := true, step := 9 }
      survey := { s.survey with state := .listen, nonce := (drawn s).setWidth 32 } }
    startRole (updTest (fun x => { x with plan := x.plan.map fun e => { e with duePs := u.clk.ps + e.period * 10 ^ 12 } }) u) :=
  does_of rfl (if_neg (by simp [hr, hs, h8]))

end

/-- Settles O59: what a reset leaves is read off its state; the life-cycle state is a stored one, and the boot stops only where it is Dark. -/
theorem resetsKeepMram : Obligations.ResetsKeepMram := by
  intro cause s
  refine ⟨fun powerOn => ⟨rfl, rfl, rfl, rfl, rfl, rfl, rfl, rfl, rfl, rfl, rfl, fun q hq => ?_, fun q hq => ?_, rfl, fun p hp => ?_,
      fun m hm => ?_, rfl, rfl⟩, ⟨rfl, rfl, rfl, rfl⟩, ⟨rfl, rfl, rfl, rfl⟩, fun straps => ⟨rfl, rfl⟩,
    ⟨readLifeCycle_ne_maintenance s, fun c => readLifeCycle_stored, readLifeCycle_none⟩, fun straps failed hr hl hh hm => ?_,
    bootComplete_serves⟩
  · rw [List.eq_of_mem_replicate (n := 8) hq]
  · rw [List.eq_of_mem_replicate (n := 4) hq]
  · rw [List.eq_of_mem_replicate (n := 12) hp]
  · rw [List.eq_of_mem_replicate (n := 2) hm]
  · have hlit := resetRelease_lit (straps := straps) (failed := failed) hr hl hh hm
    have hdark := resetRelease_dark (straps := straps) (failed := failed) hr hl hh hm
    unfold bootToTests at hlit hdark
    unfold bootEnd at hlit
    exact ⟨hlit, hdark⟩

end Sys2Proof.Machine
end

section
/-! PROOFS. Network sleep, Park and wakes (R405, R406, R501 to R520). -/

open Sys2Proof Sys2Proof.Machine

namespace Sys2Proof.Machine

/-! ### The messages of a network sleep -/

@[simp] theorem handed_power (rx : MgRx) (m : MgMsg) (s : State) : (handed rx m s).power = s.power := by simp only [handed_fields]

section
variable {rx : MgRx} {s : State} (hw : Whole rx s) (hm : ForMe rx s)
include hw hm

theorem slProposeRx_takes {id : BitVec 16} {epoch : Nat} (hn : numbered s = true) (he : epoch = s.survey.epoch)
    (ht : s.power.sleepTag = none) : Does (.slProposeRx rx id epoch) s fun s => assertEdge 609 (logEvent 0xE0 srcNode (le 2 id.toNat)
      (updPower (fun p => { p with sleepPhase := 1, sleepId := id, voted := none, vetoDue := false, vetoPos := 0 })
        (handed rx (.slPropose id epoch) s))) :=
  does_handed hw hm rfl (if_pos (by simp [numbered_handed hn, handed_survey, he, ht]))

theorem slVoteRx_counts {m : SlVote} (hr : isReference s = true) (ha : isActive s = true) (ht : s.power.sleepTag.isSome = true)
    (hid : m.sleepId = s.power.sleepId) : Does (.slVoteRx rx m) s fun s => putVote m.position m.rank m.ready (handed rx (.slVote m) s) := by
  have href : isReference (begin_ s) = true := hr
  exact does_handed hw hm rfl (if_pos (by simp [href, ha, ht, hid]))

theorem slInstantRx_takes {m : SlInstant} (hn : numbered s = true) (he : m.epoch = s.survey.epoch) (ht : s.power.sleepTag = none)
    (hp : s.power.sleepPhase = 0 → m.sleepId ≠ s.power.sleepId) : Does (.slInstantRx rx m) s fun s =>
      assertEdge 610 (updPower (fun p => { p with sleepPhase := 2, sleepId := m.sleepId, instant := m.instant }) (handed rx (.slInstant m) s)) :=
  does_handed hw hm rfl ((if_neg (by simp [numbered_handed hn, handed_survey, he, ht])).trans (if_neg (by simpa using hp)))

theorem slVetoRx_ends {m : SlVeto} (hn : numbered s = true) (hid : m.sleepId = s.power.sleepId) (hp : s.power.sleepPhase ≠ 0) :
    Does (.slVetoRx rx m) s fun s =>
      endNetSleep 0x80 (3 + m.position % 256 * 2 ^ 8) (endSleep (updPower (fun p => { p with vetoPos := m.position })
        (logEvent 0xE1 (srcPos m.position) (le 2 m.sleepId.toNat ++ le 2 (m.reasons.toNat % 65536)) (handed rx (.slVeto m) s)))) :=
  does_handed hw hm rfl (if_neg (by simp [numbered_handed hn, hid, hp]))

theorem slCancelRx_ends {id : BitVec 16} {cause : Nat} (hn : numbered s = true) (hid : id = s.power.sleepId)
    (hp : s.power.sleepPhase ≠ 0) : Does (.slCancelRx rx id cause) s fun s =>
      endSleep (logEvent 0xE2 srcNode (le 2 id.toNat ++ byte1 cause) (handed rx (.slCancel id cause) s)) := by
  refine does_handed hw hm rfl ((if_pos (by simp [numbered_handed hn, hid, hp])).trans ?_)
  rw [cancelRecord, handed_power, hid]
  rfl

end

/-! ### Park entry -/

/-- Step 6 of Park entry (R502, R508, R509, R563). -/
def parked (s : State) : State :=
  let deep := s.power.parkTarget = 3
  { s with
    clk := { s.clk with running := false }
    regs := { s.regs with pcieUp := false }
    can := s.can.map fun c => { c with state := .off, sending := none, decoder := c.decoder && !deep }
    power := { s.power with
      mode := if deep then .deepPark else .park, wakeOut := false, domains := if deep then 1 else 3, islands := !deep
      bypA := s.power.bypA && !deep, bypB := s.power.bypB && !deep } }

section
variable {s : State}

/-- At INSTANT the unit enters Park with what came too late for a veto (R518). -/
theorem sleepInstant_parks (hr : running s = true) (hp : s.power.sleepPhase = 2) : Does .sleepInstant s fun s =>
    let s := endNetSleep 0 s.power.instant (toLt (s.power.instant * unitsPerNs) s)
    updPower (fun p => { p with wakeLatch := p.wakeLatch ||| lateReasons s }) (parkEntry 2 1 s) := by
  refine does_of rfl ((if_pos (by simp [hr, hp])).trans ?_)
  simp only [toLt_power]

theorem parkEntryComplete_parks (hm : s.power.mode = .parking) (hl : s.power.wakeLatch.getLsbD 15 = false) :
    Does .parkEntryComplete s parked :=
  does_of rfl ((if_neg (not_not.mpr hm)).trans (if_neg (Bool.eq_false_iff.mp hl)))

theorem parked_deep (h : s.power.parkTarget = 3) :
    (parked s).power.mode = .deepPark ∧ (parked s).power.domains = 1 ∧ (parked s).power.islands = false := by
  simp [parked, h]

theorem parked_shallow (h : s.power.parkTarget ≠ 3) : (parked s).power.mode = .park ∧ (parked s).power.domains = 3 ∧
    (parked s).power.islands = true ∧ (parked s).power.bypA = s.power.bypA := by
  simp [parked, h]

theorem deepParkEntry_deepens (hm : s.power.mode = .park) (hl : s.power.parkLimit ≠ 0) : Does .deepParkEntry s fun s =>
    let s := toPs (s.power.parkPs + s.power.parkLimit * 10 ^ 12) s
    { s with
      can := s.can.map fun c => { c with decoder := false }
      power := { s.power with mode := .deepPark, domains := 1, islands := false, bypA := false, bypB := false } } :=
  does_of rfl (if_neg (by simp [hm, hl]))

end

/-! ### Wakes -/

/-- A unit that a reason has woken from Park (R510, R520 to R522). -/
def Woken (bit : Nat) (s t : State) : Prop :=
  t.power.mode = .run ∧ t.power.wakeLatch = s.power.wakeLatch ||| BitVec.twoPow 32 bit ∧ t.power.waking = true ∧
    t.power.wakeEn = s.power.wakeEn ∧ t.store.cause = 5 ∧ t.store.released = false ∧ ∀ p : BPort, Out.wakePulse p ∈ t.out

@[simp] theorem readyTrack_store (s : State) : (readyTrack s).store = s.store := by unfold readyTrack; split <;> rfl

/-- LANTERN is high, and a sleep's readiness follows (R511, R516). -/
def lanternHigh (s : State) : State := readyTrack (updPower (fun p => { p with lantern := true }) s)

theorem lanternHigh_power (s : State) :
    (lanternHigh s).power = { s.power with lantern := true, vetoDue := (lanternHigh s).power.vetoDue } := readyTrack_power _

section
variable {bit : Nat} {s u : State} {i : Instr} {f : State → State}

theorem wakeReason_wakes (hm : u.power.mode = .park) (hl : u.store.rstLow = false) (ho : reasonOn u bit = true) :
    wakeReason bit u = awake 5 (latchReason bit u) := by
  rw [wakeReason, if_neg (by simp [ho]), hm]
  exact (if_neg (by simp [hl])).trans (wakeUp_park hm)

theorem wakeReason_off (ho : reasonOn u bit = false) : wakeReason bit u = u := if_pos ho

/-- A command that wakes a state with the power state of the unit, whatever else it has made of it, leaves the unit woken. -/
theorem completes_woken (hi : exec i s = run f s) (hf : f (begin_ s) = awake 5 (latchReason bit u))
    (hl : u.power.wakeLatch = s.power.wakeLatch) (he : u.power.wakeEn = s.power.wakeEn) : Completes i s (Woken bit s) := by
  have hpower : (after f s).power = (awake 5 (latchReason bit u)).power := (after_power f s).trans (congrArg State.power hf)
  have hstore : (after f s).store = (awake 5 (latchReason bit u)).store := (after_store f s).trans (congrArg State.store hf)
  refine ⟨_, hi, ?_, ?_, ?_, ?_, ?_, ?_, fun p => mem_after_out (hf ▸ awake_pulses 5 p)⟩
  · rw [hpower]; rfl
  · rw [hpower, ← hl]; rfl
  · rw [hpower]; rfl
  · rw [hpower, ← he]; rfl
  · rw [hstore]; rfl
  · rw [hstore]; rfl

variable (hm : s.power.mode = .park) (hr : s.store.rstLow = false)
include hm hr

/-- A command that is its reason alone wakes a parked unit where the reason is enabled. -/
theorem reason_wakes (hi : exec i s = run f s) (hf : f (begin_ s) = wakeReason bit (begin_ s)) (ho : reasonOn s bit = true) :
    Completes i s (Woken bit s) :=
  completes_woken hi (hf.trans (wakeReason_wakes (u := begin_ s) hm hr ho)) rfl rfl

theorem lanternWake_wakes (ho : reasonOn s 0 = true) : Completes .lanternWake s (Woken 0 s) := by
  have hpower := lanternHigh_power (begin_ s)
  have hmode : (lanternHigh (begin_ s)).power.mode = .park := (congrArg Power.mode hpower).trans hm
  have hen : (lanternHigh (begin_ s)).power.wakeEn = s.power.wakeEn := (congrArg Power.wakeEn hpower).trans rfl
  have hon : reasonOn (lanternHigh (begin_ s)) 0 = true := (congrArg (fun w : Word => w.getLsbD 0) hen).trans ho
  have hlow : (lanternHigh (begin_ s)).store.rstLow = false := (congrArg Store.rstLow (readyTrack_store _)).trans hr
  have hdoze : ¬((lanternHigh (begin_ s)).power.mode = .doze ∧ running (lanternHigh (begin_ s)) = true) :=
    fun h => absurd (hmode.symm.trans h.1) (by decide)
  exact completes_woken rfl ((if_neg hdoze).trans (wakeReason_wakes hmode hlow hon)) ((congrArg Power.wakeLatch hpower).trans rfl) hen

theorem wakePulseDetect_wakes {p : BPort} (hi : s.power.islands = true) (ho : reasonOn s (if p.line = .a then 1 else 2) = true) :
    Completes (.wakePulseDetect p) s (Woken (if p.line = .a then 1 else 2) s) :=
  reason_wakes hm hr rfl ((if_pos hi).trans (by cases p <;> rfl)) ho

variable {k : Fin 4} (hd : (canAt s k).decoder = true)
include hd

theorem canWakeMatch_wakes {frame : CanFrame} {e : Nat × WakeFilter} (he : e ∈ (canAt s k).wakeArmed)
    (hw : wakeMatches frame e.2 = true) (ho : reasonOn s (3 + k.val) = true) :
    Completes (.canWakeMatch k frame) s (Woken (3 + k.val) s) := by
  have hany : (canAt s k).wakeArmed.any (fun e => wakeMatches frame e.2) = true := List.any_eq_true.mpr ⟨e, he, hw⟩
  exact reason_wakes hm hr rfl (if_pos (Bool.and_eq_true_iff.mpr ⟨hd, hany⟩)) ho

theorem canWakeErrors_wakes (ho : reasonOn s (5 + k.val) = true) : Completes (.canWakeErrors k) s (Woken (5 + k.val) s) :=
  reason_wakes hm hr rfl (if_pos hd) ho

end

theorem canWakeErrors_off {s : State} {k : Fin 4} (hd : (canAt s k).decoder = true) (ho : reasonOn s (5 + k.val) = false) :
    Does (.canWakeErrors k) s id :=
  does_of rfl ((if_pos hd).trans (wakeReason_off (u := begin_ s) ho))

/-- Settles O57: the messages by their commands, Park by its entry, and each wake by the reason it raises. -/
theorem sleepAndWakes : Obligations.SleepAndWakes := by
  intro s
  refine ⟨fun rx hw hm => ⟨fun id epoch => slProposeRx_takes hw hm, fun m => slVoteRx_counts hw hm, fun m => slInstantRx_takes hw hm,
      fun m => slVetoRx_ends hw hm, fun id cause => slCancelRx_ends hw hm⟩, sleepInstant_parks, fun hm hl => ?_, fun hm hl => ?_,
    fun hm hr => ⟨lanternWake_wakes hm hr, fun p => wakePulseDetect_wakes hm hr, fun k f e hd => canWakeMatch_wakes hm hr hd,
      fun k hd => canWakeErrors_wakes hm hr hd⟩, fun level => does_of rfl rfl, fun k => canWakeErrors_off⟩
  · refine ⟨_, parkEntryComplete_parks hm hl, rfl, rfl, fun h3 => ?_, fun h3 => ?_⟩
    · exact parked_deep (s := begin_ s) h3
    · exact parked_shallow (s := begin_ s) h3
  · exact ⟨_, deepParkEntry_deepens hm hl, congrArg (fun p : Power => { p with
      mode := .deepPark, domains := 1, islands := false, bypA := false, bypB := false }) (toPs_power _ (begin_ s))⟩

end Sys2Proof.Machine
end

section
/-! PROOFS. The Flowstone window: the cursor and the records that it loads (R472). -/

open Sys2Proof Sys2Proof.Machine

namespace Sys2Proof.Machine

@[simp] theorem windowUp_begin (s : State) : windowUp (begin_ s) = windowUp s := rfl
@[simp] theorem windowOpen_begin (s : State) : windowOpen (begin_ s) = windowOpen s := rfl

theorem updFlow_congr {f g : Flow → Flow} {s : State} (h : f s.flow = g s.flow) : updFlow f s = updFlow g s :=
  congrArg (fun x => { s with flow := x }) h

/-! ### The cursor -/

section
variable {f : Flow} {val : Word} {r o n : LogRec} (ho : oldest f = some o) (hn : newest f = some n)

/-- The oldest record is the first that a search of the log meets. -/
theorem find_oldest (ho : oldest f = some o) {p : LogRec → Bool} (hp : p o = true) : f.log.find? p = some o := by
  obtain ⟨rest, hlog⟩ := List.head?_eq_some_iff.mp ho
  rw [hlog, List.find?_cons, hp]

theorem no_seq (hx : ∀ x ∈ f.log, x.seq ≠ val) : f.log.find? (fun x => x.seq == val) = none :=
  List.find?_eq_none.mpr fun x hmem => by simpa using hx x hmem

include ho hn

theorem cursorWrite_newest : cursorWrite 0xFFFFFFFF f = loadRec n false f := by simp [cursorWrite, ho, hn]

theorem cursorWrite_held (hv : val ≠ 0xFFFFFFFF) (hr : f.log.find? (fun x => x.seq == val) = some r) :
    cursorWrite val f = loadRec r false f := by
  simp only [cursorWrite, ho, hn, if_neg hv, hr]

variable (hv : val ≠ 0xFFFFFFFF) (hx : ∀ x ∈ f.log, x.seq ≠ val)
include hv hx

theorem cursorWrite_afterNewest (hd : (val - n.seq).toNat < 2 ^ 31) : cursorWrite val f = loadRec n true f := by
  have hnone := no_seq hx
  simp only [cursorWrite, ho, hn, if_neg hv, hnone, if_pos hd]

theorem cursorWrite_beforeOldest (hd : 2 ^ 31 ≤ (val - n.seq).toNat) (hb : (o.seq - val).toNat < 2 ^ 31) :
    cursorWrite val f = loadRec o true f := by
  have hnone := no_seq hx
  have hfirst := find_oldest (p := fun r => decide ((r.seq - val).toNat < 2 ^ 31)) ho (decide_eq_true hb)
  simp only [cursorWrite, ho, hn, if_neg hv, hnone, if_neg (Nat.not_lt.mpr hd), hfirst]

end

/-! ### The registers of the window -/

section
variable {h : HostId} {val : Word} {r n : LogRec} {s : State} (hup : windowUp s = true) (hopen : windowOpen s = true)

include hup hopen in
theorem flwCursorWrite_does {g : Flow → Flow} (hg : cursorWrite val s.flow = g s.flow) : Does (.flwCursorWrite h val) s (updFlow g) := by
  refine does_of rfl ((if_pos hup).trans ((if_pos hopen).trans ?_))
  exact updFlow_congr hg

include hopen in
theorem flwData_loaded (hr : s.flow.loaded = some r) (w : Nat) : flwData (begin_ s) w = w32 (fld (recBytes r) (4 * w) 4) := by
  simp [flwData, hopen, hr]

include hup hopen in
theorem flwData7Read_does (wide : Bool) : Does (.flwData7Read h wide) s fun s =>
    updFlow cursorNext (emit (.readData (if wide then [flwData s 6, flwData s 7] else [flwData s 7])) s) :=
  does_of rfl ((if_neg (by simp [hup])).trans (if_pos hopen))

end

/-- Settles O34: the cursor finds the record in each case of R472, and FLW_DATA7 goes on to the next one. -/
theorem flowstoneWindowLoadsRecords : Obligations.FlowstoneWindowLoadsRecords := by
  intro h val r o n s hup hopen ho hn
  have hwrite {v : Word} {g : Flow → Flow} := flwCursorWrite_does (h := h) (val := v) (g := g) hup hopen
  refine ⟨hwrite (cursorWrite_newest ho hn), fun hv _ hr => hwrite (cursorWrite_held ho hn hv hr),
    fun hv hx hd => hwrite (cursorWrite_afterNewest ho hn hv hx hd),
    fun hv hx hd hb => hwrite (cursorWrite_beforeOldest ho hn hv hx hd hb), fun hr hnext => ?_, fun hr hnext => ?_⟩
  · have hcursor : cursorNext s.flow = loadRec n false s.flow := by simp only [cursorNext, hr, hnext]
    refine (flwData7Read_does hup hopen false).congr ?_
    simp only [flwData_loaded hopen hr]
    exact updFlow_congr hcursor
  · have hcursor : cursorNext s.flow = s.flow := by simp only [cursorNext, hr, hnext]
    refine (flwData7Read_does hup hopen true).congr ?_
    simp only [flwData_loaded hopen hr]
    exact updFlow_congr (g := id) hcursor

end Sys2Proof.Machine
end

section
/-! PROOFS. The register window: scratch registers, refused accesses and the time snapshot (R25, R166, R553, R558, R559). -/

open Sys2Proof Sys2Proof.Machine

namespace Sys2Proof.Machine

section
variable {h : HostId} {val : BitVec 64} {off : Nat} {s : State}

section
variable (hup : windowUp s = true)
include hup

/-- A 32-bit write of the lower window at a multiple of 4 is the register's write (R25, R26). -/
theorem registerWrite_does (hoff : off < 0x400000) (hal : off % 4 = 0) :
    Does (.registerWrite h off false val) s (writeReg h off (val.setWidth 32)) := by
  have hin : ¬(windowUp (begin_ s) = false ∨ 0x400000 ≤ off) := by simp [hup, hoff]
  exact does_of rfl ((if_neg hin).trans (if_neg (not_not.mpr hal)))

/-- A 32-bit write of another alignment is refused and recorded (R25, R559). -/
theorem registerWrite_refused (hoff : off < 0x400000) (hal : off % 4 ≠ 0) : Does (.registerWrite h off false val) s (noteBad h true off) := by
  have hin : ¬(windowUp (begin_ s) = false ∨ 0x400000 ≤ off) := by simp [hup, hoff]
  exact does_of rfl ((if_neg hin).trans (if_pos hal))

theorem badAccess_write : Does (.badAccess h true off) s (noteBad h true off) := does_of rfl (if_neg (by simp [hup]))

theorem badAccess_read : Does (.badAccess h false off) s fun s => emit (.readData [0]) (noteBad h false off s) :=
  does_of rfl (if_neg (by simp [hup]))

theorem badAccessAck_does : Does (.badAccessAck h 1) s (updRegs fun r => { r with badValid := false, badOverrun := false }) :=
  does_of rfl ((if_pos hup).trans (if_pos (by decide)))

end

theorem snap_takes (hs : s.store.service = true) : Does (.snap h 1) s snapTake :=
  does_of rfl ((if_pos hs).trans (if_pos (by decide)))

/-- What a refused access leaves of the registers, with an earlier one recorded and without (R559). -/
theorem noteBad_further (hv : s.regs.badValid = true) (write : Bool) : (noteBad h write off s).regs = { s.regs with badOverrun := true } := by
  rw [noteBad_regs, if_pos hv]

theorem noteBad_first (hv : s.regs.badValid = false) (hoff : off < 0x400000) (write : Bool) : (noteBad h write off s).regs =
    { s.regs with badValid := true, badWrite := write, badSpi := h == .spi, badOff := off } := by
  have hmod : off % 2 ^ 22 = off := Nat.mod_eq_of_lt hoff
  rw [noteBad_regs, if_neg (by simp [hv]), hmod]

theorem noteBad_ram (write : Bool) : (noteBad h write off s).ram = s.ram := assertEdge_ram ..
theorem noteBad_cmdq (write : Bool) : (noteBad h write off s).cmdq = s.cmdq := assertEdge_cmdq ..

end

/-- Settles O33: the accesses by the window's own rules, the resets by the registers that each leaves. -/
theorem windowAccessesAct : Obligations.WindowAccessesAct := by
  intro h val off s
  refine ⟨fun hup => ⟨?_, ?_, ?_, ?_, fun hal hoff hv => ?_, fun hv write => ?_, badAccessAck_does hup, snap_takes⟩, rfl, rfl,
    fun hm => ⟨_, powerOn_resets hm, rfl, rfl⟩, fun width hw hl hm => ⟨_, rstnLow_resets hw hl hm, rfl, rfl⟩, fun hl hm => ?_, fun hr kind => ?_⟩
  · exact registerWrite_does hup (by decide) rfl
  · exact registerWrite_does hup (by decide) rfl
  · exact registerWrite_does hup (by decide) rfl
  · exact registerWrite_does hup (by decide) rfl
  · exact ⟨_, registerWrite_refused hup hoff hal, noteBad_first (s := begin_ s) hv hoff true, noteBad_pend h true off (begin_ s),
      noteBad_ram (s := begin_ s) true, noteBad_cmdq (s := begin_ s) true⟩
  · cases write with
    | false =>
      refine ⟨_, badAccess_read hup, ?_, ?_, fun _ => mem_after_out (by simp [emit])⟩
      · exact (after_regs ..).trans (noteBad_further (h := h) (off := off) (s := begin_ s) hv false)
      · exact noteBad_pend h false off (begin_ s)
    | true =>
      refine ⟨_, badAccess_write hup, ?_, ?_, nofun⟩
      · exact (after_regs ..).trans (noteBad_further (h := h) (off := off) (s := begin_ s) hv true)
      · exact noteBad_pend h true off (begin_ s)
  · obtain hm | hm := hm
    · exact ⟨_, rstnRise_park hl hm, rfl, rfl⟩
    · exact ⟨_, rstnRise_deepPark hl hm, rfl, rfl⟩
  · exact ⟨_, pcieReset_does hr, pcieResetEffect_scratch kind (begin_ s)⟩

end Sys2Proof.Machine
end

section
/-! PROOFS. Flowstone's media and the self-test engine (R460, R462, R473, R484, R485, R491, R495). -/

open Sys2Proof Sys2Proof.Machine

namespace Sys2Proof.Machine

/-! ### Flowstone's writes to MRAM -/

@[simp] theorem flowWrites_begin (s : State) : flowWrites (begin_ s) = flowWrites s := rfl

/-- The newest record's repeat fields as MRAM then holds them (R462). -/
def repeatsSaved (ps : Nat) (f : Flow) : Flow :=
  { f with
    dirty := false, rewritePs := some ps
    open_ := f.open_.map fun o => { o with saved := ((newest f).map fun r => (r.repeats, r.last)).getD (0, 0) } }

section
variable {ok : Bool} {addr : Word} {s : State}

theorem flowstoneMramWrite_does (hw : flowWrites s = true) (hf : 0 < s.flow.front) : Does (.flowstoneMramWrite ok addr) s fun s =>
    if ok then frontWritten s else mediaFailure (s.flow.log[s.flow.log.length - s.flow.front]?) addr s :=
  does_of rfl (if_pos (by simp [hw, hf]))

/-- Without an open record the rewrite waits for nothing (R462). -/
theorem repeatRewrite_does (hw : flowWrites s = true) (hf : s.flow.front = 0) (hd : s.flow.dirty = true) (ho : s.flow.open_ = none) :
    Does (.repeatRewrite ok addr) s fun s =>
      if ok then updFlow (repeatsSaved s.clk.ps) s else mediaFailure (newest s.flow) addr s := by
  refine does_of rfl ((if_pos (by simp [hw, hf, hd])).trans ?_)
  simp only [begin__flow, ho]
  rfl

theorem recordClose_closes {o : OpenRec} (ho : s.flow.open_ = some o) (hr : s.clk.running = true) : Does .recordClose s fun s =>
    updFlow (fun f => { f with open_ := none }) (toLt ((o.latestNs + 1000000000) * unitsPerNs) s) := by
  refine does_of rfl ?_
  simp only [begin__flow, ho]
  exact if_pos hr

end

/-! ### The start of a slice -/

section
variable {b : Fin 34} {t : Test} {s : State}

/-- What the start of a slice or of a loopback run makes of its test and its block (R484). -/
def sliceBegun (t : Test) (s : State) : State :=
  let loop := t.kind == .loopback
  let s := if loop then s else toPs (s.test.sliceEndPs + 60000000) s
  let bound := if loop then loopBound s t.block else 40000
  let u := { t with running := true, startPs := s.clk.ps, endPs := s.clk.ps + bound * 1000, loops := if loop then loopsOf s t.block else [] }
  let s := if loop then loopDown t.block s else s
  updTest (fun x => { x with
    statBlock := t.block, statSlices := t.slices, cycleSlice := x.cycleSlice || (t.origin == 2 && !loop) }) (putTest t u s)

section
variable (ht : s.test.tests = [t]) (hrun : t.running = false) (ho : t.origin ≠ 2) (hbusy : blockBusy s b.val = false)
  (hb : t.block = b.val)
include ht hrun ho hbusy hb

/-- The only test, of the host or the boot, may have its slice while its block is not busy. -/
theorem maySlice_only : maySlice (begin_ s) t = true := by
  have hbusy' : blockBusy (begin_ s) t.block = false := hb ▸ hbusy
  simp [maySlice, hbusy', ht, hrun, ho]

theorem stSliceStart_begins (hr : running s = true) : Does (.stSliceStart b) s (sliceBegun t) := by
  have hmay := maySlice_only ht hrun ho hbusy hb
  have hpick : ((begin_ s).test.tests.filter fun t => t.block == b.val && maySlice (begin_ s) t) = [t] := by simp [ht, hb, hmay]
  have hfirst : (([t].find? fun t => t.origin == 0).or [t].head?) = some t := by
    rw [List.find?_singleton]; split <;> rfl
  refine does_of rfl ?_
  simp only [hpick, hfirst]
  exact if_neg (by simp [hr])

end

theorem sliceBegun_slice (hk : t.kind ≠ .loopback) (ho : t.origin ≠ 2) (s : State) : sliceBegun t s =
    let s := toPs (s.test.sliceEndPs + 60000000) s
    updTest (fun x => { x with statBlock := t.block, statSlices := t.slices })
      (putTest t { t with running := true, startPs := s.clk.ps, endPs := s.clk.ps + 40000 * 1000, loops := [] } s) := by
  have hkind : (t.kind == .loopback) = false := by simpa using hk
  have horigin : (t.origin == 2) = false := by simpa using ho
  simp only [sliceBegun, hkind, horigin, Bool.false_and, Bool.or_false, Bool.false_eq_true, ↓reduceIte]

theorem sliceBegun_loopback (hk : t.kind = .loopback) (s : State) : sliceBegun t s =
    updTest (fun x => { x with statBlock := t.block, statSlices := t.slices })
      (putTest t { t with running := true, startPs := s.clk.ps, endPs := s.clk.ps + loopBound s t.block * 1000, loops := loopsOf s t.block }
        (loopDown t.block s)) := by
  have hkind : (t.kind == .loopback) = true := by simp [hk]
  simp only [sliceBegun, hkind, Bool.not_true, Bool.and_false, Bool.or_false, ↓reduceIte]

end

/-! ### The ends of slices and loopbacks -/

/-- A logic test after one more slice of 16 patterns (R484, R485). -/
def sliceDone (misr : BitVec 64) (lost : Nat) (t : Test) : Test :=
  { t with
    patterns := min (target t.block) (t.patterns + 16), misr := misr, lost := t.lost + lost, slices := t.slices + 1, running := false }

/-- The end of a slice: its test is replaced and the slices are counted (R484, R498). -/
def sliceEnded (t u : Test) (s : State) : State :=
  let s := toPs t.endPs s
  updTest (fun x => { x with sliceEndPs := s.clk.ps, sliceCount := sat 32 (x.sliceCount + 1), statSlices := u.slices }) (putTest t u s)

/-- A logic test is judged by its folded signature (R485). -/
def signatureJudged (u : Test) (s : State) : State :=
  let folded := Config.misrClock (u.misr ^^^ BitVec.ofNat 64 u.patterns)
  endTest { u with misr := folded } (folded == Config.signature s.part.code u.block) folded 0 0 0 s

/-- A logic test at the end of a slice is cut short, goes on, or is judged (R485, R491). -/
def sliceJudged (u : Test) (s : State) : State :=
  match u.cut with
  | some cause => cutTest cause u s
  | none => if u.patterns < target u.block then cutIneligible s else signatureJudged u s

theorem sliceEnded_part (t u : Test) (s : State) : (sliceEnded t u s).part = s.part := toPs_part t.endPs s

section
variable {u : Test} (s : State)

theorem sliceJudged_cut {cause : Nat} (hc : u.cut = some cause) : sliceJudged u s = cutTest cause u s := by rw [sliceJudged, hc]

theorem sliceJudged_short (hc : u.cut = none) (h : u.patterns < target u.block) : sliceJudged u s = cutIneligible s := by
  rw [sliceJudged, hc]
  exact if_pos h

theorem sliceJudged_last (hc : u.cut = none) (h : u.patterns = target u.block) : sliceJudged u s = signatureJudged u s := by
  rw [sliceJudged, hc]
  exact if_neg (Nat.not_lt.mpr h.ge)

end

section
variable {b : Fin 34} {t : Test} {s : State} (ht : runningTest s b.val = some t) (hr : running s = true)
include ht hr

theorem stSliceEnd_logic {misr : BitVec 64} {lost : Nat} {ref : RefMeasure} (hk : t.kind = .logic) : Does (.stSliceEnd b misr lost ref) s fun s =>
    sliceJudged (sliceDone misr lost t) (sliceEnded t (sliceDone misr lost t) s) := by
  have htest : runningTest (begin_ s) b.val = some t := ht
  have hgo : ¬(TestKind.logic = .loopback ∨ running (begin_ s) = false) := by simp [hr]
  refine does_of rfl ?_
  simp only [htest, hk, if_neg hgo, if_pos]
  simp only [sliceJudged, signatureJudged, sliceEnded, sliceDone, hk]
  cases t.cut <;> simp only []

theorem loopbackEnd_goesOn {returned i j : Nat} {rest : List Nat} (hk : t.kind = .loopback) (hl : t.loops = i :: j :: rest) :
    Does (.loopbackEnd b returned) s (putTest t { t with
      loops := j :: rest, returned := t.returned + returned
      failed := if returned = 64 then t.failed else t.failed ||| BitVec.twoPow 16 i }) := by
  have htest : runningTest (begin_ s) b.val = some t := ht
  have hgo : ¬(t.kind ≠ .loopback ∨ running (begin_ s) = false) := by simp [hk, hr]
  refine does_of rfl ?_
  simp only [htest, if_neg hgo, hl]
  rfl

end

/-! ### The autonomous plan -/

section
variable {n : Fin 32} {s : State}

@[simp] theorem nextDueAt_part (i : Nat) (s : State) : (nextDueAt i s).part = s.part := rfl
@[simp] theorem nextDueAt_tests (i : Nat) (s : State) : (nextDueAt i s).test.tests = s.test.tests := rfl

theorem stPlanDue_starts {e : PlanEntry} {k : TestKind} (he : s.test.plan[n.val]? = some e) (hr : running s = true)
    (hs : s.store.service = true) (hp : blockPresent s.part e.block = true) (hk : kindOf e.kind = some k)
    (ht : s.test.tests = []) (hgo : planRuns (nextDueAt n (toPs e.duePs (begin_ s))) = true ∧
      entryRole (nextDueAt n (toPs e.duePs (begin_ s))) e = true ∧
      eligibleTest (nextDueAt n (toPs e.duePs (begin_ s))) (!isStandby (nextDueAt n (toPs e.duePs (begin_ s)))) e.block k = true) :
    Does (.stPlanDue n) s fun s =>
      let s := nextDueAt n (toPs e.duePs s)
      updTest (fun x => { x with tests := x.tests ++ [newTest e.block k 2 none s] }) s := by
  obtain ⟨hplan, hrole, helig⟩ := hgo
  have hentry : (begin_ s).test.plan[n.val]? = some e := he
  refine does_of rfl ?_
  simp only [hentry]
  refine (if_neg (by simp [hr, hs])).trans ((if_neg (by simp [hp])).trans ?_)
  simp only [hk]
  refine (if_neg (by simp [ht])).trans (if_pos ?_)
  simp [hplan, hrole, helig]

end

/-- Settles O56: each command by its own rule, with the case that its hypotheses name. -/
theorem logWritesAndSelfTest : Obligations.LogWritesAndSelfTest := by
  intro addr b s
  refine ⟨fun hw hf => ⟨flowstoneMramWrite_does hw hf, flowstoneMramWrite_does hw hf⟩,
    fun hw hf hd ho => ⟨⟨_, repeatRewrite_does hw hf hd ho, rfl, rfl, rfl⟩, repeatRewrite_does hw hf hd ho⟩,
    fun o ho hr => ⟨_, recordClose_closes ho hr, congrArg (fun f : Flow => { f with open_ := none }) (toLt_flow _ (begin_ s))⟩,
    fun t ht hb hrun ho hbusy hr => ⟨fun hk => ?_, fun hk => ?_⟩, fun misr lost ref t ht hk hr => ?_,
    fun returned i j rest t ht hk hr hl => loopbackEnd_goesOn ht hr hk hl,
    fun n e k he hr hs _ hp hk ht hgo => stPlanDue_starts he hr hs hp hk ht hgo⟩
  · exact (stSliceStart_begins ht hrun ho hbusy hb hr).congr (sliceBegun_slice hk ho _)
  · exact (stSliceStart_begins ht hrun ho hbusy hb hr).congr (sliceBegun_loopback hk _)
  · have hend := stSliceEnd_logic (misr := misr) (lost := lost) (ref := ref) ht hr hk
    refine ⟨fun hc hlt => hend.congr ?_, fun cause hc => hend.congr ?_, fun hc hlast => hend.congr ?_⟩
    · exact sliceJudged_short (u := sliceDone misr lost t) _ hc hlt
    · exact sliceJudged_cut (u := sliceDone misr lost t) _ hc
    · have hpatterns : (sliceDone misr lost t).patterns = target t.block := hlast
      rw [sliceJudged_last (u := sliceDone misr lost t) _ hc hpatterns, signatureJudged, sliceEnded_part]
      unfold sliceEnded sliceDone
      rfl

end Sys2Proof.Machine
end
